-- ==== Sys2Proof/Word.lean ====
section
/-! DEFINITION. Words of the Nalsor 6216: bytes, and the numbers of cages, stations, tags and segments
(spec/00_scope.md section 4.4). -/

namespace Sys2Proof

/-- A byte of a frame payload, of a module's management memory or of the configuration image. -/
abbrev Byte := BitVec 8

/-- A cage number, 0 to 15 (spec/00_scope.md section 4.4). -/
abbrev Cage := Fin 16

/-- A station number on the coordination bus, 0 to 31 (spec/00_scope.md section 4.4). -/
abbrev Station := Fin 32

/-- A tag, 0 to 15, that names one intent of one station (R42). -/
abbrev Tag := Fin 16

/-- A module management segment: 0 is segment A (cages 0 to 7), 1 is segment B (cages 8 to 15). -/
abbrev Seg := Fin 2

/-- Station time: a 32-bit count of 10 ms units that wraps (R179). -/
abbrev StationTime := BitVec 32

end Sys2Proof
end

