-- ==== Sys2Proof/Syntax.lean ====
section
/-! DEFINITION. The commands of the block: one constructor of `Instr` for each row of
spec/opcode_table.json, with the operands the rule of the row speaks of. -/

namespace Sys2Proof

/-- The errors a transmitter detects in its own attempt (R79, Table 3-5). -/
inductive TxError where
  | bit
  | receipt
deriving DecidableEq, Repr

/-- The errors a receiver detects in a frame it hears (R79, Table 3-5). -/
inductive RxError where
  | check
  | form
deriving DecidableEq, Repr

/-- The content of a frame as a receiver takes it off the wire, stuff bits removed: the fields of
Table 3-2 that carry content, with the check field received. -/
structure RawFrame where
  precedence : BitVec 12
  kind       : BitVec 4
  length     : BitVec 4
  payload    : List Byte
  check      : BitVec 16
deriving DecidableEq, Repr

/-- For each segment, whether a module holds its clock line low at an event, that is, whether a
stretch is under way there (R117, R124).  An event on a pin: the environment says it. -/
structure ClockHold where
  a : Bool
  b : Bool
deriving DecidableEq, Repr

/-- Where the segment of a cage stands in its try when the cage's PRESENT hold timer expires, which a
removal asks (R126): within it, within a stretch of it, or at the end of a chunk of the cage, where the
removal arrives together with that end and the end is taken first.  The environment says it. -/
inductive RemovalMoment where
  | inTry
  | inStretch
  | atChunkEnd
deriving DecidableEq, Repr

/-- The commands: what reaches the block from outside, one constructor per row of
spec/opcode_table.json.  The comment of each names its row and the rule that governs it. -/
inductive Instr where
  /-- POWER_ON_RESET (R180). -/
  | powerOnReset
  /-- PIN_RESET (R180). -/
  | pinReset
  /-- RESET_RELEASE (R180): the levels of the five station straps and the two profile straps. -/
  | resetRelease (station : Station) (profile : Fin 4)
  /-- STATION_TIME_TICK (R179). -/
  | stationTimeTick
  /-- START_DELAY_EXPIRY (R181). -/
  | startDelayExpiry
  /-- SPI_READ_END (R181): the bytes clocked in. -/
  | spiReadEnd (image : List Byte)
  /-- PRESENT_RAW_CHANGE (R152): the level the raw line goes to. -/
  | presentRawChange (cage : Cage) (level : Bool)
  /-- PRESENT_HOLD_EXPIRY (R152): where the cage's segment stands at the event, which a removal asks
  (R126). -/
  | presentHoldExpiry (cage : Cage) (moment : RemovalMoment)
  /-- LINK_UP_RAW_CHANGE (R153): the level the raw line goes to. -/
  | linkUpRawChange (cage : Cage) (level : Bool)
  /-- LINK_UP_HOLD_EXPIRY (R153). -/
  | linkUpHoldExpiry (cage : Cage)
  /-- ALERT_EDGE (R154). -/
  | alertEdge (cage : Cage)
  /-- CURRENT_SENSE_CONVERSION (R145, R146): the 10-bit code of the channel whose turn it is. -/
  | currentSenseConversion (code : BitVec 10)
  /-- DEBOUNCE_TIMER_EXPIRY (R13). -/
  | debounceTimerExpiry (cage : Cage)
  /-- INIT_WAIT_EXPIRY (R14). -/
  | initWaitExpiry (cage : Cage)
  /-- POLL_TIMER_EXPIRY (R20). -/
  | pollTimerExpiry (cage : Cage)
  /-- READY_TIMER_EXPIRY (R21). -/
  | readyTimerExpiry (cage : Cage)
  /-- SETTLE_TIMER_EXPIRY (R22). -/
  | settleTimerExpiry (cage : Cage)
  /-- TRAIN_TIMER_EXPIRY (R25). -/
  | trainTimerExpiry (cage : Cage)
  /-- VERIFY_TIMER_EXPIRY (R26). -/
  | verifyTimerExpiry (cage : Cage)
  /-- CHUNK_DONE (R117): the bytes a read chunk brought; a write chunk brings none. -/
  | chunkDone (seg : Seg) (data : List Byte)
  /-- CHUNK_NAK (R123). -/
  | chunkNak (seg : Seg)
  /-- RETRY_TIMER_EXPIRY (R123). -/
  | retryTimerExpiry (seg : Seg)
  /-- STRETCH_TIMEOUT (R124). -/
  | stretchTimeout (seg : Seg)
  /-- RECOVERY_SEQUENCE_END (R124). -/
  | recoverySequenceEnd (seg : Seg)
  /-- REMOVAL_BYTE_BOUNDARY (R126). -/
  | removalByteBoundary (seg : Seg)
  /-- SLOT_TIMER_EXPIRY (R136). -/
  | slotTimerExpiry (seg : Seg)
  /-- TX_ATTEMPT_START (R91). -/
  | txAttemptStart
  /-- GOOD_RECEIPT (R78): the clocks of the segments, which a Restart taken at the event asks (R128). -/
  | goodReceipt (clocks : ClockHold)
  /-- LOST_ARBITRATION (R77). -/
  | lostArbitration
  /-- TRANSMIT_ERROR (R79). -/
  | transmitError (error : TxError)
  /-- RECEIVE_ERROR (R79). -/
  | receiveError (error : RxError)
  /-- GOOD_RECEPTION (R81): the frame as it stood on the wire. -/
  | goodReception (frame : RawFrame)
  /-- BUS_SEEN_IDLE (R99). -/
  | busSeenIdle
  /-- RECOVERY_GAP (R100). -/
  | recoveryGap
  /-- RECOVERY_GAP_COUNT_REACHED (R100). -/
  | recoveryGapCountReached
  /-- ANNOUNCE_TICK (R86). -/
  | announceTick
  /-- LISTEN_INTERVAL_END (R187). -/
  | listenIntervalEnd
  /-- PEER_ENTRY_AGED (R72). -/
  | peerEntryAged (station : Station)
  /-- APPLY_INTENT (R68): the oldest frame of the budget receive queue, an INTENT, is applied. -/
  | applyIntent
  /-- APPLY_CONFIRM (R69). -/
  | applyConfirm
  /-- APPLY_WITHDRAW (R69). -/
  | applyWithdraw
  /-- APPLY_RELEASE (R70). -/
  | applyRelease
  /-- APPLY_STATUS (R70). -/
  | applyStatus
  /-- PEER_INTENT_PROMOTION (R71): the pending intent of the station with the tag reaches W + G. -/
  | peerIntentPromotion (station : Station) (tag : Tag)
  /-- WINDOW_DEADLINE (R55): the window of the own intent with the tag ends. -/
  | windowDeadline (tag : Tag)
  /-- BACKOFF_EXPIRY (R60). -/
  | backoffExpiry (cage : Cage)
  /-- BLIND_TIMER_EXPIRY (R63). -/
  | blindTimerExpiry
  /-- DECAY_TICK (R107). -/
  | decayTick
  /-- READ_CAGE (R165): cage and part. -/
  | readCage (cage : Cage) (part : Byte)
  /-- READ_EVENT (R166): cage, index and part. -/
  | readEvent (cage : Cage) (index part : Byte)
  /-- READ_PEER (R167): the station named. -/
  | readPeer (station : Byte)
  /-- READ_HEALTH (R167): the part. -/
  | readHealth (part : Byte)
  /-- HOLD (R33, R168). -/
  | hold (cage : Cage)
  /-- UNHOLD (R34, R168). -/
  | unhold (cage : Cage)
  /-- RETRY (R35, R168). -/
  | retry (cage : Cage)
  /-- CLEAR_PENALTY (R113, R169). -/
  | clearPenalty (cage : Cage)
  /-- SET_CEILING (R169). -/
  | setCeiling (ceiling : Byte)
  /-- MODULE_READ (R170): cage, module address and byte count. -/
  | moduleRead (cage : Cage) (address count : Byte)
  /-- MODULE_WRITE (R130, R170): cage, module address and data bytes. -/
  | moduleWrite (cage : Cage) (address : Byte) (data : List Byte)
  /-- RESTART (R171). -/
  | restart
  /-- RESTART_TIMER_EXPIRY (R171): the clocks of the segments at the event (R128). -/
  | restartTimerExpiry (clocks : ClockHold)
  /-- ALERT_DEASSERTION (R154). -/
  | alertDeassertion (cage : Cage)
  /-- RESTART_CHUNK_BYTE_BOUNDARY (R128). -/
  | restartChunkByteBoundary (seg : Seg)
deriving DecidableEq, Repr

end Sys2Proof
end

