-- ==== Sys2Proof/Config.lean ====
section
/-! DEFINITION. The loaded configuration as data (Table 10-3), and the free values: what the spec
leaves open and no proof may know. -/

namespace Sys2Proof

/-- A cage's entry of the configuration image (Table 10-3, bytes 46 to 93). -/
structure CageSettings where
  enabled  : Bool
  pinned   : Bool
  level    : Nat
  maxWatts : Nat
deriving DecidableEq, Repr

/-- The parameter set of Table 10-3 once built by R183 or R184.  Times in ms, powers in dW unless
the name says otherwise. -/
structure Settings where
  budget        : Nat
  unknownAllow  : Nat
  population    : BitVec 32
  announce      : Nat
  window        : Nat
  surgeFactor   : Nat
  debounce      : Nat
  readyTimeout  : Nat
  settleTimeout : Nat
  trainTimeout  : Nat
  verifyTime    : Nat
  flapIncrement : Nat
  suppress      : Nat
  reuse         : Nat
  decayShift    : Nat
  tolerance     : Nat
  decayPeriod   : Nat
  reseatSeconds : Nat
  darkFloor     : Nat
  currentScale  : Nat
  supervisor    : BitVec 5
  supervisorMask : BitVec 5
  captureMask   : BitVec 8
  resetHigh     : Bool
  lowPowerHigh  : Bool
  portAdmitHigh : Bool
  cages         : Vector CageSettings 16
deriving DecidableEq, Repr

/-- FREE VALUE (log entry 1).  The key by which things that one event hands on together, and that
the spec takes in either order (R173), are put in order: cages at a load, a decay tick or a Restart,
and the two tags of a STATUS.  It has no body, so nothing can be proved of the order but that it is
one. -/
opaque Config.orderKey : Nat → Nat → Nat

/-- FREE VALUE (log entry 4).  Whether a receiver that finds, at the end of the check field, both a
CHECK error and a failed content check records the CHECK error (R79 records the first it detects,
and both are detected there).  It has no body. -/
opaque Config.checkFirst : Nat → Bool

/-- FREE VALUE (log entry 11).  Whether the arbiter looks at PRESENT (R119) before it checks the
addresses of a pass-through write (R130), for a write that both would turn away.  It has no body. -/
opaque Config.presentFirst : Nat → Bool

/-- FREE VALUE (log entry 21).  Whether the module holds the clock of a segment low during a ms in which
no command comes, by the count of choices and the segment (R124).  It has no body. -/
opaque Config.clockHeld : Nat → Nat → Bool

/-- FREE VALUE (log entry 39).  Whether the first STATUS after a Restart carries run state ADOPTING
(R188) where the run state at its attempt is another one, which R65 and R87 have a STATUS carry.  A constant
of the part; it has no body. -/
opaque Config.firstStatusAdopting : Bool

end Sys2Proof
end

