-- ==== Sys2Proof/Machine/State.lean ====
section
/-! DEFINITION. The state of the part, block by block as spec/00_scope.md section 2.1 divides it, the
reasons a step can stop, and the state after a power-on reset. -/

namespace Sys2Proof.Machine

/-- A timer: stopped (`none`), or running with so many ms remaining.  Its expiry is a command. -/
abbrev Timer := Option Nat

/-! ### Start-up and configuration block (Table 10-1) -/

/-- The station run states (Table 3-4, R179). -/
inductive RunState where
  | loading
  | adopting
  | listening
  | running
deriving DecidableEq, Repr

/-- The load phases (Table 10-1). -/
inductive LoadPhase where
  | startDelay
  | read1
  | read2
  | done
deriving DecidableEq, Repr

/-- The start-up block's state (R179, R180), with the reset that holds the part, if one does. -/
structure Startup where
  resetHeld   : Bool
  runState    : RunState
  loadPhase   : LoadPhase
  startDelay  : Timer
  station     : Station
  profile     : Fin 4
  settings    : Option Settings
  listenTicks : Nat
  stationTime : StationTime
deriving DecidableEq, Repr

/-! ### Cage line block (Table 7-1) -/

/-- The authority that sets a cage's output lines (R156 to R158). -/
inductive DriveSource where
  | held
  | latched
  | forced
  | sequencer
deriving DecidableEq, Repr

/-- The sources the sequencer names (R1). -/
inductive NamedSource where
  | forced
  | sequencer
deriving DecidableEq, Repr

/-- The three output lines of a cage, each asserted (`true`) or released / off (`false`). -/
structure Levels where
  reset      : Bool
  lowPower   : Bool
  portAdmit  : Bool
deriving DecidableEq, Repr

/-- A cage's record of the cage line block (Table 7-1), with the raw levels of the two filtered
input pins. -/
structure CageLines where
  presentRaw  : Bool
  present     : Bool
  presentHold : Timer
  linkRaw     : Bool
  link        : Bool
  linkHold    : Timer
  alert       : Bool
  source      : DriveSource
  named       : Option NamedSource
  latched     : Option Levels
deriving DecidableEq, Repr

/-! ### Cage recovery sequencer (Table 1-2) -/

/-- The sixteen cage states (Table 1-1). -/
inductive CageState where
  | disabled
  | vacant
  | debounce
  | identify
  | admitWait
  | powerUp
  | lightSettle
  | train
  | verify
  | inService
  | holdDown
  | relight
  | darkWait
  | faulted
  | manualHold
  | adopt
deriving DecidableEq, Repr

/-- The fault causes (Table 1-5). -/
inductive FaultCause where
  | none
  | identUnreadable
  | identInvalid
  | overClass
  | readyTimeout
  | noLight
  | trainExhausted
  | moduleFault
  | linkError
  | overdraw
deriving DecidableEq, Repr

/-- The cage timers (Table 1-3).  `initStart` says at which event the init wait was started, as the value
of `openChoices` at that event: init waits started at one event expire together (R159).  It is the model's
own field (log entry 38). -/
structure CageTimers where
  debounce  : Timer
  initWait  : Timer
  poll      : Timer
  ready     : Timer
  settle    : Timer
  train     : Timer
  verify    : Timer
  initStart : Nat
deriving DecidableEq, Repr

/-- The identity record of the module present (R17). -/
structure Identity where
  lanes  : Nat
  pm     : Nat
  serial : List Byte
  draw   : Nat
deriving DecidableEq, Repr

/-- The kinds of transaction the sequencer asks for (R6). -/
inductive CrsKind where
  | identityRead
  | readyPoll
  | alertRead
  | txDisable
  | laneRestart
deriving DecidableEq, Repr

/-- One transaction the sequencer wants: its kind, the byte a write carries, and the visit to the
cage's state in which it was asked for (R4). -/
structure CrsRequest where
  kind  : CrsKind
  value : Byte
  visit : Nat
deriving DecidableEq, Repr

/-- A cage's record of the sequencer (Table 1-2).  `visit` numbers the visits of R4 (the model's own
field). -/
structure CageRecord where
  state        : CageState
  timers       : CageTimers
  identReads   : Nat
  trainRetries : Nat
  linkFails    : Nat
  identity     : Option Identity
  cause        : FaultCause
  laneStable   : Bool
  drawSettled  : Bool
  wantedTx     : Option Byte
  requests     : List CrsRequest
  visit        : Nat
deriving DecidableEq, Repr

/-! ### Claim unit -/

/-- The claim states (Table 2-1). -/
inductive ClaimState where
  | none
  | queued
  | pending
  | confirmed
deriving DecidableEq, Repr

/-- A cage's claim record (Table 2-1). -/
structure Claim where
  state     : ClaimState
  draw      : Nat
  listed    : Bool
  listTime  : StationTime
  level     : Nat
  withdraws : Nat
  backoff   : Timer
deriving DecidableEq, Repr

/-- An entry of the own intents table (R41).  `deadline` is the window timer; once the deadline has
passed, `noted` counts the budget frames whose application the judgement still waits for (R55).
Both are absent while the claim is QUEUED. -/
structure OwnIntent where
  tag           : Tag
  cage          : Cage
  draw          : Nat
  level         : Nat
  deadline      : Timer
  noted         : Option Nat
  withdrawAtEnd : Bool
deriving DecidableEq, Repr

/-- The claim unit's state (R40 to R48, R63).  `testDue` says that an event of R52 has happened and
the queue-time test is still to be run at this event; it is clear between events (the model's own
field). -/
structure ClaimUnit where
  claims         : Vector Claim 16
  intents        : List OwnIntent
  lastTag        : Tag
  committed      : Nat
  releasePending : Nat
  ceiling        : Nat
  blind          : Bool
  blindTimer     : Timer
  testDue        : Bool
deriving DecidableEq, Repr

/-! ### Bus interface (Table 3-1) -/

/-- The bus health states (Table 3-4). -/
inductive BusHealth where
  | active
  | cautious
  | silent
  | recovering
deriving DecidableEq, Repr

/-- The last bus error (R101). -/
inductive BusError where
  | none
  | check
  | form
  | bit
  | receipt
deriving DecidableEq, Repr

/-- The result of a supervisory request (Table 8-2). -/
inductive Result where
  | done
  | badArg
  | wrongState
  | absent
  | linkFail
  | notReady
deriving DecidableEq, Repr

/-- What a STATUS carries (R65). -/
structure StatusContent where
  total     : Nat
  tags      : List Tag
  runState  : RunState
  health    : BusHealth
  inService : Nat
deriving DecidableEq, Repr

/-- What a CAGE-REPORT carries (R3). -/
structure CageReport where
  cage    : Cage
  state   : CageState
  cause   : FaultCause
  penalty : Nat
deriving DecidableEq, Repr

/-- The content of a frame by its kind (Table 3-3). -/
inductive FrameBody where
  | intent (cage : Cage) (tag : Tag) (draw : Nat)
  | confirm (tag : Tag) (draw : Nat)
  | withdraw (tag : Tag) (draw : Nat)
  | release (amount : Nat)
  | status (content : StatusContent)
  | request (target : Station) (code : Byte) (args : List Byte)
  | reply (code : Byte) (result : Byte) (data : List Byte)
  | cageReport (report : CageReport)
deriving DecidableEq, Repr

/-- A frame: its source, the level its precedence carries, its content. -/
structure Frame where
  source : Station
  level  : Nat
  body   : FrameBody
deriving DecidableEq, Repr

/-- Whether a frame of the transmit queue waits, is under attempt, or is under an attempt that was
under way at a Restart (R74). -/
inductive TxMark where
  | waiting
  | attempting
  | detached
deriving DecidableEq, Repr

/-- A report kept as the follow-on of one under attempt (R90): its content and its level. -/
structure FollowOn where
  report : CageReport
  level  : Nat
deriving DecidableEq, Repr

/-- A frame of the transmit queue.  The queue is a list in the order of the frames' queue times,
oldest first. -/
structure TxFrame where
  level    : Nat
  body     : FrameBody
  mark     : TxMark
  followOn : Option FollowOn
deriving DecidableEq, Repr

/-- A supervisory request as the service queue holds it: byte 1 of its frame and its arguments. -/
structure Request where
  code : Byte
  args : List Byte
deriving DecidableEq, Repr

/-- The bus interface's state (Table 3-1).  `afterRestart` is the model's own: no STATUS of the part has
been sent since a Restart (R188, log entry 39). -/
structure BusUnit where
  txQueue         : List TxFrame
  statusRenew     : Bool
  budgetQueue     : List Frame
  serviceQueue    : List Request
  txErrors        : Nat
  rxErrors        : Nat
  health          : BusHealth
  gapCount        : Nat
  lastError       : BusError
  budgetLoss      : Nat
  denied          : Nat
  serviceOverflow : Nat
  reportDrop      : Nat
  announce        : Timer
  afterRestart    : Bool
deriving DecidableEq, Repr

/-! ### Peer view (Table 2-3) -/

/-- The status of a peer entry. -/
inductive PeerStatus where
  | unknown
  | present
  | aged
deriving DecidableEq, Repr

/-- A pending intent of a peer, its age in ms. -/
structure PeerIntent where
  tag   : Tag
  draw  : Nat
  level : Nat
  age   : Nat
deriving DecidableEq, Repr

/-- The peer view's entry for a station. -/
structure PeerEntry where
  status    : PeerStatus
  confirmed : Nat
  intents   : List PeerIntent
  age       : Nat
  runState  : Option RunState
  health    : Option BusHealth
deriving DecidableEq, Repr

/-! ### Penalty unit (Table 4-1) -/

/-- A last-module record (R109). -/
structure LastModule where
  serial  : List Byte
  stored  : Nat
  removed : StationTime
  stale   : Bool
deriving DecidableEq, Repr

/-- A cage's penalty and last-module record. -/
structure CagePenalty where
  value      : Nat
  lastModule : Option LastModule
deriving DecidableEq, Repr

/-- The penalty unit's state. -/
structure PenaltyUnit where
  cages : Vector CagePenalty 16
  decay : Timer
deriving DecidableEq, Repr

/-! ### Management links (Table 5-1) -/

/-- The segment states. -/
inductive LinkState where
  | idle
  | chunk
  | retryWait
  | recovery
deriving DecidableEq, Repr

/-- Whose request a slot holds.  For the sequencer, with whether its outcome is to be discarded
because a withdrawal was refused (R7, R120). -/
inductive Origin where
  | crs (request : CrsRequest) (discard : Bool)
  | passThrough
  | scanner
deriving DecidableEq, Repr

/-- A request in a slot: a read of `length` bytes, or a write of `writeData`, at `address`; the
index of its next chunk, the bytes read so far, and whether a chunk of it has been granted. -/
structure LinkRequest where
  origin    : Origin
  cage      : Cage
  address   : Nat
  length    : Nat
  writeData : Option (List Byte)
  nextChunk : Nat
  bytes     : List Byte
  granted   : Bool
deriving DecidableEq, Repr

/-- The slot a chunk in progress was granted from. -/
inductive Slot where
  | crs (cage : Cage)
  | passThrough
  | scanner
deriving DecidableEq, Repr

/-- How a chunk in progress is to end at its next byte boundary, if a removal (R126) or a Restart
(R128) has ended it. -/
inductive ChunkEnd where
  | none
  | absent
  | restart
deriving DecidableEq, Repr

/-- The chunk in progress; `data` is what a write chunk writes. -/
structure Chunk where
  slot    : Slot
  cage    : Cage
  address : Nat
  length  : Nat
  isWrite : Bool
  data    : List Byte
  tryNo   : Nat
  ending  : ChunkEnd
deriving DecidableEq, Repr

/-- A segment's arbiter.  `crsSlots` has one slot for each cage of the segment. -/
structure Link where
  state       : LinkState
  crsSlots    : Vector (Option LinkRequest) 8
  passThrough : Option LinkRequest
  scanner     : Option LinkRequest
  chunk       : Option Chunk
  selected    : Option Cage
  stretch     : Timer
  retryTimer  : Timer
deriving DecidableEq, Repr

/-! ### Scan rota and current sense (Tables 6-1 and 6-3) -/

/-- The scanner phases. -/
inductive ScanPhase where
  | idle
  | scanning
  | draining
deriving DecidableEq, Repr

/-- The class whose turn the next slot is (R136). -/
inductive Turn where
  | settling
  | steady
deriving DecidableEq, Repr

/-- The cursor: the cage, the lane count and the index of the chunk presented (R137). -/
structure Cursor where
  cage  : Cage
  lanes : Nat
  index : Nat
deriving DecidableEq, Repr

/-- A segment's scanner. -/
structure Scanner where
  phase        : ScanPhase
  turn         : Turn
  lastSettling : Option Cage
  lastSteady   : Option Cage
  cursor       : Option Cursor
  sampleBytes  : List Byte
  slotTimer    : Timer
deriving DecidableEq, Repr

/-- A lane entry of a sample record. -/
structure LaneEntry where
  txBias  : Nat
  txPower : Nat
  rxPower : Nat
  rxLost  : Bool
  txFault : Bool
deriving DecidableEq, Repr

/-- A draw in dW with its saturated mark (R146). -/
structure Draw where
  value     : Nat
  saturated : Bool
deriving DecidableEq, Repr

/-- A sample record (Table 6-3). -/
structure Sample where
  time        : StationTime
  temperature : Int
  supply      : Nat
  lanes       : Nat
  entries     : List LaneEntry
  draw        : Option Draw
deriving DecidableEq, Repr

/-- What the scanner and the converter hold for a cage. -/
structure CageScan where
  sample  : Option Sample
  windows : Vector (List Nat) 8
  history : List Draw
  overRun : Nat
deriving DecidableEq, Repr

/-- The scanners, their cages' records, and the converter's position in its cycle (R145). -/
structure ScanUnit where
  scanners  : Vector Scanner 2
  cages     : Vector CageScan 16
  converting : Bool
  channel   : Cage
deriving DecidableEq, Repr

/-! ### Service unit (Table 8 of R161) -/

/-- The service unit's phases. -/
inductive ServicePhase where
  | idle
  | carrying
  | replying
  | restartPending
deriving DecidableEq, Repr

/-- The service unit's state. -/
structure ServiceUnit where
  phase        : ServicePhase
  request      : Option Request
  restartTimer : Timer
deriving DecidableEq, Repr

/-! ### Event unit (Tables 9-1 to 9-3) -/

/-- The event kinds. -/
inductive EventKind where
  | inserted
  | removed
  | inService
  | flap
  | holdDown
  | fault
  | adopted
  | manual
deriving DecidableEq, Repr

/-- A snapshot (Table 9-3): a pair of bands (tx, rx) for each lane. -/
structure Snapshot where
  temperature : Int
  supply      : Nat
  lanes       : Nat
  bands       : List (Nat × Nat)
  draw        : Option Draw
  age         : Nat
deriving DecidableEq, Repr

/-- An event record (Table 9-2). -/
structure EventRecord where
  sequence : Nat
  time     : StationTime
  kind     : EventKind
  before   : CageState
  cause    : Option FaultCause
  penalty  : Nat
  snapshot : Option Snapshot
deriving DecidableEq, Repr

/-- The event unit's state: histories newest first, and the next sequence number. -/
structure EventUnit where
  histories    : Vector (List EventRecord) 16
  nextSequence : Nat
deriving DecidableEq, Repr

/-! ### The whole part -/

/-- The state of the part.  `pending` holds the commands that wait, first in, first out, and
`openChoices` counts the choices of order the spec leaves open, and numbers the events (log entries 1
and 38); both are the model's own fields. -/
structure State where
  pending     : List Instr
  startup     : Startup
  lines       : Vector CageLines 16
  cages       : Vector CageRecord 16
  claims      : ClaimUnit
  peers       : Vector PeerEntry 32
  bus         : BusUnit
  penalties   : PenaltyUnit
  links       : Vector Link 2
  scan        : ScanUnit
  service     : ServiceUnit
  events      : EventUnit
  openChoices : Nat
deriving DecidableEq, Repr

/-- No command of this block ends in a fault: the spec gives an effect, or none, to each of them in
every state, so the type has no constructor. -/
inductive Fault where
deriving DecidableEq, Repr

/-- The refusals. -/
inductive Refusal where
  /-- Raised by `exec` for a command that has no meaning yet; safe, since nothing runs on.  No arm of
  `exec` raises it. -/
  | notModelled (mnemonic : String)
deriving DecidableEq, Repr

/-! ### Reset -/

/-- All cage timers stopped. -/
def noTimers : CageTimers := ⟨none, none, none, none, none, none, none, 0⟩

/-- The reset values of Table 1-2 (R2). -/
def resetCageRecord : CageRecord :=
  { state := .vacant, timers := noTimers, identReads := 0, trainRetries := 0, linkFails := 0,
    identity := none, cause := .none, laneStable := false, drawSettled := false, wantedTx := none,
    requests := [], visit := 0 }

/-- The reset values of Table 2-1; `level` is 16 before the configuration is loaded and the cage's
configured level after (R40). -/
def resetClaim (level : Nat) : Claim :=
  { state := .none, draw := 0, listed := false, listTime := 0, level := level, withdraws := 0,
    backoff := none }

/-- The reset values of Table 7-1, with the raw levels of the pins as they are (R151). -/
def resetLines (presentRaw linkRaw : Bool) : CageLines :=
  { presentRaw := presentRaw, present := false, presentHold := none, linkRaw := linkRaw,
    link := false, linkHold := none, alert := false, source := .held, named := some .sequencer,
    latched := none }

/-- The reset values of Table 3-1 (R74), with no Restart before. -/
def resetBus : BusUnit :=
  { txQueue := [], statusRenew := false, budgetQueue := [], serviceQueue := [], txErrors := 0,
    rxErrors := 0, health := .active, gapCount := 0, lastError := .none, budgetLoss := 0,
    denied := 0, serviceOverflow := 0, reportDrop := 0, announce := none,
    afterRestart := false }

/-- An Unknown peer entry (R66). -/
def unknownPeer : PeerEntry :=
  { status := .unknown, confirmed := 0, intents := [], age := 0, runState := none, health := none }

/-- The reset values of Table 5-1 (R116). -/
def resetLink : Link :=
  { state := .idle, crsSlots := Vector.replicate 8 none, passThrough := none, scanner := none,
    chunk := none, selected := none, stretch := none, retryTimer := none }

/-- The reset values of Table 6-1 (R134). -/
def resetScanner : Scanner :=
  { phase := .idle, turn := .settling, lastSettling := none, lastSteady := none, cursor := none,
    sampleBytes := [], slotTimer := none }

/-- A cage's scan record after a reset or a Restart (R134, R145). -/
def resetCageScan : CageScan :=
  { sample := none, windows := Vector.replicate 8 [], history := [], overRun := 0 }

/-- The service unit after a reset or a Restart (R161). -/
def resetService : ServiceUnit := { phase := .idle, request := none, restartTimer := none }

/-- The claim unit after a reset or a Restart (R40 to R48, R63), given the cages' levels. -/
def resetClaims (claims : Vector Claim 16) : ClaimUnit :=
  { claims := claims, intents := [], lastTag := 15, committed := 0, releasePending := 0,
    ceiling := 32, blind := false, blindTimer := none, testDue := false }

/-- The part held in a power-on reset, before its release, with an empty queue: every block at the
values its chapter gives (R180).  The strap latch, which the release writes, and the raw pins hold
values of log entries 2 and 3. -/
def State.reset : State :=
  { pending := [],
    startup := { resetHeld := true, runState := .loading, loadPhase := .startDelay,
                 startDelay := none, station := 0, profile := 0, settings := none,
                 listenTicks := 0, stationTime := 0 },
    lines := Vector.replicate 16 (resetLines false false),
    cages := Vector.replicate 16 resetCageRecord,
    claims := resetClaims (Vector.replicate 16 (resetClaim 16)),
    peers := Vector.replicate 32 unknownPeer,
    bus := resetBus,
    penalties := { cages := Vector.replicate 16 { value := 0, lastModule := none }, decay := none },
    links := Vector.replicate 2 resetLink,
    scan := { scanners := Vector.replicate 2 resetScanner,
              cages := Vector.replicate 16 resetCageScan, converting := false, channel := 0 },
    service := resetService,
    events := { histories := Vector.replicate 16 [], nextSequence := 0 },
    openChoices := 0 }

end Sys2Proof.Machine
end

