-- ==== Sys2Proof/Machine/Operands.lean ====
section
/-! DEFINITION. The forms in which values reach and leave the part: codes, bytes and bits, the frame
fields and payloads of the coordination bus with their check and stuffing (spec/03), the chunks and
the data layout of the management links (spec/05, spec/06). -/

namespace Sys2Proof.Machine

/-! ### Codes -/

/-- The codes of Table 1-1. -/
def CageState.code : CageState → Nat
  | .disabled => 0 | .vacant => 1 | .debounce => 2 | .identify => 3
  | .admitWait => 4 | .powerUp => 5 | .lightSettle => 6 | .train => 7
  | .verify => 8 | .inService => 9 | .holdDown => 10 | .relight => 11
  | .darkWait => 12 | .faulted => 13 | .manualHold => 14 | .adopt => 15

/-- The sixteen cage states in the order of their codes (Table 1-1). -/
def cageStates : List CageState :=
  [.disabled, .vacant, .debounce, .identify, .admitWait, .powerUp, .lightSettle, .train,
   .verify, .inService, .holdDown, .relight, .darkWait, .faulted, .manualHold, .adopt]

/-- The codes of Table 1-5. -/
def FaultCause.code : FaultCause → Nat
  | .none => 0 | .identUnreadable => 1 | .identInvalid => 2 | .overClass => 3
  | .readyTimeout => 4 | .noLight => 5 | .trainExhausted => 6 | .moduleFault => 7
  | .linkError => 8 | .overdraw => 9

/-- The fault causes in the order of their codes (Table 1-5). -/
def faultCauses : List FaultCause :=
  [.none, .identUnreadable, .identInvalid, .overClass, .readyTimeout, .noLight, .trainExhausted,
   .moduleFault, .linkError, .overdraw]

/-- The codes of Table 3-4. -/
def RunState.code : RunState → Nat
  | .loading => 0 | .adopting => 1 | .listening => 2 | .running => 3

/-- The run states in the order of their codes (Table 3-4). -/
def runStates : List RunState := [.loading, .adopting, .listening, .running]

/-- The codes of Table 3-4. -/
def BusHealth.code : BusHealth → Nat
  | .active => 0 | .cautious => 1 | .silent => 2 | .recovering => 3

/-- The bus health states in the order of their codes (Table 3-4). -/
def busHealths : List BusHealth := [.active, .cautious, .silent, .recovering]

/-- The codes of R164. -/
def BusError.code : BusError → Nat
  | .none => 0 | .check => 1 | .form => 2 | .bit => 3 | .receipt => 4

/-- The codes of Table 8-2. -/
def Result.code : Result → Nat
  | .done => 0 | .badArg => 1 | .wrongState => 2 | .absent => 3 | .linkFail => 4 | .notReady => 5

/-- The codes of R164. -/
def ClaimState.code : ClaimState → Nat
  | .none => 0 | .queued => 1 | .pending => 2 | .confirmed => 3

/-- The codes of R164. -/
def PeerStatus.code : PeerStatus → Nat
  | .unknown => 0 | .present => 1 | .aged => 2

/-- The codes of Table 9-1. -/
def EventKind.code : EventKind → Nat
  | .inserted => 0 | .removed => 1 | .inService => 2 | .flap => 3
  | .holdDown => 4 | .fault => 5 | .adopted => 6 | .manual => 7

/-- The error a receiver records for what it detects (R79). -/
def rxBusError : RxError → BusError
  | .check => .check
  | .form => .form

/-- The error a transmitter records for what it detects (R79). -/
def txBusError : TxError → BusError
  | .bit => .bit
  | .receipt => .receipt

/-! ### Bytes and bits -/

/-- The number that two bytes make, the most significant first (spec/03 section 3.3, spec/05
section 5.8, R181). -/
def word16 (high low : Byte) : Nat := high.toNat * 256 + low.toNat

/-- A number below 256 as a byte. -/
def byteOf (n : Nat) : Byte := BitVec.ofNat 8 n

/-- The high byte of a 16-bit number. -/
def highByte (n : Nat) : Byte := byteOf (n / 256)

/-- The low byte of a 16-bit number. -/
def lowByte (n : Nat) : Byte := byteOf n

/-- A byte made of two nibbles (R164). -/
def nibbles (high low : Nat) : Byte := byteOf (high * 16 + low)

/-- The byte at an index of a list of bytes. -/
def byteAt (bytes : List Byte) (i : Nat) : Byte := bytes.getD i 0

/-- The bits of a field, most significant first, as they are sent (spec/03 section 3.2). -/
def fieldBits {w : Nat} (v : BitVec w) : List Bool := (List.range w).map v.getMsbD

/-! ### The check of frames and of the configuration image (R76, R182) -/

/-- One bit through the check register: generator x^16 + x^12 + x^5 + 1 (R76). -/
def crcStep (reg : BitVec 16) (b : Bool) : BitVec 16 :=
  if b = reg.msb then reg <<< 1 else (reg <<< 1) ^^^ 0x1021#16

/-- The check of a sequence of bits: the register starts at all ones (R76). -/
def crcOf (bits : List Bool) : BitVec 16 := bits.foldl crcStep 0xFFFF#16

/-! ### Frames on the wire (R75 to R80) -/

/-- The class of a frame by its kind (Table 3-3). -/
def FrameBody.classNo : FrameBody → Nat
  | .intent .. => 0 | .confirm .. => 0 | .withdraw .. => 0 | .release .. => 0
  | .status .. => 1 | .request .. => 2 | .reply .. => 2 | .cageReport .. => 3

/-- The kind code of a frame (Table 3-4). -/
def FrameBody.kindCode : FrameBody → Nat
  | .intent .. => 0 | .confirm .. => 1 | .withdraw .. => 2 | .release .. => 3
  | .status .. => 4 | .request .. => 5 | .reply .. => 6 | .cageReport .. => 7

/-- The precedence value: class × 1024 + level × 32 + source station (spec/03 section 3.2). -/
def precedenceValue (classNo level : Nat) (source : Station) : Nat :=
  classNo * 1024 + level * 32 + source.val

/-- The tag byte of a STATUS at an index; one the pending count does not use carries 0 (Table 3-3). -/
def tagByte (tags : List Tag) (i : Nat) : Byte :=
  match tags[i]? with
  | some t => byteOf t.val
  | none => 0

/-- The payload of a frame (Table 3-3). -/
def FrameBody.payload : FrameBody → List Byte
  | .intent c t d => [byteOf c.val, byteOf t.val, highByte d, lowByte d]
  | .confirm t d => [byteOf t.val, highByte d, lowByte d]
  | .withdraw t d => [byteOf t.val, highByte d, lowByte d]
  | .release a => [highByte a, lowByte a]
  | .status k =>
    [highByte k.total, lowByte k.total, byteOf k.tags.length, tagByte k.tags 0, tagByte k.tags 1,
     byteOf k.runState.code, byteOf k.health.code, byteOf k.inService]
  | .request target code args => byteOf target.val :: code :: args
  | .reply code result data => code :: result :: data
  | .cageReport r =>
    [byteOf r.cage.val, byteOf r.state.code, byteOf r.cause.code, highByte r.penalty,
     lowByte r.penalty]

/-- The bits the check covers: precedence, kind, length and payload (R76). -/
def coveredBits (precedence : BitVec 12) (kind length : BitVec 4) (payload : List Byte) :
    List Bool :=
  fieldBits precedence ++ fieldBits kind ++ fieldBits length ++ payload.flatMap fieldBits

/-- A frame as its transmitter sends it, with its check (Table 3-2, R76). -/
def encodeFrame (f : Frame) : RawFrame :=
  let precedence := BitVec.ofNat 12 (precedenceValue f.body.classNo f.level f.source)
  let kind := BitVec.ofNat 4 f.body.kindCode
  let length := BitVec.ofNat 4 f.body.payload.length
  { precedence := precedence, kind := kind, length := length, payload := f.body.payload,
    check := crcOf (coveredBits precedence kind length f.body.payload) }

/-- Stuffing of a span after a run of `run` bits of level `last`: after 6 bits of one level, one of
the other, which begins a new run (R75). -/
def stuffFrom (last : Bool) (run : Nat) : List Bool → List Bool
  | [] => []
  | b :: bs =>
    let n := if b = last then run + 1 else 1
    if n = 6 then b :: (!b) :: stuffFrom (!b) 1 bs else b :: stuffFrom b n bs

/-- A span with its stuff bits (R75). -/
def stuff (bits : List Bool) : List Bool := stuffFrom true 0 bits

/-- The content of a stuffed span after a run of `run` bits of level `last`; none where seven equal
bits stand, a FORM error (R75). -/
def unstuffFrom (last : Bool) (run : Nat) : List Bool → Option (List Bool)
  | [] => some []
  | b :: bs =>
    if run = 6 then
      if b = last then none else unstuffFrom b 1 bs
    else
      (unstuffFrom b (if b = last then run + 1 else 1) bs).map (b :: ·)

/-- The content of a stuffed span, or none where seven equal bits stand (R75). -/
def unstuff (bits : List Bool) : Option (List Bool) := unstuffFrom true 0 bits

/-- The levels of a frame on the wire from the start bit to the last check bit, dominant as `false`
(a dominant level is the 0 that wins arbitration, R77): the start bit, the covered fields and the
check, stuffed (R75). -/
def wireSpan (f : RawFrame) : List Bool :=
  stuff (false :: (coveredBits f.precedence f.kind f.length f.payload ++ fieldBits f.check))

/-- The source station of a frame as received (Table 3-2). -/
def frameSource (f : RawFrame) : Station := Fin.ofNat 32 f.precedence.toNat

/-- The level of a frame as received (Table 3-2). -/
def frameLevel (f : RawFrame) : Nat := f.precedence.toNat / 32 % 32

/-- The class of a frame as received (Table 3-2). -/
def frameClass (f : RawFrame) : Nat := f.precedence.toNat / 1024

/-- The class, kind and length checks a receiver makes as the fields arrive (R80). -/
def headerGood (f : RawFrame) : Bool :=
  let n := f.length.toNat
  f.payload.length = n &&
  match f.kind.toNat with
  | 0 => frameClass f = 0 && n = 4
  | 1 => frameClass f = 0 && n = 3
  | 2 => frameClass f = 0 && n = 3
  | 3 => frameClass f = 0 && n = 2
  | 4 => frameClass f = 1 && n = 8
  | 5 => frameClass f = 2 && 2 ≤ n && n ≤ 7
  | 6 => frameClass f = 2 && 2 ≤ n && n ≤ 8
  | 7 => frameClass f = 3 && n = 5
  | _ => false

/-- The level check: 0 for a RELEASE, 31 for a STATUS, 16 for a REQUEST or REPLY (R80). -/
def levelGood (kind level : Nat) : Bool :=
  match kind with
  | 3 => level = 0
  | 4 => level = 31
  | 5 => level = 16
  | 6 => level = 16
  | _ => true

/-- A byte as a number below a bound. -/
def byteBelow (n : Nat) (b : Byte) [NeZero n] : Option (Fin n) :=
  if b.toNat < n then some (Fin.ofNat n b.toNat) else none

/-- A surge draw of a budget frame, 1 to 4095 (R80). -/
def drawOf (high low : Byte) : Option Nat :=
  let d := word16 high low
  if 1 ≤ d ∧ d ≤ 4095 then some d else none

/-- The content of a frame by its kind, with the content checks of R80; none where one fails. -/
def contentOf (kind : Nat) (payload : List Byte) : Option FrameBody :=
  match kind, payload with
  | 0, [c, t, h, l] => do
    let c ← byteBelow 16 c
    let t ← byteBelow 16 t
    let d ← drawOf h l
    return .intent c t d
  | 1, [t, h, l] => do
    let t ← byteBelow 16 t
    let d ← drawOf h l
    return .confirm t d
  | 2, [t, h, l] => do
    let t ← byteBelow 16 t
    let d ← drawOf h l
    return .withdraw t d
  | 3, [h, l] =>
    let a := word16 h l
    if 1 ≤ a ∧ a ≤ 65520 then some (.release a) else none
  | 4, [h, l, n, t0, t1, r, b, k] => do
    let t0 ← byteBelow 16 t0
    let t1 ← byteBelow 16 t1
    let run ← runStates[r.toNat]?
    let health ← busHealths[b.toNat]?
    if word16 h l ≤ 65520 ∧ n.toNat ≤ 2 ∧ k.toNat ≤ 16 then
      return .status ⟨word16 h l, [t0, t1].take n.toNat, run, health, k.toNat⟩
    else none
  | 5, target :: code :: args => do
    let target ← byteBelow 32 target
    return .request target code args
  | 6, code :: result :: data => some (.reply code result data)
  | 7, [c, st, f, h, l] => do
    let c ← byteBelow 16 c
    let st ← cageStates[st.toNat]?
    let f ← faultCauses[f.toNat]?
    if word16 h l ≤ 16383 then return .cageReport ⟨c, st, f, word16 h l⟩ else none
  | _, _ => none

/-- What a receiver makes of a frame: the frame, or the first error it detects (R76, R79, R80).  The
header checks come as the fields arrive; the check field, the level and the content are judged together at the
end of the check field, and `checkFirst` says which error is recorded where both stand. -/
def decodeFrame (checkFirst : Bool) (f : RawFrame) : Except RxError Frame :=
  if !headerGood f then .error .form
  else
    let checkGood := crcOf (coveredBits f.precedence f.kind f.length f.payload) = f.check
    let content :=
      if levelGood f.kind.toNat (frameLevel f) then contentOf f.kind.toNat f.payload else none
    match content with
    | some body => if checkGood then .ok ⟨frameSource f, frameLevel f, body⟩ else .error .check
    | none => if checkGood then .error .form else .error (if checkFirst then .check else .form)

/-! ### The cage data layout (spec/05 section 5.8) -/

/-- The arithmetic sum of bytes. -/
def byteSum (bytes : List Byte) : Nat := bytes.foldl (fun n b => n + b.toNat) 0

/-- Whether byte 31 is the low 8 bits of the sum of bytes 0 to 30 (R131). -/
def identityCheckGood (block : List Byte) : Bool :=
  (byteAt block 31).toNat = byteSum (block.take 31) % 256

/-- The lane count of an identity block (R131). -/
def blockLanes (block : List Byte) : Nat := (byteAt block 2).toNat

/-- The declared maximum power of an identity block (R131). -/
def blockPm (block : List Byte) : Nat := word16 (byteAt block 3) (byteAt block 4)

/-- The serial of an identity block (R131). -/
def blockSerial (block : List Byte) : List Byte := (block.drop 5).take 16

/-- A one in bits 0 to n − 1 (R6). -/
def laneMask (lanes : Nat) : Byte := byteOf (2 ^ min lanes 8 - 1)

/-- Whether bit i of a status byte is set for some lane i below n (R10, R132). -/
def anyLane (lanes : Nat) (bits : Byte) : Bool := (bits &&& laneMask lanes) != 0

/-- Whether bit i of a status byte is set for every lane i below n (R25). -/
def everyLane (lanes : Nat) (bits : Byte) : Bool := (bits &&& laneMask lanes) == laneMask lanes

/-- A span of addresses cut into chunks of 8 bytes, the last taking what remains (R118, R137). -/
def chunksOf (fuel address length : Nat) : List (Nat × Nat) :=
  match fuel with
  | 0 => []
  | fuel + 1 =>
    if length = 0 then []
    else if length ≤ 8 then [(address, length)]
    else (address, 8) :: chunksOf fuel (address + 8) (length - 8)

/-- The chunk plan of a scan for a lane count (R137, Table 6-2): the address and length of each. -/
def scanPlan (lanes : Nat) : List (Nat × Nat) :=
  (64, 3) :: (chunksOf 5 80 (4 + 6 * min lanes 6) ++ chunksOf 2 122 (6 * (lanes - 6)))

/-- The two-byte value at an index of the bytes of a scan. -/
def wordAt (bytes : List Byte) (i : Nat) : Nat := word16 (byteAt bytes i) (byteAt bytes (i + 1))

/-- A 16-bit value in two's complement (R132). -/
def signed16 (n : Nat) : Int := if n < 32768 then n else (n : Int) - 65536

/-- A value clamped to a range (spec/00_scope.md section 4.2). -/
def clampInt (low high v : Int) : Int := max low (min high v)

/-- The lane entry of lane i in the bytes of a completed scan: three status bytes, four monitor
bytes, then six for each lane (R132, R137). -/
def laneEntry (bytes : List Byte) (i : Nat) : LaneEntry :=
  { txBias := wordAt bytes (7 + 6 * i), txPower := wordAt bytes (9 + 6 * i),
    rxPower := wordAt bytes (11 + 6 * i), rxLost := (byteAt bytes 1).getLsbD i,
    txFault := (byteAt bytes 2).getLsbD i }

/-- The sample record that the bytes of a completed scan make (R141, R132). -/
def sampleOf (time : StationTime) (lanes : Nat) (bytes : List Byte) (draw : Option Draw) : Sample :=
  { time := time, temperature := clampInt (-400) 1250 (signed16 (wordAt bytes 3)),
    supply := wordAt bytes 5, lanes := lanes, entries := (List.range lanes).map (laneEntry bytes),
    draw := draw }

/-- What a try puts on a segment or takes from it (R117): a condition, a byte the part sends, or a byte the
module sends with the part's answer to it, an acknowledge or a NAK. -/
inductive WireItem where
  | start
  | repeatedStart
  | sends (b : Byte)
  | takes (acknowledge : Bool)
  | stop
deriving DecidableEq, Repr

/-- The device address every module answers at, with its direction bit (R117). -/
def deviceByte (read : Bool) : Byte := if read then 0x75 else 0x74

/-- The data bytes of a read: each acknowledged but the last (R117). -/
def takenBytes (length : Nat) : List WireItem :=
  (List.range length).map (fun i => .takes (decide (i + 1 < length)))

/-- A try of a read chunk of `length` bytes at an address (R117). -/
def readTry (address : Byte) (length : Nat) : List WireItem :=
  [.start, .sends (deviceByte false), .sends address, .repeatedStart, .sends (deviceByte true)] ++
    takenBytes length ++ [.stop]

/-- A try of a write chunk at an address (R117). -/
def writeTry (address : Byte) (data : List Byte) : List WireItem :=
  [.start, .sends (deviceByte false), .sends address] ++ data.map .sends ++ [.stop]

/-- The levels the part gives the data line in the nine bits of a byte, true where it leaves the line to the
module: the bits of a byte it sends, most significant first, and its answer to one it takes, low for an
acknowledge (R117).  A condition has no bits. -/
def WireItem.bits : WireItem → List Bool
  | .sends b => fieldBits b ++ [true]
  | .takes acknowledge => List.replicate 8 true ++ [!acknowledge]
  | .start => []
  | .repeatedStart => []
  | .stop => []

/-- The clock periods of a wire item, without stretching: a byte is 8 bits and an acknowledge, a
start, repeated start or stop condition one period (the table of R117). -/
def WireItem.clocks : WireItem → Nat
  | .start => 1
  | .repeatedStart => 1
  | .sends _ => 9
  | .takes _ => 9
  | .stop => 1

/-- The clock periods of a try, without stretching (the table of R117). -/
def tryClocks (items : List WireItem) : Nat := (items.map WireItem.clocks).sum

end Sys2Proof.Machine
end

