-- ==== Sys2Proof/Machine/Configuration.lean ====
section
/-! DEFINITION. The check of a read of the configuration image, the parameter set built from it, and
the profile default set (R182 to R184, Table 10-3). -/

namespace Sys2Proof.Machine

/-- A value clamped to a range (spec/00_scope.md section 4.2). -/
def clampNat (low high n : Nat) : Nat := max low (min high n)

/-- The two-byte field of the image at an address (Table 10-3). -/
def imageWord (image : List Byte) (i : Nat) : Nat := word16 (byteAt image i) (byteAt image (i + 1))

/-- Whether a read passes its check (R182): the layout code, the length, and the check of bytes 0 to
93 as R76 computes it.  A read brings 96 bytes (R181). -/
def imageGood (image : List Byte) : Bool :=
  image.length = 96 && imageWord image 0 = 0x6216 && imageWord image 2 = 96 &&
  (crcOf ((image.take 94).flatMap fieldBits)).toNat = imageWord image 94

/-- The level of a cage after the judgements of R183 on pinning. -/
def pinnedLevel (pinned : Bool) (level : Nat) : Nat :=
  if pinned then min level 7 else max level 8

/-- The entry of a cage in the image, clamped and judged (R183). -/
def imageCage (image : List Byte) (c : Cage) : CageSettings :=
  let flags := byteAt image (46 + 3 * c.val)
  let pinned := flags.getLsbD 6
  { enabled := flags.getLsbD 7, pinned := pinned,
    level := pinnedLevel pinned (clampNat 0 31 (byteAt image (47 + 3 * c.val)).toNat),
    maxWatts := clampNat 1 100 (byteAt image (48 + 3 * c.val)).toNat }

/-- The parameter set built from a read that passes its check (R183). -/
def imageSettings (image : List Byte) : Settings :=
  let suppress := clampNat 1 16383 (imageWord image 28)
  let reuse := clampNat 1 16383 (imageWord image 30)
  let polarity := byteAt image 45
  { budget := imageWord image 4,
    unknownAllow := clampNat 0 4095 (imageWord image 6),
    population := BitVec.ofNat 32 (imageWord image 8 * 65536 + imageWord image 10),
    announce := clampNat 50 1000 (imageWord image 12),
    window := clampNat 5 100 (byteAt image 14).toNat,
    surgeFactor := clampNat 16 64 (byteAt image 15).toNat,
    debounce := clampNat 50 2000 (imageWord image 16),
    readyTimeout := clampNat 500 10000 (imageWord image 18),
    settleTimeout := clampNat 1000 60000 (imageWord image 20),
    trainTimeout := clampNat 5000 60000 (imageWord image 22),
    verifyTime := clampNat 500 10000 (imageWord image 24),
    flapIncrement := clampNat 1 8000 (imageWord image 26),
    suppress := if suppress ≤ reuse then 3000 else suppress,
    reuse := if suppress ≤ reuse then 750 else reuse,
    decayShift := clampNat 2 10 (byteAt image 32).toNat,
    tolerance := clampNat 1 32 (byteAt image 33).toNat,
    decayPeriod := clampNat 250 5000 (imageWord image 34),
    reseatSeconds := clampNat 0 3600 (imageWord image 36),
    darkFloor := clampNat 1 1000 (imageWord image 38),
    currentScale := clampNat 1 1023 (imageWord image 40),
    supervisor := BitVec.ofNat 5 (clampNat 0 31 (byteAt image 42).toNat),
    supervisorMask := BitVec.ofNat 5 (byteAt image 43).toNat,
    captureMask := byteAt image 44,
    resetHigh := polarity.getLsbD 0,
    lowPowerHigh := polarity.getLsbD 1,
    portAdmitHigh := polarity.getLsbD 2,
    cages := Vector.ofFn (imageCage image) }

/-- The chassis surge budget of a profile (Table 10-3). -/
def profileBudget (profile : Fin 4) : Nat := 2000 * 2 ^ profile.val

/-- The profile default set (R184). -/
def profileSettings (profile : Fin 4) : Settings :=
  { budget := profileBudget profile,
    unknownAllow := profileBudget profile / 10,
    population := BitVec.allOnes 32,
    announce := 200, window := 20, surgeFactor := 24, debounce := 500, readyTimeout := 2000,
    settleTimeout := 10000, trainTimeout := 30000, verifyTime := 3000, flapIncrement := 1000,
    suppress := 3000, reuse := 750, decayShift := 6, tolerance := 4, decayPeriod := 1000,
    reseatSeconds := 600, darkFloor := 50, currentScale := 40, supervisor := 31,
    supervisorMask := 0, captureMask := 0xFF, resetHigh := false, lowPowerHigh := true,
    portAdmitHigh := true,
    cages := Vector.replicate 16 { enabled := true, pinned := false, level := 16, maxWatts := 40 } }

end Sys2Proof.Machine
end

