-- ==== Sys2Proof/Machine/Ops.lean ====
section
/-! DEFINITION. The named operations over the state that every block uses: reading and changing one
cage's, peer's or segment's record, the configuration in force, saturating arithmetic, station time,
the order the spec leaves open, and the classes of cage states. -/

namespace Sys2Proof.Machine

/-! ### Records by number -/

/-- A vector with the record at one index changed. -/
def modifyAt {α : Type} {n : Nat} (v : Vector α n) (i : Fin n) (f : α → α) : Vector α n :=
  v.set i (f v[i])

/-- The sequencer's record of a cage, changed. -/
def State.updCage (s : State) (c : Cage) (f : CageRecord → CageRecord) : State :=
  { s with cages := modifyAt s.cages c f }

/-- The line block's record of a cage, changed. -/
def State.updLines (s : State) (c : Cage) (f : CageLines → CageLines) : State :=
  { s with lines := modifyAt s.lines c f }

/-- The claim record of a cage, changed. -/
def State.updClaim (s : State) (c : Cage) (f : Claim → Claim) : State :=
  { s with claims := { s.claims with claims := modifyAt s.claims.claims c f } }

/-- The penalty record of a cage, changed. -/
def State.updPenalty (s : State) (c : Cage) (f : CagePenalty → CagePenalty) : State :=
  { s with penalties := { s.penalties with cages := modifyAt s.penalties.cages c f } }

/-- The scan record of a cage, changed. -/
def State.updScan (s : State) (c : Cage) (f : CageScan → CageScan) : State :=
  { s with scan := { s.scan with cages := modifyAt s.scan.cages c f } }

/-- A segment's scanner, changed. -/
def State.updScanner (s : State) (g : Seg) (f : Scanner → Scanner) : State :=
  { s with scan := { s.scan with scanners := modifyAt s.scan.scanners g f } }

/-- A segment's arbiter, changed. -/
def State.updLink (s : State) (g : Seg) (f : Link → Link) : State :=
  { s with links := modifyAt s.links g f }

/-- A peer entry, changed. -/
def State.updPeer (s : State) (n : Station) (f : PeerEntry → PeerEntry) : State :=
  { s with peers := modifyAt s.peers n f }

/-- The start-up block's record, changed. -/
def State.updStartup (s : State) (f : Startup → Startup) : State := { s with startup := f s.startup }

/-- The bus interface's record, changed. -/
def State.updBus (s : State) (f : BusUnit → BusUnit) : State := { s with bus := f s.bus }

/-- The claim unit's record, changed. -/
def State.updClaims (s : State) (f : ClaimUnit → ClaimUnit) : State :=
  { s with claims := f s.claims }

/-- The sequencer's record of a cage (Table 1-2). -/
def State.cage (s : State) (c : Cage) : CageRecord := s.cages[c]

/-- The line block's record of a cage (Table 7-1). -/
def State.line (s : State) (c : Cage) : CageLines := s.lines[c]

/-- The claim record of a cage (Table 2-1). -/
def State.claim (s : State) (c : Cage) : Claim := s.claims.claims[c]

/-- The penalty record of a cage (Table 4-1). -/
def State.penalty (s : State) (c : Cage) : CagePenalty := s.penalties.cages[c]

/-- The scan record of a cage (R134, R145). -/
def State.cageScan (s : State) (c : Cage) : CageScan := s.scan.cages[c]

/-- A segment's scanner (Table 6-1). -/
def State.scanner (s : State) (g : Seg) : Scanner := s.scan.scanners[g]

/-- A segment's arbiter (Table 5-1). -/
def State.link (s : State) (g : Seg) : Link := s.links[g]

/-- A peer entry (Table 2-3). -/
def State.peer (s : State) (n : Station) : PeerEntry := s.peers[n]

/-! ### Cages, segments, configuration -/

/-- The cages in ascending order. -/
def allCages : List Cage := List.finRange 16

/-- The segment of a cage (spec/00_scope.md section 3.2). -/
def segOf (c : Cage) : Seg := if c.val < 8 then 0 else 1

/-- The slot of a cage in its segment's arbiter (Table 5-1). -/
def slotIx (c : Cage) : Fin 8 := Fin.ofNat 8 c.val

/-- The cages of a segment in ascending order. -/
def segCages (g : Seg) : List Cage := allCages.filter (fun c => segOf c = g)

/-- The configuration in force: the loaded one; the profile's defaults while none is loaded, which
nothing acts on but the polarity (R155). -/
def State.conf (s : State) : Settings :=
  match s.startup.settings with
  | some k => k
  | none => profileSettings s.startup.profile

/-- A cage's entry of the configuration. -/
def State.cageConf (s : State) (c : Cage) : CageSettings := s.conf.cages[c]

/-! ### Arithmetic -/

/-- An increment that stops at the upper end (spec/00_scope.md section 4.2). -/
def satAdd (top a b : Nat) : Nat := min top (a + b)

/-- The difference of two station times, modulo 2^32 (spec/00_scope.md section 4.3). -/
def timeSince (now past : StationTime) : Nat := (now - past).toNat

/-! ### Order the spec leaves open (log entry 1) -/

/-- Puts an item into a list ordered by key. -/
def insertByKey {α : Type} (key : α → Nat) (x : α) : List α → List α
  | [] => [x]
  | y :: ys => if key x ≤ key y then x :: y :: ys else y :: insertByKey key x ys

/-- A list ordered by key, equal keys in their given order. -/
def sortByKey {α : Type} (key : α → Nat) : List α → List α
  | [] => []
  | x :: xs => insertByKey key x (sortByKey key xs)

/-- Cages in the order in which one event takes them where the spec takes them in either order
(R173): a free value of the event. -/
def State.openOrder (s : State) (cs : List Cage) : List Cage :=
  sortByKey (fun c => Config.orderKey s.openChoices c.val) cs

/-- The next choice of order is another one. -/
def State.nextChoice (s : State) : State := { s with openChoices := s.openChoices + 1 }

/-! ### Classes of cage states -/

/-- The powered states (R1). -/
def CageState.powered : CageState → Bool
  | .powerUp | .lightSettle | .train | .verify | .inService | .holdDown | .relight
  | .darkWait => true
  | .disabled | .vacant | .debounce | .identify | .admitWait | .faulted | .manualHold
  | .adopt => false

/-- The settling class of the rota (R135). -/
def CageState.settling : CageState → Bool
  | .lightSettle | .relight => true
  | _ => false

/-- The line pattern the sequencer requests for a state (Table 1-1); none for ADOPT. -/
def CageState.pattern : CageState → Option Levels
  | .disabled | .vacant | .debounce | .faulted | .manualHold => some ⟨true, true, false⟩
  | .identify | .admitWait => some ⟨false, true, false⟩
  | .powerUp | .lightSettle | .train | .verify | .holdDown | .relight | .darkWait =>
    some ⟨false, false, false⟩
  | .inService => some ⟨false, false, true⟩
  | .adopt => none

/-- Whether a state's pattern asserts RESET (R8). -/
def CageState.assertsReset (st : CageState) : Bool :=
  match st.pattern with
  | some p => p.reset
  | none => false

/-- The drive source the sequencer names for a state (R1); none for ADOPT. -/
def CageState.names : CageState → Option NamedSource
  | .disabled | .manualHold => some .forced
  | .adopt => none
  | _ => some .sequencer

/-- Whether a timer is running. -/
def Timer.running (t : Timer) : Bool := t.isSome

/-- A timer after one ms more: one that runs counts down and stands at 0 until its expiry is taken
(log entry 5). -/
def Timer.countDown (t : Timer) : Timer := t.map (· - 1)

end Sys2Proof.Machine
end

