-- ==== Sys2Proof/Machine/Flags.lean ====
section
/-! DEFINITION. The verdicts and flags that the blocks compute: lane stability (R144), draw, overdraw
and draw-settled (R146 to R148), suppression and reuse (R103, R108), decay (R107), power bands (R176),
bus health (R97), seniority (R56). -/

namespace Sys2Proof.Machine

/-- Whether a lane's window is stable (R144): 4 values, a mean at or above the dark floor, and a
spread within the tolerance. -/
def windowStable (darkFloor tolerance : Nat) (window : List Nat) : Bool :=
  window.length = 4 &&
  let mean := window.sum / 4
  darkFloor ≤ mean &&
  (window.foldl max 0 - window.foldl min 65535) * 64 ≤ mean * tolerance

/-- The lane stability verdict: every lane 0 to n − 1 is stable (R144). -/
def lanesStable (k : Settings) (lanes : Nat) (windows : Vector (List Nat) 8) : Bool :=
  (List.range (min lanes 8)).all
    (fun i => windowStable k.darkFloor k.tolerance ((windows.toList).getD i []))

/-- A window with one more value, the oldest dropped from a full one (R143). -/
def windowAdd (window : List Nat) (value : Nat) : List Nat :=
  (if window.length < 4 then window else window.drop 1) ++ [value]

/-- The entry a conversion's code makes (R146). -/
def drawOfCode (scale : Nat) (code : BitVec 10) : Draw :=
  { value := code.toNat * scale / 256, saturated := code.toNat = 1023 }

/-- A draw history with one more entry (R145). -/
def historyAdd (history : List Draw) (d : Draw) : List Draw :=
  (if history.length < 4 then history else history.drop 1) ++ [d]

/-- The overdraw limit of a powered state (R147): d in POWER-UP and LIGHT-SETTLE, Pm + floor(Pm / 8)
in the others. -/
def overdrawLimit (st : CageState) (id : Identity) : Nat :=
  match st with
  | .powerUp | .lightSettle => id.draw
  | _ => id.pm + id.pm / 8

/-- Whether an entry counts as above a limit (R146, R147). -/
def Draw.above (d : Draw) (limit : Nat) : Bool := d.saturated || limit < d.value

/-- The draw-settled verdict (R148). -/
def drawSettled (pm : Nat) (history : List Draw) : Bool :=
  history.length = 4 && history.all (fun d => !d.above pm)

/-- The decrement of a decay tick (R107). -/
def decayStep (shift penalty : Nat) : Nat :=
  if penalty = 0 then 0 else penalty - max 1 (penalty / 2 ^ shift)

/-- The power band of a power in µW (R176, Table 9-4). -/
def powerBand (p : Nat) : Nat := if p < 8 then 0 else Nat.log2 p - 2

/-- The bus health that the counts decide (R97). -/
def healthAfterCounts (health : BusHealth) (txErrors rxErrors : Nat) : BusHealth :=
  match health with
  | .active =>
    if 160 ≤ txErrors then .silent
    else if 64 ≤ txErrors ∨ 64 ≤ rxErrors then .cautious else .active
  | .cautious =>
    if 160 ≤ txErrors then .silent
    else if txErrors < 64 ∧ rxErrors < 64 then .active else .cautious
  | .silent => .silent
  | .recovering => .recovering

/-- Whether the health lets the part drive the bus (R91, R99, R100). -/
def BusHealth.drives : BusHealth → Bool
  | .active | .cautious => true
  | .silent | .recovering => false

/-- Whether the pair (level, station) of one intent is senior to that of another (R56). -/
def seniorTo (level : Nat) (station : Station) (level' : Nat) (station' : Station) : Bool :=
  level < level' || (level = level' && station.val < station'.val)

/-- Whether a REQUEST's source matches (R88): it agrees with the supervisory station number in every
bit position the mask selects. -/
def sourceMatches (k : Settings) (source : Station) : Bool :=
  (BitVec.ofNat 5 source.val &&& k.supervisorMask) = (k.supervisor &&& k.supervisorMask)

/-- The surge draw d = ceil(Pm × K / 16), clamped to 1 to 4095 (R17). -/
def surgeDraw (pm surgeFactor : Nat) : Nat := clampNat 1 4095 ((pm * surgeFactor + 15) / 16)

end Sys2Proof.Machine
end

