-- ==== Sys2Proof/Machine/Lines.lean ====
section
/-! DEFINITION. The cage line block (spec/07): the input filters, the drive sources and the levels at
the pins. -/

namespace Sys2Proof.Machine

/-- Asserted / asserted / off, what HELD and FORCED put on the lines (R156, R158). -/
def heldLevels : Levels := ⟨true, true, false⟩

/-- The levels a cage's output lines carry under the source in force (R156 to R158). -/
def outputLevels (lines : CageLines) (st : CageState) : Levels :=
  match lines.source with
  | .held => heldLevels
  | .forced => heldLevels
  | .latched => lines.latched.getD heldLevels
  | .sequencer => st.pattern.getD heldLevels

/-- The levels a cage's output lines carry. -/
def State.outputs (s : State) (c : Cage) : Levels := outputLevels (s.line c) (s.cage c).state

/-- The levels at a cage's output pins, high as `true`, in the polarity in force (R155). -/
def State.pins (s : State) (c : Cage) : Levels :=
  let o := s.outputs c
  ⟨o.reset == s.conf.resetHigh, o.lowPower == s.conf.lowPowerHigh,
   o.portAdmit == s.conf.portAdmitHigh⟩

/-- Whether the pins have full drive, which they take when the configuration is loaded (R155). -/
def State.fullDrive (s : State) : Bool := s.startup.settings.isSome

/-- The drive source a named source stands for. -/
def NamedSource.source : NamedSource → DriveSource
  | .forced => .forced
  | .sequencer => .sequencer

/-- A naming of a source by the sequencer (R156 to R158): under HELD it changes the named source
only, otherwise the named source comes into force and LATCHED, if it was set, is lifted. -/
def CageLines.take (n : NamedSource) (l : CageLines) : CageLines :=
  match l.source with
  | .held => { l with named := some n }
  | .latched | .forced | .sequencer =>
    { l with source := n.source, named := some n, latched := none }

/-- The sequencer names the source of a state it enters (R1). -/
def nameSource (c : Cage) (st : CageState) (s : State) : State :=
  match st.names with
  | some n => s.updLines c (CageLines.take n)
  | none => s

/-- HELD lifted: the named source comes into force (R156). -/
def CageLines.lift (l : CageLines) : CageLines :=
  match l.source, l.named with
  | .held, some n => { l with source := n.source }
  | _, _ => l

/-- A cage's lines at a Restart: LATCHED at the levels they carry, with no source named (R157). -/
def latchLines (c : Cage) (s : State) : State :=
  let levels := s.outputs c
  s.updLines c (fun l => { l with source := .latched, named := none, latched := some levels })

/-- A change of the raw PRESENT line (R152): away from the taken level the hold timer starts for
10 ms, back to it the timer stops. -/
def CageLines.presentChange (level : Bool) (l : CageLines) : CageLines :=
  { l with
    presentRaw := level,
    presentHold := if level = l.present then none
                   else match l.presentHold with
                     | some t => some t
                     | none => some 10 }

/-- A change of the raw LINK_UP line (R153), with a hold time of 1 ms. -/
def CageLines.linkChange (level : Bool) (l : CageLines) : CageLines :=
  { l with
    linkRaw := level,
    linkHold := if level = l.link then none
                else match l.linkHold with
                  | some t => some t
                  | none => some 1 }

/-- The PRESENT hold timer expires: the taken level becomes the raw level (R152). -/
def CageLines.presentTaken (l : CageLines) : CageLines :=
  { l with present := l.presentRaw, presentHold := none }

/-- The LINK_UP hold timer expires: the taken level becomes the raw level (R153). -/
def CageLines.linkTaken (l : CageLines) : CageLines :=
  { l with link := l.linkRaw, linkHold := none }

/-- The filters take the lines afresh at the release of a reset (R151): a raw level away from the
taken one starts its hold timer. -/
def CageLines.startFilters (l : CageLines) : CageLines :=
  (l.presentChange l.presentRaw).linkChange l.linkRaw

end Sys2Proof.Machine
end

