-- ==== Sys2Proof/Machine/Events.lean ====
section
/-! DEFINITION. The event unit (spec/09): making a record, its snapshot, and reading one out. -/

namespace Sys2Proof.Machine

/-- The snapshot a sample record gives at a station time (R176). -/
def snapshotOf (now : StationTime) (r : Sample) : Snapshot :=
  { temperature := r.temperature, supply := r.supply, lanes := r.lanes,
    bands := r.entries.map (fun e => (powerBand e.txPower, powerBand e.rxPower)),
    draw := r.draw, age := min 65535 (timeSince now r.time) }

/-- A history with a record at its front, at most 4 kept (R174). -/
def historyPush (r : EventRecord) (h : List EventRecord) : List EventRecord := (r :: h).take 4

/-- The snapshot of a record of a kind made for a cage at this event (R175). -/
def snapshotFor (s : State) (c : Cage) (kind : EventKind) : Option Snapshot :=
  if s.conf.captureMask.getLsbD kind.code then
    (s.cageScan c).sample.map (snapshotOf s.startup.stationTime)
  else none

/-- The record the event unit completes for a cage (R173). -/
def recordFor (s : State) (c : Cage) (kind : EventKind) (before : CageState)
    (cause : Option FaultCause) : EventRecord :=
  { sequence := s.events.nextSequence, time := s.startup.stationTime, kind := kind,
    before := before, cause := cause, penalty := (s.penalty c).value,
    snapshot := snapshotFor s c kind }

/-- The sequencer hands on a record: it is numbered, stamped and put at the front of its cage's
history (R173, R174). -/
def handRecord (c : Cage) (kind : EventKind) (before : CageState) (cause : Option FaultCause)
    (s : State) : State :=
  { s with events :=
    { histories := modifyAt s.events.histories c (historyPush (recordFor s c kind before cause)),
      nextSequence := (s.events.nextSequence + 1) % 65536 } }

/-- The bytes of a 32-bit station time, most significant first (R177). -/
def timeBytes (t : StationTime) : List Byte :=
  let n := t.toNat
  [byteOf (n / 16777216), byteOf (n / 65536), byteOf (n / 256), byteOf n]

/-- A temperature in two's complement as a 16-bit number (R177). -/
def twosComplement (t : Int) : Nat := (BitVec.ofInt 16 t).toNat

/-- The byte of a lane in parts 4 and 5; 0 for a lane at or above the snapshot's n (R177). -/
def bandByte (snap : Snapshot) (i : Nat) : Byte :=
  match snap.bands[i]? with
  | some b => nibbles b.1 b.2
  | none => 0

/-- The draw bytes of part 3: bit 7 snapshot present, bit 6 draw present, bit 5 saturated, bits 3 to
0 the draw's bits 11 to 8, then its bits 7 to 0 (Table 9-5). -/
def drawBytes (draw : Option Draw) : List Byte :=
  match draw with
  | some d =>
    [byteOf (128 + 64 + (if d.saturated then 32 else 0) + d.value / 256), lowByte d.value]
  | none => [128, 0]

/-- The four bytes of a part of a record (Table 9-5). -/
def recordPart (r : EventRecord) (part : Nat) : List Byte :=
  match part with
  | 0 => timeBytes r.time
  | 1 =>
    [nibbles r.kind.code r.before.code,
     nibbles ((r.cause.map FaultCause.code).getD 0) ((r.snapshot.map Snapshot.lanes).getD 0),
     highByte r.penalty, lowByte r.penalty]
  | 2 =>
    match r.snapshot with
    | some p =>
      [highByte (twosComplement p.temperature), lowByte (twosComplement p.temperature),
       highByte p.supply, lowByte p.supply]
    | none => [0, 0, 0, 0]
  | 3 =>
    match r.snapshot with
    | some p => drawBytes p.draw ++ [highByte p.age, lowByte p.age]
    | none => [0, 0, 0, 0]
  | 4 =>
    match r.snapshot with
    | some p => [bandByte p 0, bandByte p 1, bandByte p 2, bandByte p 3]
    | none => [0, 0, 0, 0]
  | _ =>
    match r.snapshot with
    | some p => [bandByte p 4, bandByte p 5, bandByte p 6, bandByte p 7]
    | none => [0, 0, 0, 0]

/-- The data of a READ-EVENT reply: the sequence number and four bytes of the record, or nothing
where the history holds no record at the index (R177). -/
def eventData (s : State) (c : Cage) (index part : Nat) : List Byte :=
  match s.events.histories[c][index]? with
  | some r => [highByte r.sequence, lowByte r.sequence] ++ recordPart r part
  | none => []

end Sys2Proof.Machine
end

