-- ==== Sys2Proof/Machine/Penalty.lean ====
section
/-! DEFINITION. The penalty unit (spec/04): flaps, decay, reuse and the reseat memory. -/

namespace Sys2Proof.Machine

/-- A flap raises the penalty by F, saturating at 16383 (R103). -/
def flapPenalty (c : Cage) (s : State) : State :=
  s.updPenalty c (fun p => { p with value := satAdd 16383 p.value s.conf.flapIncrement })

/-- The suppress verdict: whether a penalty is at or above S (R103). -/
def State.suppressed (s : State) (c : Cage) : Bool := s.conf.suppress ≤ (s.penalty c).value

/-- The last-module record a removal writes, with the penalty and the station time of the event
(R109). -/
def storeRemoval (c : Cage) (serial : List Byte) (s : State) : State :=
  s.updPenalty c (fun p =>
    { p with lastModule := some ⟨serial, p.value, s.startup.stationTime, false⟩ })

/-- The limit of the time since removal, in station time units (R110). -/
def State.reseatLimit (s : State) : Nat := 100 * s.conf.reseatSeconds

/-- The penalty an identification leaves, by the first line of Table 4-2 that applies (R111). -/
def reseatPenalty (now : StationTime) (limit : Nat) (serial : List Byte) (p : CagePenalty) : Nat :=
  match p.lastModule with
  | none => p.value
  | some m =>
    if m.stale then 0
    else if m.serial = serial ∧ timeSince now m.removed ≤ limit then m.stored / 2
    else 0

/-- The reseat memory applied at an identification; the record is consumed (R111). -/
def applyReseat (c : Cage) (serial : List Byte) (s : State) : State :=
  s.updPenalty c (fun p =>
    { value := reseatPenalty s.startup.stationTime s.reseatLimit serial p, lastModule := none })

/-- A penalty and its stored penalty cleared (R113). -/
def zeroPenalty (c : Cage) (s : State) : State :=
  s.updPenalty c (fun p =>
    { value := 0, lastModule := p.lastModule.map (fun m => { m with stored := 0 }) })

/-- A last-module record examined at a decay tick: stale once the time since removal exceeds the
limit (R110). -/
def markStale (now : StationTime) (limit : Nat) (m : LastModule) : LastModule :=
  { m with stale := m.stale || limit < timeSince now m.removed }

/-- Every penalty lowered (R107) and every last-module record examined (R110). -/
def decayPenalties (s : State) : State :=
  { s with penalties := { s.penalties with cages := s.penalties.cages.map (fun p =>
      { value := decayStep s.conf.decayShift p.value,
        lastModule := p.lastModule.map (markStale s.startup.stationTime s.reseatLimit) }) } }

end Sys2Proof.Machine
end

