-- ==== Sys2Proof/Machine/Bus.lean ====
section
/-! DEFINITION. The bus interface (spec/03): the transmit queue and its room rule, reports, the
choice of the next frame, the counts and the bus health. -/

namespace Sys2Proof.Machine

/-! ### Frames of the transmit queue -/

/-- A frame as it enters the queue. -/
def newFrame (level : Nat) (body : FrameBody) : TxFrame :=
  { level := level, body := body, mark := .waiting, followOn := none }

/-- Whether a body is a CAGE-REPORT. -/
def FrameBody.isReport : FrameBody → Bool
  | .cageReport _ => true
  | _ => false

/-- Whether a body is a CAGE-REPORT of a cage. -/
def FrameBody.isReportOf (c : Cage) : FrameBody → Bool
  | .cageReport r => r.cage = c
  | _ => false

/-- Whether a body is an INTENT. -/
def FrameBody.isIntent : FrameBody → Bool
  | .intent .. => true
  | _ => false

/-- Whether a body is the INTENT with a tag. -/
def FrameBody.isIntentOf (tag : Tag) : FrameBody → Bool
  | .intent _ t _ => t = tag
  | _ => false

/-- Whether a body is a RELEASE. -/
def FrameBody.isRelease : FrameBody → Bool
  | .release _ => true
  | _ => false

/-- Whether a body is a STATUS. -/
def FrameBody.isStatus : FrameBody → Bool
  | .status _ => true
  | _ => false

/-- Whether a body is a REPLY. -/
def FrameBody.isReply : FrameBody → Bool
  | .reply .. => true
  | _ => false

/-- The tag of a CONFIRM or WITHDRAW. -/
def FrameBody.answerTag : FrameBody → Option Tag
  | .confirm t _ => some t
  | .withdraw t _ => some t
  | _ => none

/-- The precedence value of a frame of the part with a station number (spec/03 section 3.2). -/
def TxFrame.value (station : Station) (f : TxFrame) : Nat :=
  precedenceValue f.body.classNo f.level station

/-- Whether some frame of the queue with a mark satisfies a test. -/
def holds (q : List TxFrame) (mark : TxMark) (test : FrameBody → Bool) : Bool :=
  q.any (fun f => decide (f.mark = mark) && test f.body)

/-! ### Room (R92) -/

/-- The index of the waiting CAGE-REPORT with the highest precedence value, of two at one value the
more recently queued (R92); `i` is the index of the list's head and `best` the best before it, with
its level. -/
def worstReport (i : Nat) (best : Option (Nat × Nat)) : List TxFrame → Option Nat
  | [] => best.map Prod.fst
  | f :: fs =>
    if f.mark = .waiting ∧ f.body.isReport = true then
      match best with
      | some (_, level) =>
        if level ≤ f.level then worstReport (i + 1) (some (i, f.level)) fs
        else worstReport (i + 1) best fs
      | none => worstReport (i + 1) (some (i, f.level)) fs
    else worstReport (i + 1) best fs

/-- The report-drop count raised (R92). -/
def BusUnit.countDrop (b : BusUnit) : BusUnit := { b with reportDrop := satAdd 65535 b.reportDrop 1 }

/-- A frame that is not a CAGE-REPORT takes a new place, a waiting report making room in a full queue
(R92).  Where a full queue holds no waiting report, which R92 shows never happens, the frame is not
queued (log entry 6). -/
def BusUnit.place (b : BusUnit) (f : TxFrame) : BusUnit :=
  if b.txQueue.length < 8 then { b with txQueue := b.txQueue ++ [f] }
  else
    match worstReport 0 none b.txQueue with
    | some i => { b.countDrop with txQueue := b.txQueue.eraseIdx i ++ [f] }
    | none => b

/-- A new frame, not a CAGE-REPORT, handed to the bus interface. -/
def queueFrame (level : Nat) (body : FrameBody) (s : State) : State :=
  s.updBus (fun b => b.place (newFrame level body))

/-! ### Reports (R90) -/

/-- A report takes the place of the waiting one of its cage, which keeps its queue time (R90). -/
def replaceReport (r : CageReport) (level : Nat) (f : TxFrame) : TxFrame :=
  if f.mark = .waiting ∧ f.body.isReportOf r.cage = true then
    { f with body := .cageReport r, level := level }
  else f

/-- A report is kept as the follow-on of the one of its cage under attempt (R90). -/
def keepFollowOn (r : CageReport) (level : Nat) (f : TxFrame) : TxFrame :=
  if f.mark = .attempting ∧ f.body.isReportOf r.cage = true then
    { f with followOn := some ⟨r, level⟩ }
  else f

/-- The bus interface takes a CAGE-REPORT at a level (R90, R92).  A report that a Restart left under
attempt (R74) takes no follow-on: a new one is queued beside it (DESIGN CHOICE, log entry 35). -/
def BusUnit.report (b : BusUnit) (r : CageReport) (level : Nat) : BusUnit :=
  if holds b.txQueue .waiting (FrameBody.isReportOf r.cage) then
    { b with txQueue := b.txQueue.map (replaceReport r level) }
  else if holds b.txQueue .attempting (FrameBody.isReportOf r.cage) then
    { b with txQueue := b.txQueue.map (keepFollowOn r level) }
  else if b.txQueue.length < 8 then
    { b with txQueue := b.txQueue ++ [newFrame level (.cageReport r)] }
  else b.countDrop

/-- The sequencer hands on a CAGE-REPORT for a cage in its present state: the cause is the fault
cause in FAULTED and NONE elsewhere, the penalty and the level those of the event (R3, R90). -/
def handReport (c : Cage) (s : State) : State :=
  let k := s.cage c
  let cause := if k.state = .faulted then k.cause else .none
  s.updBus (fun b => b.report ⟨c, k.state, cause, (s.penalty c).value⟩ (s.claim c).level)

/-! ### RELEASE (R44, R85) -/

/-- A RELEASE of a mark set to an amount. -/
def setRelease (mark : TxMark) (amount : Nat) (f : TxFrame) : TxFrame :=
  if f.mark = mark ∧ f.body.isRelease = true then { f with body := .release amount } else f

/-- The RELEASE of the transmit queue after the release-pending amount has become `amount` (R44,
R85): a waiting one carries the whole of it, one under attempt stays as it is, and where there is
none a new one is queued.  One that a Restart left under attempt (R74) does not count
(DESIGN CHOICE, log entry 35). -/
def BusUnit.releaseUp (b : BusUnit) (amount : Nat) : BusUnit :=
  if holds b.txQueue .waiting FrameBody.isRelease then
    { b with txQueue := b.txQueue.map (setRelease .waiting amount) }
  else if holds b.txQueue .attempting FrameBody.isRelease then b
  else b.place (newFrame 0 (.release amount))

/-! ### STATUS (R86) -/

/-- The content of a STATUS that has not been attempted: it is taken at each attempt (R87), and none
of this is ever sent. -/
def blankStatus : FrameBody := .status ⟨0, [], .loading, .active, 0⟩

/-- The STATUS of an announce tick: queued, already waiting, or marked for renewal (R86).  One that a
Restart left under attempt (R74) is not marked: a new one is queued beside it (DESIGN CHOICE, log
entry 35). -/
def BusUnit.tickStatus (b : BusUnit) : BusUnit :=
  if holds b.txQueue .waiting FrameBody.isStatus then b
  else if holds b.txQueue .attempting FrameBody.isStatus then { b with statusRenew := true }
  else b.place (newFrame 31 blankStatus)

/-! ### The choice of the next frame (R91) -/

/-- Whether a frame is eligible in a bus health (R91). -/
def TxFrame.eligible (health : BusHealth) (f : TxFrame) : Bool :=
  match health with
  | .active => true
  | .cautious => !f.body.isReport
  | .silent => false
  | .recovering => false

/-- The index of the eligible frame of lowest precedence value, of equal ones the oldest (R91); `i`
is the index of the list's head and `best` the best before it, with its value. -/
def bestFrame (station : Station) (health : BusHealth) (i : Nat) (best : Option (Nat × Nat)) :
    List TxFrame → Option Nat
  | [] => best.map Prod.fst
  | f :: fs =>
    if f.eligible health then
      match best with
      | some (_, v) =>
        if f.value station < v then
          bestFrame station health (i + 1) (some (i, f.value station)) fs
        else bestFrame station health (i + 1) best fs
      | none => bestFrame station health (i + 1) (some (i, f.value station)) fs
    else bestFrame station health (i + 1) best fs

/-- The index of the frame under attempt, whether the part's own or detached by a Restart (R74). -/
def attemptIx (q : List TxFrame) : Option Nat := q.findIdx? (fun f => decide (f.mark ≠ .waiting))

/-- The frame under attempt, as it is sent (R78). -/
def State.onWire (s : State) : Option RawFrame :=
  match s.bus.txQueue.find? (fun f => decide (f.mark ≠ .waiting)) with
  | some f => some (encodeFrame ⟨s.startup.station, f.level, f.body⟩)
  | none => none

/-! ### Counts and health (R96, R97) -/

/-- Whether the counts move: not in SILENT and RECOVERING (R96). -/
def BusUnit.counts (b : BusUnit) : Bool := b.health.drives

/-- The transmit error count after an attempt that ended by an error (R96). -/
def BusUnit.txFailed (b : BusUnit) : BusUnit :=
  if b.counts then { b with txErrors := satAdd 160 b.txErrors 4 } else b

/-- The transmit error count after a good receipt (R96). -/
def BusUnit.txGood (b : BusUnit) : BusUnit :=
  if b.counts then { b with txErrors := b.txErrors - 1 } else b

/-- The receive error count after a receive error (R96). -/
def BusUnit.rxFailed (b : BusUnit) : BusUnit :=
  if b.counts then { b with rxErrors := satAdd 127 b.rxErrors 1 } else b

/-- The receive error count after a good reception (R96). -/
def BusUnit.rxGood (b : BusUnit) : BusUnit :=
  if b.counts then { b with rxErrors := b.rxErrors - 1 } else b

/-- The health after a change of a count (R97). -/
def BusUnit.judged (b : BusUnit) : BusUnit :=
  { b with health := healthAfterCounts b.health b.txErrors b.rxErrors }

/-- The error detected becomes the last bus error (R79, R101). -/
def BusUnit.noteError (e : BusError) (b : BusUnit) : BusUnit := { b with lastError := e }

/-- RECOVERING ends in ACTIVE with both error counts at 0 (R100). -/
def BusUnit.recovered (b : BusUnit) : BusUnit :=
  { b with health := .active, txErrors := 0, rxErrors := 0 }

/-- The bus interface at a Restart (R74): the values of Table 3-1, with the announce timer started,
and a frame under attempt staying, detached, until its attempt ends.  No STATUS has been sent since (R188). -/
def BusUnit.atRestart (period : Nat) (b : BusUnit) : BusUnit :=
  { resetBus with
    txQueue := (b.txQueue.filter (fun f => decide (f.mark ≠ .waiting))).map
      (fun f => { f with mark := .detached, followOn := none }),
    announce := some period, afterRestart := true }

end Sys2Proof.Machine
end

