-- ==== Sys2Proof/Machine/Claims.lean ====
section
/-! DEFINITION. The claim unit (spec/02): the admission list, the sums, the queue-time test, the
cancellation and disposal of claims, release, Blind and SILENT. -/

namespace Sys2Proof.Machine

/-! ### Own intents and tags (R41, R42) -/

/-- Whether an entry's claim is PENDING: its INTENT has been sent, so its window is open or its
judgement waits (R41). -/
def OwnIntent.sent (e : OwnIntent) : Bool := e.deadline.isSome || e.noted.isSome

/-- The tags of the CONFIRM and WITHDRAW frames that the part's transmit queue holds (R41). -/
def State.answerTags (s : State) : List Tag :=
  s.bus.txQueue.filterMap (fun f => if f.mark = .detached then none else f.body.answerTag)

/-- The open tags: those of the entries, and of the answers still waiting (R41). -/
def State.openTags (s : State) : List Tag := s.claims.intents.map OwnIntent.tag ++ s.answerTags

/-- The open tags a STATUS lists: those whose INTENT has been sent with a good receipt (R65). -/
def State.sentTags (s : State) : List Tag :=
  (s.claims.intents.filter OwnIntent.sent).map OwnIntent.tag ++ s.answerTags

/-- An event of R52 has happened: the queue-time test is to be run at this event. -/
def dueTest (s : State) : State := s.updClaims (fun k => { k with testDue := true })

/-- The entry of an own intent, changed. -/
def updIntent (tag : Tag) (f : OwnIntent → OwnIntent) (s : State) : State :=
  s.updClaims (fun k =>
    { k with intents := k.intents.map (fun e => if e.tag = tag then f e else e) })

/-- The entry of an own intent removed (R41). -/
def dropIntent (tag : Tag) (s : State) : State :=
  s.updClaims (fun k => { k with intents := k.intents.filter (fun e => decide (e.tag ≠ tag)) })

/-- An entry marked withdraw-at-end (R53, R61, R63, R64). -/
def OwnIntent.marked (e : OwnIntent) : OwnIntent := { e with withdrawAtEnd := true }

/-- The claim state of a cage set. -/
def setClaim (c : Cage) (st : ClaimState) (s : State) : State :=
  s.updClaim c (fun k => { k with state := st })

/-! ### The committed total and release (R43 to R45, R62) -/

/-- The d of a confirmed claim goes into the release-pending amount, and the claim to NONE, with the
RELEASE handling of R44. -/
def releaseClaim (c : Cage) (s : State) : State :=
  let amount := s.claims.releasePending + (s.claim c).draw
  ((setClaim c .none s).updClaims (fun k => { k with releasePending := amount })).updBus
    (fun b => b.releaseUp amount)

/-- A RELEASE of an amount has left with a good receipt: the release-pending amount and the committed
total fall by it, and a remainder is queued (R43, R44). -/
def releaseSent (amount : Nat) (s : State) : State :=
  let rest := s.claims.releasePending - amount
  let s := dueTest (s.updClaims (fun k =>
    { k with releasePending := rest, committed := k.committed - amount }))
  if rest = 0 then s else s.updBus (fun b => b.releaseUp rest)

/-- An adopted claim: CONFIRMED with the cage's d, no frame and no judgement (R45).  No limit of its
own is put on the total (R43, log entry 40). -/
def adoptClaim (c : Cage) (draw : Nat) (s : State) : State :=
  (s.updClaim c (fun k => { k with state := .confirmed, draw := draw })).updClaims
    (fun k => { k with committed := k.committed + draw })

/-! ### The admission list (R46 to R49) -/

/-- The key by which the admission list is ordered (R46): effective level first, then list entry
time, the earlier first.  Of two entry times the earlier is the one whose difference to the present
is the larger (log entry 7). -/
def listKey (now : StationTime) (k : Claim) : Nat :=
  k.level * 8589934592 + (4294967296 - timeSince now k.listTime)

/-- The admission list, in order; equal keys by cage number (R46). -/
def State.admissionList (s : State) : List Cage :=
  sortByKey (fun c => listKey s.startup.stationTime (s.claim c))
    (allCages.filter (fun c => (s.claim c).listed))

/-- A cage is handed over on entry to ADMIT-WAIT with its d (R46). -/
def joinList (c : Cage) (draw : Nat) (s : State) : State :=
  dueTest (s.updClaim c (fun k =>
    { k with draw := draw, level := (s.cageConf c).level, withdraws := 0,
             listTime := s.startup.stationTime, listed := true }))

/-- A cage leaves the admission list (R46). -/
def leaveList (c : Cage) (s : State) : State :=
  dueTest (s.updClaim c (fun k =>
    { k with listed := false, backoff := none, withdraws := 0, level := (s.cageConf c).level }))

/-- The candidate (R49). -/
def State.candidate (s : State) : Option Cage :=
  s.admissionList.find? (fun c =>
    let k := s.claim c
    decide (k.state = .none) && k.backoff.isNone && decide (k.level < s.claims.ceiling))

/-! ### The sums (R50, R57) -/

/-- Sums are held in 21 bits and stop at 2097151 (R50). -/
def sumAdd (a b : Nat) : Nat := satAdd 2097151 a b

/-- What a peer entry counts in a sum, given what its pending intents count if it is Present (R50,
R57). -/
def peerTerm (k : Settings) (n : Station) (e : PeerEntry) (counted : PeerIntent → Bool) : Nat :=
  match e.status with
  | .present => e.confirmed + ((e.intents.filter counted).map PeerIntent.draw).sum
  | .aged => max (e.confirmed + (e.intents.map PeerIntent.draw).sum) k.unknownAllow
  | .unknown => if k.population.getLsbD n.val then k.unknownAllow else 0

/-- The sum over the peers; the entry of the part's own number is left out (R50). -/
def State.peerSum (s : State) (start : Nat) (counted : Station → PeerIntent → Bool) : Nat :=
  (List.finRange 32).foldl (fun sum n =>
    if n = s.startup.station then sum
    else sumAdd sum (peerTerm s.conf n (s.peer n) (counted n))) start

/-- The admission sum for a candidate's d (R50). -/
def State.admissionSum (s : State) (draw : Nat) : Nat :=
  let own := (s.claims.intents.map OwnIntent.draw).foldl sumAdd s.claims.committed
  sumAdd (s.peerSum own (fun _ _ => true)) draw

/-- Whether an own PENDING entry is senior to another (R56): the lower level first, and at one level
the one whose window opened first; entries stand in the order in which their windows opened. -/
def ownSenior (e f : OwnIntent) (eFirst : Bool) : Bool :=
  e.level < f.level || (e.level = f.level && eFirst)

/-- The d of the own PENDING entries senior to the entry with a tag (R57); `before` says whether the
entry itself is still to come. -/
def seniorOwn (e : OwnIntent) (before : Bool) : List OwnIntent → Nat
  | [] => 0
  | f :: fs =>
    if f.tag = e.tag then seniorOwn e false fs
    else (if f.sent && ownSenior f e before then f.draw else 0) + seniorOwn e before fs

/-- The confirm sum of an own PENDING entry (R57). -/
def State.confirmSum (s : State) (e : OwnIntent) : Nat :=
  let own := sumAdd s.claims.committed (seniorOwn e true s.claims.intents)
  sumAdd (s.peerSum own (fun n i => seniorTo i.level n e.level s.startup.station)) e.draw

/-! ### The queue-time test (R51, R52) -/

/-- The conditions under which an INTENT is queued for a candidate (R51). -/
def State.testPasses (s : State) (c : Cage) : Bool :=
  decide (s.startup.runState = .running) && !s.claims.blind && s.bus.health.drives &&
  decide (s.openTags.length < 2) && decide (s.admissionSum (s.claim c).draw ≤ s.conf.budget)

/-- An INTENT is queued for a cage with the next tag (R41, R42, R51). -/
def queueIntent (c : Cage) (s : State) : State :=
  let k := s.claim c
  let tag := s.claims.lastTag + 1
  let entry : OwnIntent :=
    { tag := tag, cage := c, draw := k.draw, level := k.level, deadline := none, noted := none,
      withdrawAtEnd := false }
  queueFrame k.level (.intent c tag k.draw)
    ((setClaim c .queued s).updClaims
      (fun u => { u with lastTag := tag, intents := u.intents ++ [entry] }))

/-- The queue-time test, run again for each new candidate after one that passes (R51). -/
def queueTests : Nat → State → State
  | 0, s => s
  | n + 1, s =>
    match s.candidate with
    | some c => if s.testPasses c then queueTests n (queueIntent c s) else s
    | none => s

/-- The queue-time test if an event of R52 has happened.  At most two tags are open, so a third run
in a row always fails. -/
def runDueTest (s : State) : State :=
  if s.claims.testDue then
    queueTests 3 (s.updClaims (fun k => { k with testDue := false }))
  else s

/-! ### Cancellation, disposal, Blind and SILENT (R53, R61 to R64) -/

/-- The waiting INTENT with a tag removed from the transmit queue (R53). -/
def BusUnit.removeIntent (tag : Tag) (b : BusUnit) : BusUnit :=
  let kept := b.txQueue.filter (fun f => !(decide (f.mark = .waiting) && f.body.isIntentOf tag))
  { b with txQueue := kept }

/-- A QUEUED intent is cancelled with its frame removed: the entry goes, the claim is NONE and the
tag is consumed (R53). -/
def cancelIntent (e : OwnIntent) (s : State) : State :=
  dueTest (setClaim e.cage .none (dropIntent e.tag (s.updBus (BusUnit.removeIntent e.tag))))

/-- An entry is to end in a WITHDRAW or a cancellation (R53): a PENDING entry is marked, a QUEUED one
is marked if its INTENT is under attempt, and cancelled if not. -/
def abandonIntent (e : OwnIntent) (s : State) : State :=
  if e.sent || holds s.bus.txQueue .attempting (FrameBody.isIntentOf e.tag) then
    updIntent e.tag OwnIntent.marked s
  else cancelIntent e s

/-- The claim of a cage is disposed of, by the claim state it holds (R61). -/
def disposeClaim (c : Cage) (s : State) : State :=
  match (s.claim c).state with
  | .none => s
  | .confirmed => releaseClaim c s
  | .queued | .pending =>
    match s.claims.intents.find? (fun e => decide (e.cage = c)) with
    | some e => abandonIntent e s
    | none => s

/-- Every own intent is abandoned (R63, R64). -/
def abandonAll (s : State) : State := s.claims.intents.foldl (fun s e => abandonIntent e s) s

/-- A budget frame has been lost: Blind from now for an announce period, and every own intent
abandoned (R63). -/
def enterBlind (s : State) : State :=
  abandonAll (s.updClaims (fun k => { k with blind := true, blindTimer := some s.conf.announce }))

/-- The bus health has become SILENT: queued INTENTs are removed and their claims cancelled, and the
PENDING entries are marked (R64, R94, R99).  No attempt is under way at that event. -/
def enterSilent (s : State) : State := abandonAll s

/-- What the health change of a count's change hands on (R97): SILENT to the claim unit, ACTIVE to
the queue-time test. -/
def healthReport (before : BusHealth) (s : State) : State :=
  if s.bus.health = before then s
  else
    match s.bus.health with
    | .silent => enterSilent s
    | .active => dueTest s
    | .cautious => s
    | .recovering => s

/-- The health evaluated after a change of a count, and the change handed on (R96, R97). -/
def judgeHealth (s : State) : State :=
  healthReport s.bus.health (s.updBus BusUnit.judged)

/-! ### The hand-off of the sequencer (R5) -/

/-- What the sequencer hands the claim unit when a cage moves from one state to another (R5). -/
def claimHandOff (c : Cage) (old new : CageState) (s : State) : State :=
  match old, new with
  | .admitWait, .powerUp => s
  | .admitWait, .admitWait => s
  | .admitWait, _ => disposeClaim c (leaveList c s)
  | .lightSettle, .train => releaseClaim c s
  | .powerUp, .lightSettle => s
  | .powerUp, _ => disposeClaim c s
  | .lightSettle, _ => disposeClaim c s
  | _, .admitWait =>
    match (s.cage c).identity with
    | some id => joinList c id.draw s
    | none => s
  | _, _ => s

/-! ### The content of a STATUS (R65) -/

/-- The d of the CONFIRM frames still waiting in the transmit queue (R65). -/
def State.waitingConfirms (s : State) : Nat :=
  (s.bus.txQueue.map (fun f =>
    match f.body with
    | .confirm _ d => if f.mark = .detached then 0 else d
    | _ => 0)).sum

/-- The number of own cages in IN-SERVICE (R65). -/
def State.inServiceCount (s : State) : Nat :=
  (allCages.filter (fun c => decide ((s.cage c).state = .inService))).length

/-- The run state that a STATUS carries: that of the attempt (R65, R87).  Of the first STATUS after a
Restart R188 says ADOPTING, and which of the two it carries is open (log entry 39). -/
def State.statusRunState (s : State) : RunState :=
  if s.bus.afterRestart && Config.firstStatusAdopting then .adopting else s.startup.runState

/-- The content of a STATUS at the start of an attempt (R65).  The order of its two tags is open
(log entry 1). -/
def State.statusContent (s : State) : StatusContent :=
  { total := s.claims.committed - s.waitingConfirms,
    tags := sortByKey (fun t => Config.orderKey s.openChoices t.val) s.sentTags,
    runState := s.statusRunState, health := s.bus.health, inService := s.inServiceCount }

end Sys2Proof.Machine
end

