-- ==== Sys2Proof/Machine/Peers.lean ====
section
/-! DEFINITION. The peer view (R66 to R73): the effect of each budget frame on its sender's entry,
promotion, and ageing at the announce tick. -/

namespace Sys2Proof.Machine

/-- A confirmed total with an amount added; it saturates at 65520 (R66). -/
def PeerEntry.credit (amount : Nat) (e : PeerEntry) : PeerEntry :=
  { e with confirmed := satAdd 65520 e.confirmed amount }

/-- The pending intent with a tag, if the entry lists one. -/
def PeerEntry.find (tag : Tag) (e : PeerEntry) : Option PeerIntent :=
  e.intents.find? (fun i => decide (i.tag = tag))

/-- The pending intent with a tag removed from the list. -/
def PeerEntry.without (tag : Tag) (e : PeerEntry) : PeerEntry :=
  { e with intents := e.intents.filter (fun i => decide (i.tag ≠ tag)) }

/-- A pending intent promoted: its d goes into the confirmed total and it leaves the list (R68, R71). -/
def PeerEntry.promote (tag : Tag) (e : PeerEntry) : PeerEntry :=
  match e.find tag with
  | some i => (e.credit i.draw).without tag
  | none => e

/-- The oldest pending intent promoted if the list holds 4 (R68). -/
def PeerEntry.makeRoom (e : PeerEntry) : PeerEntry :=
  match e.intents with
  | i :: rest => if 4 ≤ e.intents.length then { e.credit i.draw with intents := rest } else e
  | [] => e

/-- An INTENT applied to a ready entry (R68). -/
def PeerEntry.takeIntent (tag : Tag) (draw level : Nat) (e : PeerEntry) : PeerEntry :=
  let e := (e.promote tag).makeRoom
  { e with intents := e.intents ++ [⟨tag, draw, level, 0⟩] }

/-- A CONFIRM applied to a ready entry (R69): listed or not, its d goes into the confirmed total. -/
def PeerEntry.takeConfirm (tag : Tag) (draw : Nat) (e : PeerEntry) : PeerEntry :=
  (e.without tag).credit draw

/-- A RELEASE applied to a ready entry: a result below 0 is clamped to 0 (R70). -/
def PeerEntry.takeRelease (amount : Nat) (e : PeerEntry) : PeerEntry :=
  { e with confirmed := e.confirmed - amount }

/-- A STATUS applied to a ready entry (R70). -/
def PeerEntry.takeStatus (k : StatusContent) (e : PeerEntry) : PeerEntry :=
  { e with
    confirmed := k.total,
    intents := e.intents.filter (fun i => decide (i.tag ∈ k.tags)),
    runState := some k.runState, health := some k.health }

/-- An entry made ready by a frame (R67). -/
def PeerEntry.ready (unknownAllow : Nat) (isStatus : Bool) (e : PeerEntry) : PeerEntry :=
  { e with
    status := .present, age := 0,
    confirmed := if e.status = .unknown ∧ isStatus = false then unknownAllow else e.confirmed }

/-- A frame's own effect on a ready entry, by kind; frames that are not budget frames have none
(R67 to R70). -/
def PeerEntry.takeBody (level : Nat) (body : FrameBody) (e : PeerEntry) : PeerEntry :=
  match body with
  | .intent _ tag draw => e.takeIntent tag draw level
  | .confirm tag draw => e.takeConfirm tag draw
  | .withdraw tag _ => e.without tag
  | .release amount => e.takeRelease amount
  | .status content => e.takeStatus content
  | .request _ _ _ => e
  | .reply _ _ _ => e
  | .cageReport _ => e

/-- A budget frame applied to an entry (R67 to R70). -/
def PeerEntry.take (unknownAllow : Nat) (f : Frame) (e : PeerEntry) : PeerEntry :=
  (e.ready unknownAllow f.body.isStatus).takeBody f.level f.body

/-- The entry of a tick: a Present entry's age rises by 1, and at 4 the entry becomes Aged (R72). -/
def PeerEntry.tick (e : PeerEntry) : PeerEntry :=
  match e.status with
  | .present =>
    if 3 ≤ e.age then { e with status := .aged, age := 4 } else { e with age := e.age + 1 }
  | .aged => e
  | .unknown => e

/-- Every entry after an announce tick (R72). -/
def tickPeers (s : State) : State := { s with peers := s.peers.map PeerEntry.tick }

/-- The age at which a pending intent is promoted, W + G with G equal to W (R71). -/
def promotionAge (k : Settings) : Nat := 2 * k.window

/-- The pending intents of an entry after one ms more; an age stands at W + G until the promotion is
taken (R71, log entry 5). -/
def PeerEntry.countUp (limit : Nat) (e : PeerEntry) : PeerEntry :=
  { e with intents := e.intents.map (fun i => { i with age := min limit (i.age + 1) }) }

/-- A frame of the budget receive queue applied to the entry of its source, with the queue-time test
due (R67, R52). -/
def applyFrame (f : Frame) (s : State) : State :=
  dueTest (s.updPeer f.source (PeerEntry.take s.conf.unknownAllow f))

/-- The bytes of a peer entry for READ-PEER (R73, R167): status, confirmed total, number of pending
intents and age, run state and health with 15 for none. -/
def peerData (e : PeerEntry) : List Byte :=
  [byteOf e.status.code, highByte e.confirmed, lowByte e.confirmed, byteOf e.intents.length,
   byteOf e.age,
   nibbles ((e.runState.map RunState.code).getD 15) ((e.health.map BusHealth.code).getD 15)]

end Sys2Proof.Machine
end

