-- ==== Sys2Proof/Machine/Links.lean ====
section
/-! DEFINITION. The management link arbiters (R116 to R130): slots, the grant, the end of a chunk, and
what a removal and a Restart do to a segment. -/

namespace Sys2Proof.Machine

/-- The outcomes of a transaction (R118). -/
inductive LinkOutcome where
  | done (bytes : List Byte)
  | noResponse
  | stretchTimeout
  | absent
deriving DecidableEq, Repr

/-- A request that has ended, with its outcome, on its way to its requester. -/
structure Ended where
  request : LinkRequest
  outcome : LinkOutcome
deriving DecidableEq, Repr

/-! ### Slots (R119, R120) -/

/-- The request in a slot. -/
def Link.inSlot (l : Link) : Slot → Option LinkRequest
  | .crs c => l.crsSlots[slotIx c]
  | .passThrough => l.passThrough
  | .scanner => l.scanner

/-- A slot set. -/
def Link.setSlot (slot : Slot) (r : Option LinkRequest) (l : Link) : Link :=
  match slot with
  | .crs c => { l with crsSlots := l.crsSlots.set (slotIx c) r }
  | .passThrough => { l with passThrough := r }
  | .scanner => { l with scanner := r }

/-- The CRS request of a cage that its arbiter holds. -/
def State.crsSlot (s : State) (c : Cage) : Option LinkRequest := (s.link (segOf c)).inSlot (.crs c)

/-- A request enters its slot (R119). -/
def putRequest (g : Seg) (slot : Slot) (r : LinkRequest) (s : State) : State :=
  s.updLink g (Link.setSlot slot (some r))

/-- A slot emptied. -/
def clearSlot (g : Seg) (slot : Slot) (s : State) : State := s.updLink g (Link.setSlot slot none)

/-- A read as a requester presents it: next chunk index 0, nothing granted (R119). -/
def readRequest (origin : Origin) (c : Cage) (address length : Nat) : LinkRequest :=
  { origin := origin, cage := c, address := address, length := length, writeData := none,
    nextChunk := 0, bytes := [], granted := false }

/-- A write as a requester presents it. -/
def writeRequest (origin : Origin) (c : Cage) (address : Nat) (data : List Byte) : LinkRequest :=
  { origin := origin, cage := c, address := address, length := data.length,
    writeData := some data, nextChunk := 0, bytes := [], granted := false }

/-- The transaction of a CRS request (R6, R133). -/
def crsTransaction (c : Cage) (q : CrsRequest) : LinkRequest :=
  match q.kind with
  | .identityRead => readRequest (.crs q false) c 0 32
  | .readyPoll => readRequest (.crs q false) c 64 1
  | .alertRead => readRequest (.crs q false) c 64 3
  | .txDisable => writeRequest (.crs q false) c 121 [q.value]
  | .laneRestart => writeRequest (.crs q false) c 120 [q.value]

/-- A CRS request whose withdrawal was refused: its outcome is to be discarded (R7, R120). -/
def LinkRequest.discarded (r : LinkRequest) : LinkRequest :=
  match r.origin with
  | .crs q _ => { r with origin := .crs q true }
  | .passThrough => r
  | .scanner => r

/-- The CRS withdraws the request of a cage that the arbiter holds: it leaves its slot if no chunk of
it has been granted, and its outcome is discarded if one has (R7, R120). -/
def withdrawCrs (c : Cage) (s : State) : State :=
  match s.crsSlot c with
  | some r =>
    if r.granted then putRequest (segOf c) (.crs c) r.discarded s
    else clearSlot (segOf c) (.crs c) s
  | none => s

/-! ### The grant (R121, R122) -/

/-- The cages of a segment whose CRS slot holds a request. -/
def State.crsWaiting (s : State) (g : Seg) : List Cage :=
  (segCages g).filter (fun c => ((s.link g).inSlot (.crs c)).isSome)

/-- The slot the choice takes: CRS requests by effective level and cage number, then pass-through,
then the scanner (R121). -/
def State.chooseSlot (s : State) (g : Seg) : Option Slot :=
  match (sortByKey (fun c => (s.claim c).level) (s.crsWaiting g)).head? with
  | some c => some (.crs c)
  | none =>
    if (s.link g).passThrough.isSome then some .passThrough
    else if (s.link g).scanner.isSome then some .scanner else none

/-- The next chunk of a request as the chunk in progress, at try 1 (R118, R121). -/
def LinkRequest.chunk (slot : Slot) (r : LinkRequest) : Chunk :=
  { slot := slot, cage := r.cage, address := r.address + 8 * r.nextChunk,
    length := min 8 (r.length - 8 * r.nextChunk), isWrite := r.writeData.isSome,
    data := ((r.writeData.getD []).drop (8 * r.nextChunk)).take 8, tryNo := 1, ending := .none }

/-- A request after a chunk of it has been granted. -/
def LinkRequest.grant (r : LinkRequest) : LinkRequest :=
  { r with nextChunk := r.nextChunk + 1, granted := true }

/-- A segment after the grant of the next chunk of a request: the select line of its cage is asserted
and every other one deasserted (R117, R121). -/
def Link.grant (slot : Slot) (r : LinkRequest) (l : Link) : Link :=
  { l.setSlot slot (some r.grant) with
    state := .chunk, chunk := some (r.chunk slot), selected := some r.cage, stretch := none,
    retryTimer := none }

/-- The choice of a segment, made where it is IDLE and a slot holds a request (R121). -/
def grantSegment (g : Seg) (s : State) : State :=
  let l := s.link g
  match l.state with
  | .idle =>
    match s.chooseSlot g with
    | some slot =>
      match l.inSlot slot with
      | some r => s.updLink g (Link.grant slot r)
      | none => s
    | none => s
  | .chunk => s
  | .retryWait => s
  | .recovery => s

/-- What a try of a chunk sends and takes: a read or a write of its bytes at its address, the same at each of
its tries (R117, R123). -/
def Chunk.wire (k : Chunk) : List WireItem :=
  if k.isWrite then writeTry (byteOf k.address) k.data else readTry (byteOf k.address) k.length

/-- The try under way on a segment, to the selected module: of its chunk in progress, in CHUNK alone (R117).
One whose chunk has been ended goes no further than its next byte boundary (R126, R128). -/
def State.segmentTry (s : State) (g : Seg) : Option (List WireItem) :=
  match (s.link g).state with
  | .chunk => (s.link g).chunk.map Chunk.wire
  | .idle => none
  | .retryWait => none
  | .recovery => none

/-! ### The end of a chunk (R117, R118, R123, R124) -/

/-- A segment whose chunk has ended. -/
def Link.endChunk (state : LinkState) (deselect : Bool) (l : Link) : Link :=
  { l with
    state := state, chunk := none, stretch := none, retryTimer := none,
    selected := if deselect then none else l.selected }

/-- The request of the chunk in progress, unless a Restart has ended it. -/
def Link.inProgress (l : Link) (k : Chunk) : Option LinkRequest :=
  match k.ending with
  | .restart => none
  | .none => l.inSlot k.slot
  | .absent => l.inSlot k.slot

/-- The segment's chunk ends with an outcome that ends its request, which leaves its slot. -/
def endRequest (g : Seg) (k : Chunk) (state : LinkState) (deselect : Bool) (outcome : LinkOutcome)
    (s : State) : State × List Ended :=
  let l := s.link g
  match l.inProgress k with
  | some r =>
    (s.updLink g (fun l => (l.endChunk state deselect).setSlot k.slot none), [⟨r, outcome⟩])
  | none => (s.updLink g (Link.endChunk state deselect), [])

/-- A request with the bytes of one more chunk. -/
def LinkRequest.addBytes (data : List Byte) (r : LinkRequest) : LinkRequest :=
  { r with bytes := r.bytes ++ data }

/-- Whether every chunk of a request has been granted. -/
def LinkRequest.lastChunk (r : LinkRequest) : Bool := r.length ≤ 8 * r.nextChunk

/-- A chunk ends DONE: its bytes are added to its request, which ends with its last chunk (R118).  A
request with chunks left waits on, and the choice of R121 sees it at this very event; a removal that arrives
together with this end takes that choice back (linkRemoval). -/
def chunkCompletes (g : Seg) (k : Chunk) (data : List Byte) (s : State) : State × List Ended :=
  match (s.link g).inProgress k with
  | some r =>
    let r := r.addBytes data
    if r.lastChunk then endRequest g k .idle false (.done r.bytes) s
    else (s.updLink g (fun l => (l.endChunk .idle false).setSlot k.slot (some r)), [])
  | none => (s.updLink g (Link.endChunk .idle false), [])

/-- The byte boundary at which a chunk that a removal (R126) or a Restart (R128) has ended stops: the
request, if there is one, ends ABSENT, the cage is deselected and the segment enters IDLE. -/
def byteBoundary (g : Seg) (k : Chunk) (s : State) : State × List Ended :=
  endRequest g k .idle true .absent s

/-- Whether the bytes of a completed try fit its chunk: a read brings its length. -/
def Chunk.fits (k : Chunk) (data : List Byte) : Bool := k.isWrite || data.length = k.length

/-- What a read chunk brings; a write brings no bytes (R117). -/
def Chunk.brings (k : Chunk) (data : List Byte) : List Byte := if k.isWrite then [] else data

/-- A try of the segment's chunk completes (R117).  A chunk that a removal or a Restart has ended
stops at the byte boundary before. -/
def tryCompletes (g : Seg) (data : List Byte) (s : State) : State × List Ended :=
  match (s.link g).state, (s.link g).chunk with
  | .chunk, some k =>
    if k.ending = .none then chunkCompletes g k (k.brings data) s else byteBoundary g k s
  | _, _ => (s, [])

/-- A try of the segment's chunk fails by NAK (R123).  R117 has the select line stay asserted after a chunk
that ends DONE, and R123 in RETRY-WAIT; after the NO-RESPONSE of try 3 the spec does not say, and here too it
stays asserted until the next grant, a removal or a Restart (DESIGN CHOICE, log entry 42). -/
def tryFails (g : Seg) (s : State) : State × List Ended :=
  match (s.link g).state, (s.link g).chunk with
  | .chunk, some k =>
    if k.ending ≠ .none then byteBoundary g k s
    else if k.tryNo < 3 then
      (s.updLink g (fun l =>
        { l with state := .retryWait, stretch := none, retryTimer := some 1 }), [])
    else endRequest g k .idle false .noResponse s
  | _, _ => (s, [])

/-- The retry timer expires: the chunk is tried again with the next try number (R123). -/
def Link.retry (l : Link) : Link :=
  { l with
    state := .chunk, retryTimer := none,
    chunk := l.chunk.map (fun k => { k with tryNo := k.tryNo + 1 }) }

/-- A stretch passes 25 ms (R124): the chunk fails and the segment enters RECOVERY.  The request of a
chunk that a removal has ended ends ABSENT (R126). -/
def stretchEnds (g : Seg) (s : State) : State × List Ended :=
  match (s.link g).state, (s.link g).chunk with
  | .chunk, some k =>
    let outcome := if k.ending = .none then LinkOutcome.stretchTimeout else LinkOutcome.absent
    endRequest g k .recovery false outcome s
  | _, _ => (s, [])

/-! ### Removal (R126, R127) -/

/-- The slots of a segment that hold a request for a cage. -/
def Link.slotsOf (c : Cage) (l : Link) : List Slot :=
  [Slot.crs c, .passThrough, .scanner].filter (fun slot =>
    match l.inSlot slot with
    | some r => decide (r.cage = c)
    | none => false)

/-- The requests in some slots answered ABSENT, each leaving its slot (R127). -/
def answerAbsent (g : Seg) : List Slot → State → State × List Ended
  | [], s => (s, [])
  | slot :: slots, s =>
    let rest := answerAbsent g slots (clearSlot g slot s)
    match (s.link g).inSlot slot with
    | some r => (rest.1, ⟨r, .absent⟩ :: rest.2)
    | none => rest

/-- The state of the stretch timer where a try finds the clock held or not: it starts where it was stopped
and the clock is held, and it stops where the clock is not held (R124, log entry 21). -/
def stretchAt (held : Bool) (t : Timer) : Timer :=
  if held then
    match t with
    | some n => some n
    | none => some 25
  else none

/-- Whether a segment's chunk may be one granted at the end of the chunk before, with nothing of it sent: it
is in its first try, met by no stretch, and nothing has ended it. -/
def Link.justGranted (k : Chunk) (l : Link) : Bool :=
  decide (k.tryNo = 1 ∧ k.ending = .none ∧ l.stretch = none)

/-- The arbiter takes a removal (R126, R127).  The request of a chunk that goes on to its byte boundary
keeps its slot until then; every other request of the cage is answered ABSENT now.  Where the removal arrives
together with the end of a chunk of the cage and that end is taken first, a chunk of the cage that the choice of
R121 granted at that end has not begun: its request is still waiting (R126), so every request of the cage is
answered ABSENT now, the cage is deselected, and the choice is made afresh (log entry 43). -/
def linkRemoval (c : Cage) (moment : RemovalMoment) (s : State) : State × List Ended :=
  let g := segOf c
  let l := s.link g
  let slots := l.slotsOf c
  let held := decide (moment = .inStretch)
  match l.state, l.chunk with
  | .chunk, some k =>
    if k.cage ≠ c then
      answerAbsent g slots (s.updLink g (fun l => { l with stretch := stretchAt held l.stretch }))
    else if moment = .atChunkEnd ∧ l.justGranted k = true then
      answerAbsent g slots (s.updLink g (Link.endChunk .idle true))
    else if held then answerAbsent g slots (s.updLink g (Link.endChunk .recovery false))
    else if k.ending = .restart then
      answerAbsent g slots (s.updLink g (fun l => { l with stretch := none }))
    else
      answerAbsent g (slots.filter (fun slot => decide (slot ≠ k.slot)))
        (s.updLink g (fun l =>
          { l with stretch := none, chunk := some { k with ending := .absent } }))
  | .retryWait, some k =>
    if k.cage ≠ c then answerAbsent g slots s
    else answerAbsent g slots (s.updLink g (Link.endChunk .idle true))
  | .idle, _ =>
    answerAbsent g slots
      (s.updLink g (fun l => if l.selected = some c then { l with selected := none } else l))
  | _, _ => answerAbsent g slots s

/-! ### Restart (R128) -/

/-- Every slot emptied (R128). -/
def Link.emptied (l : Link) : Link :=
  { l with crsSlots := Vector.replicate 8 none, passThrough := none, scanner := none }

/-- A segment at a Restart, given whether a module holds its clock (R128). -/
def Link.atRestart (held : Bool) (l : Link) : Link :=
  let l := l.emptied
  match l.state with
  | .chunk =>
    if held then l.endChunk .recovery false
    else { l with stretch := none, chunk := l.chunk.map (fun k => { k with ending := .restart }) }
  | .recovery => l
  | .retryWait => l.endChunk .idle true
  | .idle => l.endChunk .idle true

end Sys2Proof.Machine
end

