-- ==== Sys2Proof/Machine/Scan.lean ====
section
/-! DEFINITION. The scanners and the current-sense converter (R134 to R148): slots, the chunks of a
scan, its discard, the sample record and the windows, and a conversion. -/

namespace Sys2Proof.Machine

/-! ### The rota and its slots (R135, R136) -/

/-- The rota of a segment: its cages in a powered state (R135). -/
def State.rota (s : State) (g : Seg) : List Cage :=
  (segCages g).filter (fun c => (s.cage c).state.powered)

/-- The cages of the rota in a class (R135). -/
def State.rotaClass (s : State) (g : Seg) (t : Turn) : List Cage :=
  (s.rota g).filter (fun c =>
    match t with
    | .settling => (s.cage c).state.settling
    | .steady => !(s.cage c).state.settling)

/-- The next cage of an ascending list after the last one visited, wrapping; the first of the list
where none has been visited (R136). -/
def nextAfter (last : Option Cage) (cs : List Cage) : Option Cage :=
  match last with
  | none => cs.head?
  | some k =>
    match cs.find? (fun c => decide (k < c)) with
    | some c => some c
    | none => cs.head?

/-- The opposite class. -/
def Turn.other : Turn → Turn
  | .settling => .steady
  | .steady => .settling

/-- The last cage visited of a class. -/
def Scanner.lastOf (n : Scanner) : Turn → Option Cage
  | .settling => n.lastSettling
  | .steady => n.lastSteady

/-- The cage a slot chooses, with its class (R136). -/
def State.slotChoice (s : State) (g : Seg) : Option (Turn × Cage) :=
  let n := s.scanner g
  match nextAfter (n.lastOf n.turn) (s.rotaClass g n.turn) with
  | some c => some (n.turn, c)
  | none =>
    (nextAfter (n.lastOf n.turn.other) (s.rotaClass g n.turn.other)).map (fun c => (n.turn.other, c))

/-- A visited cage noted as the last one of its class, with the turn set to the other class (R136). -/
def Scanner.visited (t : Turn) (c : Cage) (n : Scanner) : Scanner :=
  match t with
  | .settling => { n with lastSettling := some c, turn := .steady }
  | .steady => { n with lastSteady := some c, turn := .settling }

/-! ### A scan (R137 to R139) -/

/-- A scan that is over: no cursor, no partial sample, and a phase. -/
def Scanner.ended (phase : ScanPhase) (n : Scanner) : Scanner :=
  { n with phase := phase, cursor := none, sampleBytes := [] }

/-- The scanner presents a chunk of its plan (R119, R137): for a cage that is not present it is
answered ABSENT, which discards the scan (R139). -/
def presentScan (g : Seg) (cur : Cursor) (s : State) : State :=
  match (scanPlan cur.lanes)[cur.index]? with
  | some (address, length) =>
    if (s.line cur.cage).present then
      putRequest g .scanner (readRequest .scanner cur.cage address length)
        (s.updScanner g (fun n => { n with phase := .scanning, cursor := some cur }))
    else s.updScanner g (Scanner.ended .idle)
  | none => s.updScanner g (Scanner.ended .idle)

/-- The lane count of a cage's identity record; every powered cage holds one (R137). -/
def State.lanesOf (s : State) (c : Cage) : Nat :=
  match (s.cage c).identity with
  | some id => id.lanes
  | none => 0

/-- A slot begins (R136) where the scanner is IDLE, its slot timer is stopped and its rota holds a
cage. -/
def startSlot (g : Seg) (s : State) : State :=
  let n := s.scanner g
  if n.phase = .idle ∧ n.slotTimer = none then
    match s.slotChoice g with
    | some (t, c) =>
      let s := s.updScanner g (fun n => { n.visited t c with slotTimer := some 10, sampleBytes := [] })
      presentScan g ⟨c, s.lanesOf c, 0⟩ s
    | none => s
  else s

/-- A scan in progress discarded by its cage's leaving the rota or by a window clear (R139): the
presented chunk is withdrawn, and DRAINING waits for one that has been granted. -/
def discardScan (g : Seg) (s : State) : State :=
  match (s.link g).scanner with
  | some r =>
    if r.granted then s.updScanner g (Scanner.ended .draining)
    else clearSlot g .scanner (s.updScanner g (Scanner.ended .idle))
  | none => s.updScanner g (Scanner.ended .idle)

/-- Whether a cage is the cage of its segment's cursor. -/
def State.underScan (s : State) (c : Cage) : Bool :=
  match (s.scanner (segOf c)).cursor with
  | some cur => decide (cur.cage = c)
  | none => false

/-- The scan of a cage discarded if it is the cage of the cursor (R135, R139). -/
def dropScanOf (c : Cage) (s : State) : State :=
  if s.underScan c then discardScan (segOf c) s else s

/-- The windows of a cage emptied (R143). -/
def CageScan.clearWindows (k : CageScan) : CageScan :=
  { k with windows := Vector.replicate 8 [] }

/-- The CRS asks for a cage's windows to be cleared, which discards a scan of the cage (R139, R143). -/
def clearWindows (c : Cage) (s : State) : State :=
  dropScanOf c (s.updScan c CageScan.clearWindows)

/-- The sample record and the windows of a cage that enters VACANT (R141, R143). -/
def CageScan.vacated (k : CageScan) : CageScan := { k.clearWindows with sample := none }

/-- The sample record of a cage made absent by a removal in MANUAL-HOLD (R141). -/
def dropSample (c : Cage) (s : State) : State := s.updScan c (fun k => { k with sample := none })

/-! ### A completed scan (R141 to R144) -/

/-- The converter's newest entry for a cage (R145). -/
def CageScan.newest (k : CageScan) : Option Draw := k.history.getLast?

/-- The record of a completed scan replaces the cage's sample record (R141). -/
def keepSample (c : Cage) (lanes : Nat) (bytes : List Byte) (s : State) : State :=
  s.updScan c (fun k =>
    { k with sample := some (sampleOf s.startup.stationTime lanes bytes k.newest) })

/-- The tx power of each lane below n added to its window (R142, R143). -/
def CageScan.fill (entries : List LaneEntry) (k : CageScan) : CageScan :=
  { k with windows := Vector.ofFn (fun i : Fin 8 =>
      match entries[i.val]? with
      | some e => windowAdd k.windows[i] e.txPower
      | none => k.windows[i]) }

/-- The windows of a cage take a completed sample (R142). -/
def fillWindows (c : Cage) (lanes : Nat) (bytes : List Byte) (s : State) : State :=
  s.updScan c (CageScan.fill ((List.range lanes).map (laneEntry bytes)))

/-- The lane stability verdict of a cage (R144). -/
def State.laneVerdict (s : State) (c : Cage) (lanes : Nat) : Bool :=
  lanesStable s.conf lanes (s.cageScan c).windows

/-! ### A conversion (R145 to R148) -/

/-- The next channel of the cycle (R145). -/
def nextChannel (c : Cage) : Cage := c + 1

/-- The overdraw run count after a conversion (R147). -/
def nextRun (st : CageState) (id : Option Identity) (d : Draw) (run : Nat) : Nat :=
  match id with
  | some id => if st.powered && d.above (overdrawLimit st id) then min 3 (run + 1) else 0
  | none => 0

/-- A conversion's entry goes into the history, and the run count follows (R145, R147). -/
def CageScan.convert (st : CageState) (id : Option Identity) (d : Draw) (k : CageScan) : CageScan :=
  { k with history := historyAdd k.history d, overRun := nextRun st id d k.overRun }

/-- The conversion of a channel, before its verdicts are handed on; the converter moves to the next
channel (R145, R146). -/
def convertChannel (c : Cage) (code : BitVec 10) (s : State) : State :=
  let k := s.cage c
  let d := drawOfCode s.conf.currentScale code
  let s := s.updScan c (CageScan.convert k.state k.identity d)
  { s with scan := { s.scan with channel := nextChannel c } }

/-- Whether the conversion of a cage gives an overdraw verdict (R147). -/
def State.overdrawn (s : State) (c : Cage) : Bool :=
  (s.cage c).state.powered && decide ((s.cageScan c).overRun = 3)

/-- The draw-settled verdict of a cage (R148). -/
def State.settledVerdict (s : State) (c : Cage) : Bool :=
  match (s.cage c).identity with
  | some id => drawSettled id.pm (s.cageScan c).history
  | none => false

/-! ### Restart (R140, R145) -/

/-- The scanners, their records, and the converter's histories and run counts at a Restart; the
converter runs on at its place (R140, R145). -/
def ScanUnit.atRestart (u : ScanUnit) : ScanUnit :=
  { u with
    scanners := Vector.replicate 2 resetScanner, cages := Vector.replicate 16 resetCageScan }

end Sys2Proof.Machine
end

