-- ==== Sys2Proof/Machine/Sequencer.lean ====
section
/-! DEFINITION. The cage recovery sequencer (spec/01): its request list, the move of a cage from one
state to another, the entry actions of each state, and what observations, verdicts, line changes and
identity reads do. -/

namespace Sys2Proof.Machine

/-! ### The request list (R7) -/

/-- A request put into a list: one of its kind that already waits takes its value and its visit, and
otherwise it goes to the end (R7, log entry 8). -/
def addRequest (q : CrsRequest) (list : List CrsRequest) : List CrsRequest :=
  if list.any (fun p => decide (p.kind = q.kind)) then
    list.map (fun p => if p.kind = q.kind then q else p)
  else list ++ [q]

/-- The CRS asks for a transaction for a cage (R7). -/
def ask (c : Cage) (kind : CrsKind) (value : Byte) (s : State) : State :=
  s.updCage c (fun k => { k with requests := addRequest ⟨kind, value, k.visit⟩ k.requests })

/-- Whether a request of a kind waits on a cage's list. -/
def CageRecord.awaits (kind : CrsKind) (k : CageRecord) : Bool :=
  k.requests.any (fun q => decide (q.kind = kind))

/-- Whether a request of a kind is outstanding with the arbiter for a cage. -/
def State.outstanding (s : State) (c : Cage) (kind : CrsKind) : Bool :=
  match s.crsSlot c with
  | some r =>
    match r.origin with
    | .crs q _ => decide (q.kind = kind)
    | .passThrough => false
    | .scanner => false
  | none => false

/-- Whether a poll or an alert read of a cage is waiting or outstanding (R7, R20). -/
def State.statusReadDue (s : State) (c : Cage) : Bool :=
  (s.cage c).awaits .readyPoll || (s.cage c).awaits .alertRead ||
  s.outstanding c .readyPoll || s.outstanding c .alertRead

/-- A ready poll asked for, unless a poll or an alert read is waiting or outstanding (R7, R20). -/
def askPoll (c : Cage) (s : State) : State :=
  if s.statusReadDue c then s else ask c .readyPoll 0 s

/-- The request list of a cage emptied, and its request with the arbiter withdrawn (R7). -/
def emptyRequests (c : Cage) (s : State) : State :=
  withdrawCrs c (s.updCage c (fun k => { k with requests := [] }))

/-- The oldest request of a cage handed to the arbiter where its slot is empty (R7).  For a cage that
is not present each is answered ABSENT at its presentation (R119), an outcome the CRS discards. -/
def pumpCage (s : State) (c : Cage) : State :=
  match s.crsSlot c, (s.cage c).requests with
  | none, q :: rest =>
    if (s.line c).present then
      putRequest (segOf c) (.crs c) (crsTransaction c q)
        (s.updCage c (fun k => { k with requests := rest }))
    else s.updCage c (fun k => { k with requests := [] })
  | _, _ => s

/-- The wanted tx-disable value set, and its write asked for (R8). -/
def wantTx (c : Cage) (value : Byte) (s : State) : State :=
  ask c .txDisable value (s.updCage c (fun k => { k with wantedTx := some value }))

/-! ### The move of a cage (R1, R3, R5) -/

/-- The states on whose entry the request list is emptied (R7). -/
def CageState.emptiesList : CageState → Bool
  | .vacant | .faulted | .manualHold | .disabled => true
  | _ => false

/-- The timers with the init wait of 2000 ms started at the event of a number (R14, R159). -/
def CageTimers.startInit (now : Nat) (t : CageTimers) : CageTimers :=
  { t with initWait := some 2000, initStart := now }

/-- The timers with the init wait stopped (R14). -/
def CageTimers.stopInit (t : CageTimers) : CageTimers := { t with initWait := none, initStart := 0 }

/-- The timers a state starts at its entry (Table 1-3); `released` says that the source in force is
SEQUENCER, which the init wait needs (R14), and `now` numbers the event (log entry 38). -/
def entryTimers (k : Settings) (released : Bool) (now : Nat) (st : CageState) : CageTimers :=
  match st with
  | .debounce => { noTimers with debounce := some k.debounce }
  | .identify => if released then noTimers.startInit now else noTimers
  | .powerUp => { noTimers with poll := some 50, ready := some k.readyTimeout }
  | .lightSettle => { noTimers with settle := some k.settleTimeout }
  | .relight => { noTimers with settle := some k.settleTimeout }
  | .train => { noTimers with train := some k.trainTimeout }
  | .verify => { noTimers with verify := some k.verifyTime }
  | _ => noTimers

/-- Whether the source in force for a cage is SEQUENCER. -/
def State.underSequencer (s : State) (c : Cage) : Bool := decide ((s.line c).source = .sequencer)

/-- A cage's record in a new state: a new visit (R4), its timers (R3), the fault cause (R11), the link
failure count (R9) and the wanted tx-disable value (R8). -/
def CageRecord.move (new : CageState) (cause : FaultCause) (timers : CageTimers) (k : CageRecord) :
    CageRecord :=
  { k with
    state := new, timers := timers, visit := k.visit + 1,
    cause := if new = .faulted then cause else .none,
    linkFails := if new = .powerUp ∨ new.powered = false then 0 else k.linkFails,
    wantedTx := if new.assertsReset then none else k.wantedTx }

/-- A cage's move to a state (R3): the claim hand-off (R5), the scanner's rota (R135, R139), the
request list (R7), the drive source (R1), the record, the sample record of a cage that enters VACANT
(R141, R143), and the CAGE-REPORT if the state is another one. -/
def moveCage (c : Cage) (new : CageState) (cause : FaultCause) (s : State) : State :=
  let old := (s.cage c).state
  let s := claimHandOff c old new s
  let s := if new.powered then s else dropScanOf c s
  let s := if new.emptiesList then emptyRequests c s else s
  let s := nameSource c new s
  let s := s.updCage c
    (CageRecord.move new cause (entryTimers s.conf (s.underSequencer c) s.openChoices new))
  let s := if new = .vacant then s.updScan c CageScan.vacated else s
  if new = old then s else handReport c s

/-! ### The entry actions -/

/-- IDENTIFY entered (R14): no identity record, no identity read yet. -/
def enterIdentify (c : Cage) (s : State) : State :=
  (moveCage c .identify .none s).updCage c (fun k => { k with identity := none, identReads := 0 })

/-- FAULTED entered with a cause, with its record (R11). -/
def enterFaulted (c : Cage) (cause : FaultCause) (s : State) : State :=
  moveCage c .faulted cause (handRecord c .fault (s.cage c).state (some cause) s)

/-- The transmitters enabled, the windows cleared and the lane stability verdict no, as LIGHT-SETTLE and
RELIGHT begin (R22, R30). -/
def startSettling (c : Cage) (s : State) : State :=
  (clearWindows c (wantTx c 0 s)).updCage c (fun k => { k with laneStable := false })

/-- LIGHT-SETTLE entered (R22). -/
def enterLightSettle (c : Cage) (s : State) : State :=
  startSettling c (moveCage c .lightSettle .none s)

/-- The training retry count set to 0. -/
def zeroRetries (c : Cage) (s : State) : State := s.updCage c (fun k => { k with trainRetries := 0 })

/-- RELIGHT entered (R30). -/
def enterRelight (c : Cage) (s : State) : State :=
  zeroRetries c (startSettling c (moveCage c .relight .none s))

/-- HOLD-DOWN entered (R29): every lane of the module is to be disabled. -/
def enterHoldDown (c : Cage) (s : State) : State :=
  wantTx c (laneMask (s.lanesOf c)) (moveCage c .holdDown .none s)

/-- TRAIN entered (R23), with a lane restart write asked for where `restart` says so (R24); a cage
whose LINK_UP is taken as asserted moves on to VERIFY at the same event. -/
def enterTrain (c : Cage) (restart : Bool) (s : State) : State :=
  let s := moveCage c .train .none s
  let s := if restart then ask c .laneRestart (laneMask (s.lanesOf c)) s else s
  if (s.line c).link then moveCage c .verify .none s else s

/-- TRAIN entered with the training retry count at 0 (R22, R23, R27). -/
def enterTrainAfresh (c : Cage) (s : State) : State := enterTrain c false (zeroRetries c s)

/-- A training retry (R24). -/
def trainingRetry (c : Cage) (timeout : Bool) (s : State) : State :=
  let n := (s.cage c).trainRetries + 1
  let s := s.updCage c (fun k => { k with trainRetries := n })
  if 4 ≤ n then enterFaulted c .trainExhausted s else enterTrain c timeout s

/-- A flap taken in IN-SERVICE (R27, R103): the records carry the penalty after the addition. -/
def takeFlap (c : Cage) (s : State) : State :=
  let s := handRecord c .flap .inService none (flapPenalty c s)
  if s.suppressed c then enterHoldDown c (handRecord c .holdDown .inService none s)
  else enterTrainAfresh c s

/-! ### Status observations (R10) -/

/-- A status observation: the flags of byte 64, the bits of bytes 65 and 66, and whether it is a
completed sample. -/
structure Observation where
  ready   : Bool
  fault   : Bool
  rxLost  : Byte
  txFault : Byte
  sample  : Bool
deriving DecidableEq, Repr

/-- The observation that status bytes make from address 64 on; a ready poll gives byte 64 alone (R10,
R132). -/
def observationOf (sample : Bool) (bytes : List Byte) : Observation :=
  { ready := (byteAt bytes 0).getLsbD 0, fault := (byteAt bytes 0).getLsbD 1,
    rxLost := byteAt bytes 1, txFault := byteAt bytes 2, sample := sample }

/-- A status observation evaluated against the state the cage is in (R10). -/
def observe (c : Cage) (o : Observation) (s : State) : State :=
  let n := s.lanesOf c
  let st := (s.cage c).state
  if !st.powered then s
  else if o.fault then enterFaulted c .moduleFault s
  else
    match st with
    | .verify => if anyLane n o.txFault then trainingRetry c false s else s
    | .inService =>
      if anyLane n o.txFault then enterFaulted c .moduleFault s
      else if anyLane n o.rxLost then takeFlap c s else s
    | .darkWait => if o.sample && !everyLane n o.rxLost then enterTrainAfresh c s else s
    | .powerUp => if o.ready then enterLightSettle c s else s
    | _ => s

/-! ### Verdicts (R22, R28, R30) -/

/-- The cage enters TRAIN where both verdicts are yes in LIGHT-SETTLE (R22). -/
def settlePair (c : Cage) (s : State) : State :=
  let k := s.cage c
  if k.state = .lightSettle ∧ k.laneStable = true ∧ k.drawSettled = true then enterTrainAfresh c s
  else s

/-- A lane stability verdict (R22, R30), discarded outside LIGHT-SETTLE and RELIGHT (R142). -/
def takeLaneVerdict (c : Cage) (verdict : Bool) (s : State) : State :=
  match (s.cage c).state with
  | .lightSettle => settlePair c (s.updCage c (fun k => { k with laneStable := verdict }))
  | .relight =>
    let s := s.updCage c (fun k => { k with laneStable := verdict })
    if verdict then enterTrain c false s else s
  | _ => s

/-- A draw-settled verdict (R22, R148): the copy is replaced in every powered state, and acted on in
LIGHT-SETTLE (log entry 9). -/
def takeSettledVerdict (c : Cage) (verdict : Bool) (s : State) : State :=
  if (s.cage c).state.powered then
    settlePair c (s.updCage c (fun k => { k with drawSettled := verdict }))
  else s

/-- An overdraw verdict (R28). -/
def takeOverdraw (c : Cage) (s : State) : State :=
  if (s.cage c).state.powered then enterFaulted c .overdraw s else s

/-- A reuse report (R29, R108). -/
def takeReuse (c : Cage) (s : State) : State :=
  if (s.cage c).state = .holdDown ∧ (s.penalty c).value < s.conf.reuse then enterRelight c s else s

/-! ### Line changes (R12, R13, R23, R26, R27, R31, R32) -/

/-- A PRESENT assertion taken (R12). -/
def presentAsserted (c : Cage) (s : State) : State :=
  if s.startup.runState ≠ .loading ∧ (s.cage c).state = .vacant then moveCage c .debounce .none s
  else s

/-- The serial of a cage's identity record handed to the penalty unit at a removal (R31, R109). -/
def handSerial (c : Cage) (s : State) : State :=
  match (s.cage c).identity with
  | some id => storeRemoval c id.serial s
  | none => s

/-- The identity record and the three counts cleared (R31, step 5). -/
def CageRecord.cleared (k : CageRecord) : CageRecord :=
  { k with identity := none, identReads := 0, trainRetries := 0, linkFails := 0 }

/-- The removal of a module, in the order of R31. -/
def removeModule (c : Cage) (s : State) : State :=
  let old := (s.cage c).state
  let s := if old = .adopt then handRecord c .adopted .adopt none s else s
  let s := handSerial c (handRecord c .removed old none s)
  (moveCage c .vacant .none s).updCage c CageRecord.cleared

/-- A removal taken in MANUAL-HOLD (R32, R141), which like every removal sets the training retry count to
0 (R24). -/
def removeHeld (c : Cage) (s : State) : State :=
  let s := handSerial c (handRecord c .removed .manualHold none s)
  dropSample c (s.updCage c (fun k => { k with identity := none, trainRetries := 0 }))

/-- A PRESENT deassertion taken (R13, R24, R31, R32). -/
def presentDeasserted (c : Cage) (s : State) : State :=
  match (s.cage c).state with
  | .vacant => s
  | .disabled => s
  | .debounce => zeroRetries c (moveCage c .vacant .none s)
  | .manualHold => removeHeld c s
  | _ => removeModule c s

/-- A LINK_UP assertion taken (R23). -/
def linkAsserted (c : Cage) (s : State) : State :=
  match (s.cage c).state with
  | .train => moveCage c .verify .none s
  | .darkWait => enterTrainAfresh c s
  | _ => s

/-- A LINK_UP deassertion taken (R26, R27). -/
def linkDeasserted (c : Cage) (s : State) : State :=
  match (s.cage c).state with
  | .verify => trainingRetry c false s
  | .inService => takeFlap c s
  | _ => s

/-- An asserting ALERT edge (R9). -/
def takeAlert (c : Cage) (s : State) : State :=
  if (s.cage c).state.powered then ask c .alertRead 0 s else s

/-- The line block reports that a cage's source has become SEQUENCER (R14, R159). -/
def sequencerReport (c : Cage) (s : State) : State :=
  let k := s.cage c
  if k.state = .identify ∧ k.timers.initWait = none ∧ k.identReads = 0 then
    s.updCage c (fun k => { k with timers := k.timers.startInit s.openChoices })
  else s

/-! ### Identity reads (R15 to R18, R38, R39) -/

/-- Another identity read asked for, counted (R14, R15, R38, R39). -/
def readIdentity (c : Cage) (s : State) : State :=
  ask c .identityRead 0 (s.updCage c (fun k => { k with identReads := k.identReads + 1 }))

/-- The identity record a block makes (R17). -/
def identityOf (k : Settings) (block : List Byte) : Identity :=
  { lanes := blockLanes block, pm := blockPm block, serial := blockSerial block,
    draw := surgeDraw (blockPm block) k.surgeFactor }

/-- The identity record of a cage set. -/
def keepIdentity (c : Cage) (id : Identity) (s : State) : State :=
  s.updCage c (fun k => { k with identity := some id })

/-- Whether a block declares a possible lane count and Pm (R16, lines 1 and 2). -/
def contentPossible (block : List Byte) : Bool :=
  decide (1 ≤ blockLanes block ∧ blockLanes block ≤ 8 ∧ 1 ≤ blockPm block ∧ blockPm block ≤ 1000)

/-- A block checked for content in IDENTIFY (R16 to R18, R131). -/
def judgeContent (c : Cage) (block : List Byte) (s : State) : State :=
  let id := identityOf s.conf block
  if !contentPossible block then enterFaulted c .identInvalid s
  else if 10 * (s.cageConf c).maxWatts < id.pm then enterFaulted c .overClass (keepIdentity c id s)
  else moveCage c .admitWait .none (applyReseat c id.serial (keepIdentity c id s))

/-- An identity read that failed in IDENTIFY (R15). -/
def identityFailed (c : Cage) (cause : FaultCause) (s : State) : State :=
  if (s.cage c).identReads < 3 then readIdentity c s else enterFaulted c cause s

/-- An identity read of IDENTIFY ends (R15, R16).  A block with a bad check byte, whatever it declares, is
read again while fewer than three reads have been counted (R15, log entry 36); one with a good check byte
goes to the content checks. -/
def identityEnds (c : Cage) (outcome : LinkOutcome) (s : State) : State :=
  match outcome with
  | .done block =>
    if identityCheckGood block then judgeContent c block s
    else identityFailed c .identInvalid s
  | .noResponse => identityFailed c .identUnreadable s
  | .stretchTimeout => identityFailed c .identUnreadable s
  | .absent => s

/-- The ADOPTED record of a cage that leaves ADOPT (R38). -/
def handAdopted (c : Cage) (s : State) : State := handRecord c .adopted .adopt none s

/-- Whether a cage's latched PORT_ADMIT level is asserted. -/
def State.latchedAdmit (s : State) (c : Cage) : Bool :=
  match (s.line c).latched with
  | some l => l.portAdmit
  | none => false

/-- A cage whose adoption read succeeded placed by its latched PORT_ADMIT and its LINK_UP (R39). -/
def placeAdopted (c : Cage) (block : List Byte) (s : State) : State :=
  let id := identityOf s.conf block
  let s := handAdopted c (keepIdentity c id s)
  if s.latchedAdmit c && (s.line c).link then moveCage c .inService .none s
  else enterLightSettle c (adoptClaim c id.draw s)

/-- An adoption read that failed (R39). -/
def adoptionFailed (c : Cage) (s : State) : State :=
  if (s.cage c).identReads < 3 then readIdentity c s
  else enterFaulted c .linkError (handAdopted c s)

/-- An adoption identity read ends (R39). -/
def adoptionEnds (c : Cage) (outcome : LinkOutcome) (s : State) : State :=
  match outcome with
  | .done block =>
    if identityCheckGood block && contentPossible block then placeAdopted c block s
    else adoptionFailed c s
  | .noResponse => adoptionFailed c s
  | .stretchTimeout => adoptionFailed c s
  | .absent => s

/-- Whether a cage's latched LOWPOWER level is asserted. -/
def State.latchedLowPower (s : State) (c : Cage) : Bool :=
  match (s.line c).latched with
  | some l => l.lowPower
  | none => true

/-- The first look at a cage in ADOPT (R38). -/
def examineAdopted (c : Cage) (s : State) : State :=
  if !(s.line c).present then moveCage c .vacant .none (handAdopted c s)
  else if s.latchedLowPower c then enterIdentify c (handAdopted c s)
  else readIdentity c s

/-! ### Outcomes of CRS transactions (R4, R8, R9, R24) -/

/-- Whether an outcome is DONE. -/
def LinkOutcome.isDone : LinkOutcome → Bool
  | .done _ => true
  | .noResponse => false
  | .stretchTimeout => false
  | .absent => false

/-- The link failure count at an outcome other than ABSENT (R9). -/
def countFailure (c : Cage) (good : Bool) (s : State) : State :=
  let k := s.cage c
  if !k.state.powered then s
  else if good then s.updCage c (fun k => { k with linkFails := 0 })
  else
    let s := s.updCage c (fun k => { k with linkFails := k.linkFails + 1 })
    if 3 ≤ k.linkFails + 1 then enterFaulted c .linkError s else s

/-- An identity read's outcome in the visit that asked for it (R15, R39). -/
def actOnIdentity (c : Cage) (outcome : LinkOutcome) (s : State) : State :=
  match (s.cage c).state with
  | .identify => identityEnds c outcome s
  | .adopt => adoptionEnds c outcome s
  | _ => s

/-- The bytes of a DONE read as a status observation (R10). -/
def actOnStatus (c : Cage) (outcome : LinkOutcome) (s : State) : State :=
  match outcome with
  | .done bytes => observe c (observationOf false bytes) s
  | .noResponse => s
  | .stretchTimeout => s
  | .absent => s

/-- A tx-disable write that failed is asked for again while its value is wanted in a powered state (R8,
log entry 10). -/
def retryTx (c : Cage) (value : Byte) (s : State) : State :=
  let k := s.cage c
  if k.state.powered ∧ k.wantedTx = some value then ask c .txDisable value s else s

/-- A lane restart write that failed is asked for again in the visit to TRAIN that asked for it (R24). -/
def retryRestart (c : Cage) (q : CrsRequest) (s : State) : State :=
  let k := s.cage c
  if k.state = .train ∧ k.visit = q.visit then ask c .laneRestart q.value s else s

/-- What the CRS does with an outcome by its kind, the link failure count apart (R4). -/
def actOnOutcome (c : Cage) (q : CrsRequest) (outcome : LinkOutcome) (s : State) : State :=
  let current := decide ((s.cage c).visit = q.visit)
  match q.kind with
  | .identityRead => if current then actOnIdentity c outcome s else s
  | .readyPoll => if current then actOnStatus c outcome s else s
  | .alertRead => if current then actOnStatus c outcome s else s
  | .txDisable => if outcome.isDone then s else retryTx c q.value s
  | .laneRestart => if outcome.isDone then s else retryRestart c q s

/-- The outcome of a CRS transaction: an ABSENT one is discarded in every state (R7), every other one
moves the link failure count (R9), and one whose withdrawal was refused does no more (R7). -/
def crsOutcome (c : Cage) (q : CrsRequest) (discard : Bool) (outcome : LinkOutcome) (s : State) :
    State :=
  if outcome = .absent then s
  else
    let s := countFailure c outcome.isDone s
    if discard then s else actOnOutcome c q outcome s

/-! ### Requests served against a cage (R33 to R36) -/

/-- A HOLD (R33). -/
def holdCage (c : Cage) (s : State) : Result × State :=
  match (s.cage c).state with
  | .disabled => (.wrongState, s)
  | .adopt => (.wrongState, s)
  | .manualHold => (.done, s)
  | old => (.done, moveCage c .manualHold .none (handRecord c .manual old none s))

/-- An UNHOLD (R34). -/
def unholdCage (c : Cage) (s : State) : Result × State :=
  match (s.cage c).state with
  | .manualHold =>
    let s := zeroRetries c (handRecord c .manual .manualHold none s)
    if (s.line c).present then (.done, enterIdentify c s)
    else (.done, (moveCage c .vacant .none s).updCage c (fun k => { k with identity := none }))
  | _ => (.wrongState, s)

/-- A RETRY (R35). -/
def retryCage (c : Cage) (s : State) : Result × State :=
  match (s.cage c).state with
  | .faulted =>
    (.done, enterIdentify c (zeroRetries c (handRecord c .manual .faulted none s)))
  | _ => (.wrongState, s)

/-- A CLEAR-PENALTY (R36, R113). -/
def clearPenaltyOf (c : Cage) (s : State) : State :=
  let s := zeroPenalty c s
  if (s.cage c).state = .holdDown then enterRelight c s else s

/-! ### Timer expiries (R13, R14, R20 to R26) -/

/-- The debounce timer expires (R13). -/
def debounceEnds (c : Cage) (s : State) : State :=
  enterIdentify c (handRecord c .inserted .debounce none s)

/-- Whether the init wait of a cage in IDENTIFY runs (R14). -/
def State.initRuns (s : State) (c : Cage) : Bool :=
  decide ((s.cage c).state = .identify) && (s.cage c).timers.initWait.isSome

/-- The cages whose init waits were started at the event at which a cage's was, and run: they expire
together (R159). -/
def State.startedWith (s : State) (c : Cage) : List Cage :=
  allCages.filter (fun d =>
    s.initRuns d && decide ((s.cage d).timers.initStart = (s.cage c).timers.initStart))

/-- The init wait of a cage expires (R14). -/
def initWaitEnds (s : State) (c : Cage) : State :=
  readIdentity c (s.updCage c (fun k => { k with timers := k.timers.stopInit, identReads := 0 }))

/-- The init waits that expire together with a cage's, whose identity reads are thus presented together
(R14, R159). -/
def initWaitsEnd (c : Cage) (s : State) : State := (s.startedWith c).foldl initWaitEnds s

/-- The poll timer expires (R20). -/
def pollDue (c : Cage) (s : State) : State :=
  askPoll c (s.updCage c (fun k => { k with timers := { k.timers with poll := some 50 } }))

/-- Whether the latest sample record of a cage shows the far end dark (R25). -/
def State.farEndDark (s : State) (c : Cage) : Bool :=
  match (s.cageScan c).sample with
  | some r => r.entries.all LaneEntry.rxLost
  | none => false

/-- The train timer expires (R25). -/
def trainEnds (c : Cage) (s : State) : State :=
  if s.farEndDark c then moveCage c .darkWait .none s else trainingRetry c true s

/-- The verify timer expires (R26). -/
def verifyEnds (c : Cage) (s : State) : State :=
  moveCage c .inService .none (handRecord c .inService .verify none s)

end Sys2Proof.Machine
end

