-- ==== Sys2Proof/Machine/Judgement.lean ====
section
/-! DEFINITION. The window of an own intent and its judgement (R54 to R60), and the applications of
budget frames that judgements wait for (R55, R67). -/

namespace Sys2Proof.Machine

/-- The own intent with a tag, if the table holds one. -/
def State.intentOf (s : State) (tag : Tag) : Option OwnIntent :=
  s.claims.intents.find? (fun e => decide (e.tag = tag))

/-- The INTENT with a tag has left with a good receipt (R54): its claim is PENDING and its window is
open.  The entry goes to the end of the table, so that entries stand in the order in which their
windows opened (R56). -/
def openWindow (e : OwnIntent) (s : State) : State :=
  dueTest (setClaim e.cage .pending (s.updClaims (fun k =>
    { k with intents := k.intents.filter (fun f => decide (f.tag ≠ e.tag)) ++
        [{ e with deadline := some s.conf.window }] })))

/-- The length of a backoff: W × 2^k + N ms (R60). -/
def backoffLength (window withdraws : Nat) (station : Station) : Nat :=
  window * 2 ^ withdraws + station.val

/-- The effective level after a withdrawal (R47). -/
def agedLevel (pinned : Bool) (level : Nat) : Nat :=
  if pinned || decide (level ≤ 8) then level else level - 1

/-- A listed cage's claim record after a withdrawal: count, level and backoff (R47, R59, R60). -/
def Claim.withdrawn (k : Settings) (pinned : Bool) (station : Station) (r : Claim) : Claim :=
  let n := min 5 (r.withdraws + 1)
  { r with
    state := .none, withdraws := n, level := agedLevel pinned r.level,
    backoff := some (backoffLength k.window n station) }

/-- An own intent confirmed (R58): the claim, the committed total, the CONFIRM, the admission list, and
the cage's entry into POWER-UP (R5, R19).  No limit of its own is put on the total (R43, log entry
40). -/
def confirmIntent (e : OwnIntent) (s : State) : State :=
  let s := setClaim e.cage .confirmed (dropIntent e.tag s)
  let s := s.updClaims (fun k => { k with committed := k.committed + e.draw })
  let s := leaveList e.cage (queueFrame e.level (.confirm e.tag e.draw) s)
  if (s.cage e.cage).state = .admitWait then moveCage e.cage .powerUp .none s else s

/-- An own intent withdrawn (R59). -/
def withdrawIntent (e : OwnIntent) (s : State) : State :=
  let s := queueFrame e.level (.withdraw e.tag e.draw) (dropIntent e.tag s)
  let s :=
    if (s.claim e.cage).listed then
      s.updClaim e.cage (Claim.withdrawn s.conf (s.cageConf e.cage).pinned s.startup.station)
    else setClaim e.cage .none s
  dueTest s

/-- The judgement of an own PENDING entry (R57 to R59). -/
def judgeIntent (e : OwnIntent) (s : State) : State :=
  if s.confirmSum e ≤ s.conf.budget ∧ e.withdrawAtEnd = false then confirmIntent e s
  else withdrawIntent e s

/-- An entry whose deadline has passed and that waits for `n` applications (R55). -/
def OwnIntent.waitFor (n : Nat) (e : OwnIntent) : OwnIntent :=
  { e with deadline := none, noted := some n }

/-- The window timer of an entry expires (R55): judged at once where no budget frame waits, and
otherwise when the last of those that wait has been applied. -/
def windowEnds (e : OwnIntent) (s : State) : State :=
  match s.bus.budgetQueue.length with
  | 0 => judgeIntent e s
  | n + 1 => updIntent e.tag (OwnIntent.waitFor (n + 1)) s

/-- An application counted for an entry that waits for some (R55). -/
def OwnIntent.counted (e : OwnIntent) : OwnIntent := { e with noted := e.noted.map (· - 1) }

/-- The entries whose last noted frame has been applied, in the order in which their windows opened. -/
def State.judgeable (s : State) : List OwnIntent :=
  s.claims.intents.filter (fun e => decide (e.noted = some 0))

/-- The judgements that an application makes due (R55). -/
def judgeDue (s : State) : State :=
  let s := s.updClaims (fun k => { k with intents := k.intents.map OwnIntent.counted })
  s.judgeable.foldl (fun s e =>
    match s.intentOf e.tag with
    | some e => judgeIntent e s
    | none => s) s

/-- The oldest frame of the budget receive queue applied, and the judgements that waited for it (R55,
R67, R95). -/
def applyOldest (s : State) : State :=
  match s.bus.budgetQueue with
  | f :: rest =>
    judgeDue ((applyFrame f s).updBus (fun b => { b with budgetQueue := rest }))
  | [] => s

end Sys2Proof.Machine
end

