-- ==== Sys2Proof/Machine/Service.lean ====
section
/-! DEFINITION. The service unit (spec/08): the acceptance of a request, its checks, its effect and its
reply. -/

namespace Sys2Proof.Machine

/-! ### The form of a request (Table 8-1, R163) -/

/-- The request code of a request: the low four bits of byte 1. -/
def Request.codeNo (r : Request) : Nat := r.code.toNat % 16

/-- The cage of a request that names one: the high four bits of byte 1. -/
def Request.cage (r : Request) : Cage := Fin.ofNat 16 (r.code.toNat / 16)

/-- An argument of a request. -/
def Request.arg (r : Request) (i : Nat) : Nat := (byteAt r.args i).toNat

/-- Whether a request has the number of argument bytes Table 8-1 gives for its code. -/
def Request.countGood (r : Request) : Bool :=
  let n := r.args.length
  match r.codeNo with
  | 0 => n = 1
  | 1 => n = 2
  | 2 => n = 1
  | 3 => n = 1
  | 4 => n = 0
  | 5 => n = 0
  | 6 => n = 0
  | 7 => n = 0
  | 8 => n = 1
  | 9 => n = 2
  | 10 => decide (2 ≤ n) && decide (n ≤ 5)
  | 11 => n = 0
  | _ => false

/-- Whether the arguments of a request are in their ranges (R163). -/
def Request.rangeGood (r : Request) : Bool :=
  match r.codeNo with
  | 0 => decide (r.arg 0 ≤ 3)
  | 1 => decide (r.arg 0 ≤ 3) && decide (r.arg 1 ≤ 5)
  | 2 => decide (r.arg 0 ≤ 31)
  | 3 => decide (r.arg 0 ≤ 1)
  | 9 => decide (1 ≤ r.arg 1) && decide (r.arg 1 ≤ 6) && decide (r.arg 0 + r.arg 1 - 1 ≤ 255)
  | 10 => decide (r.arg 0 + (r.args.length - 1) - 1 ≤ 255)
  | _ => true

/-- Whether Table 8-1 marks a request as changing state. -/
def Request.changesState (r : Request) : Bool :=
  match r.codeNo with
  | 4 => true
  | 5 => true
  | 6 => true
  | 7 => true
  | 8 => true
  | 10 => true
  | 11 => true
  | _ => false

/-- The first check of R163 that a request fails, by its result; none where it passes the checks that
do not look at a cage. -/
def Request.judge (run : RunState) (r : Request) : Option Result :=
  if 12 ≤ r.codeNo then some .badArg
  else if !r.countGood then some .badArg
  else if !r.rangeGood then some .badArg
  else if r.changesState ∧ run = .listening then some .notReady
  else none

/-! ### Reply data (Table 8-3) -/

/-- The bytes of a serial from an index on; zeros where the cage has no identity record (R37). -/
def serialBytes (id : Option Identity) (start count : Nat) : List Byte :=
  match id with
  | some id => (List.range count).map (fun i => byteAt id.serial (start + i))
  | none => List.replicate count 0

/-- The data of a READ-CAGE part (R37, R165). -/
def cageData (s : State) (c : Cage) (part : Nat) : List Byte :=
  let k := s.cage c
  let claim := s.claim c
  let penalty := (s.penalty c).value
  let draw := match k.identity with | some id => id.draw | none => 0
  let pm := match k.identity with | some id => id.pm | none => 0
  match part with
  | 0 =>
    [nibbles k.state.code k.cause.code, byteOf (claim.state.code * 32 + claim.level),
     highByte penalty, lowByte penalty, highByte draw, lowByte draw]
  | 1 => [highByte pm, lowByte pm] ++ serialBytes k.identity 0 4
  | 2 => serialBytes k.identity 4 6
  | _ => serialBytes k.identity 10 6

/-- The data of a READ-PEER; the part's own entry reads as Unknown (R73, R167). -/
def State.peerReply (s : State) (n : Station) : List Byte :=
  peerData (if n = s.startup.station then unknownPeer else s.peer n)

/-- The data of a READ-HEALTH part (R101, R167). -/
def healthData (b : BusUnit) (part : Nat) : List Byte :=
  match part with
  | 0 =>
    [byteOf b.txErrors, byteOf b.rxErrors, byteOf b.health.code, byteOf b.lastError.code,
     highByte b.budgetLoss, lowByte b.budgetLoss]
  | _ =>
    [highByte b.denied, lowByte b.denied, highByte b.serviceOverflow, lowByte b.serviceOverflow,
     highByte b.reportDrop, lowByte b.reportDrop]

/-! ### Serving (R162 to R171) -/

/-- The service unit in a phase with a request. -/
def setService (phase : ServicePhase) (request : Option Request) (s : State) : State :=
  { s with service := { s.service with phase := phase, request := request } }

/-- A REPLY handed over, and REPLYING entered (R162, R164). -/
def answer (r : Request) (result : Result) (data : List Byte) (s : State) : State :=
  setService .replying (some r) (queueFrame 16 (.reply r.code (byteOf result.code) data) s)

/-- The answer to a request against a cage: the result and the cage's state code after it (R168). -/
def answerCage (r : Request) (c : Cage) (outcome : Result × State) : State :=
  answer r outcome.1 [byteOf (outcome.2.cage c).state.code] outcome.2

/-- A READ-HEALTH served; part 0 sets the last bus error to NONE (R101, R167). -/
def serveHealth (r : Request) (s : State) : State :=
  let data := healthData s.bus (r.arg 0)
  let s := if r.arg 0 = 0 then s.updBus (BusUnit.noteError .none) else s
  answer r .done data s

/-- A SET-CEILING served (R48, R169). -/
def serveCeiling (r : Request) (s : State) : State :=
  let ceiling := min 32 (r.arg 0)
  answer r .done [byteOf ceiling] (dueTest (s.updClaims (fun k => { k with ceiling := ceiling })))

/-- A pass-through presented to the arbiter of its cage (R119, R170): carried where the module is
present, and answered ABSENT where it is not. -/
def presentPassThrough (r : Request) (t : LinkRequest) (s : State) : State :=
  if (s.line t.cage).present then
    setService .carrying (some r) (putRequest (segOf t.cage) .passThrough t s)
  else answer r .absent [] s

/-- Whether a pass-through write covers address 120 or 121 (R130). -/
def coversControl (address length : Nat) : Bool :=
  decide (address ≤ 121) && decide (120 < address + length)

/-- Whether the arbiter refuses a pass-through write (R130). -/
def State.refusesWrite (s : State) (c : Cage) (address length : Nat) : Bool :=
  coversControl address length &&
  match (s.cage c).state with
  | .faulted => false
  | .manualHold => false
  | _ => true

/-- A MODULE-WRITE served (R130, R170).  Which of the two checks at its presentation comes first is
open (log entry 11). -/
def serveWrite (r : Request) (s : State) : State :=
  let c := r.cage
  let data := r.args.drop 1
  if s.refusesWrite c (r.arg 0) data.length then
    if (s.line c).present || !Config.presentFirst s.openChoices then answer r .wrongState [] s
    else answer r .absent [] s
  else presentPassThrough r (writeRequest .passThrough c (r.arg 0) data) s

/-- A RESTART served (R171). -/
def serveRestart (r : Request) (s : State) : State :=
  let s := answer r .done [] s
  { s with service := { s.service with phase := .restartPending, restartTimer := some 100 } }

/-- A request that passes the checks of R163 carried out (R165 to R171). -/
def carryOut (r : Request) (s : State) : State :=
  match r.codeNo with
  | 0 => answer r .done (cageData s r.cage (r.arg 0)) s
  | 1 => answer r .done (eventData s r.cage (r.arg 0) (r.arg 1)) s
  | 2 => answer r .done (s.peerReply (Fin.ofNat 32 (r.arg 0))) s
  | 3 => serveHealth r s
  | 4 => answerCage r r.cage (holdCage r.cage s)
  | 5 => answerCage r r.cage (unholdCage r.cage s)
  | 6 => answerCage r r.cage (retryCage r.cage s)
  | 7 => answerCage r r.cage (.done, clearPenaltyOf r.cage s)
  | 8 => serveCeiling r s
  | 9 =>
    presentPassThrough r (readRequest .passThrough r.cage (r.arg 0) (r.arg 1)) s
  | 10 => serveWrite r s
  | _ => serveRestart r s

/-- A request taken and served (R162, R163). -/
def serveRequest (r : Request) (s : State) : State :=
  match r.judge s.startup.runState with
  | some result => answer r result [] s
  | none => carryOut r s

/-- The oldest request of the service receive queue taken and served, or IDLE where there is none
(R162). -/
def serveNext (s : State) : State :=
  match s.bus.serviceQueue with
  | r :: rest => serveRequest r (s.updBus (fun b => { b with serviceQueue := rest }))
  | [] => setService .idle none s

/-- A REQUEST that passed the acceptance check enters the service receive queue, and is taken at once
where the service unit is IDLE (R88, R162). -/
def acceptRequest (r : Request) (s : State) : State :=
  if s.bus.serviceQueue.length < 4 then
    let s := s.updBus (fun b => { b with serviceQueue := b.serviceQueue ++ [r] })
    if s.service.phase = .idle then serveNext s else s
  else s.updBus (fun b => { b with serviceOverflow := satAdd 65535 b.serviceOverflow 1 })

/-- The acceptance check of a REQUEST for the part (R88). -/
def checkRequest (source : Station) (r : Request) (s : State) : State :=
  if sourceMatches s.conf source then acceptRequest r s
  else s.updBus (fun b => { b with denied := satAdd 65535 b.denied 1 })

/-- The outcome of a pass-through as a result (R170). -/
def LinkOutcome.result : LinkOutcome → Result
  | .done _ => .done
  | .noResponse => .linkFail
  | .stretchTimeout => .linkFail
  | .absent => .absent

/-- The bytes an outcome delivers. -/
def LinkOutcome.bytes : LinkOutcome → List Byte
  | .done bytes => bytes
  | .noResponse => []
  | .stretchTimeout => []
  | .absent => []

/-- The arbiter answers the pass-through request carried (R170). -/
def passOutcome (outcome : LinkOutcome) (s : State) : State :=
  match s.service.phase, s.service.request with
  | .carrying, some r => answer r outcome.result outcome.bytes s
  | _, _ => s

end Sys2Proof.Machine
end

