-- ==== Sys2Proof/Machine/Outcomes.lean ====
section
/-! DEFINITION. The outcomes of the arbiters on their way to their requesters (R118, R125, R138, R142),
and what comes at the end of every event: the end of ADOPTING, the requests handed to the arbiters, the
slots of the scanners, the grants, and the queue-time test. -/

namespace Sys2Proof.Machine

/-! ### The scanner's outcome (R138, R139, R142) -/

/-- The second hand-on of a completed scan (R142): the windows, then the verdict. -/
def handLanes (cur : Cursor) (bytes : List Byte) (s : State) : State :=
  let s := fillWindows cur.cage cur.lanes bytes s
  takeLaneVerdict cur.cage (s.laneVerdict cur.cage cur.lanes) s

/-- Whether a cage has entered LIGHT-SETTLE, which has its windows cleared (R22, R143). -/
def startsSettling (c : Cage) (before after : State) : Bool :=
  decide ((before.cage c).state ≠ .lightSettle) && decide ((after.cage c).state = .lightSettle)

/-- A completed scan (R138, R142): the record, then the observation, then the windows and the verdict,
whatever state the observation has left the cage in, and the scan is over.  Where the observation takes
the cage to LIGHT-SETTLE and so has the windows cleared, the sample joins none of the new run: it was
taken before the transmitters were enabled (R22, R139, R143; DEDUCED, log entry 22). -/
def completeScan (g : Seg) (cur : Cursor) (bytes : List Byte) (s : State) : State :=
  let kept := keepSample cur.cage cur.lanes bytes s
  let seen := observe cur.cage (observationOf true bytes) kept
  let ended := seen.updScanner g (Scanner.ended .idle)
  if startsSettling cur.cage s seen then ended else handLanes cur bytes ended

/-- A chunk of the scan in progress ends DONE (R138). -/
def advanceScan (g : Seg) (cur : Cursor) (data : List Byte) (s : State) : State :=
  let bytes := (s.scanner g).sampleBytes ++ data
  if cur.index + 1 < (scanPlan cur.lanes).length then
    presentScan g { cur with index := cur.index + 1 }
      (s.updScanner g (fun n => { n with sampleBytes := bytes }))
  else completeScan g cur bytes s

/-- The outcome of the scanner's chunk (R138, R139). -/
def scanOutcome (g : Seg) (outcome : LinkOutcome) (s : State) : State :=
  match (s.scanner g).phase, (s.scanner g).cursor, outcome with
  | .scanning, some cur, .done data => advanceScan g cur data s
  | .idle, _, _ => s
  | _, _, _ => s.updScanner g (Scanner.ended .idle)

/-- An outcome handed to its requester (R118). -/
def deliver (s : State) (e : Ended) : State :=
  match e.request.origin with
  | .crs q discard => crsOutcome e.request.cage q discard e.outcome s
  | .passThrough => passOutcome e.outcome s
  | .scanner => scanOutcome (segOf e.request.cage) e.outcome s

/-- What an arbiter's step leaves, with the outcomes it reports handed on in order. -/
def deliverAll (r : State × List Ended) : State := r.2.foldl deliver r.1

/-! ### The end of an event -/

/-- Whether a cage is left in ADOPT. -/
def State.anyAdopt (s : State) : Bool :=
  allCages.any (fun c => decide ((s.cage c).state = .adopt))

/-- ADOPTING ends at the event at which no cage is left in ADOPT (R189). -/
def endAdopting (s : State) : State :=
  if s.startup.runState = .adopting ∧ s.anyAdopt = false then
    s.updStartup (fun u => { u with runState := .listening, listenTicks := 0 })
  else s

/-- What every event ends with (log entry 12): the end of ADOPTING (R189), the requests handed to the
arbiters (R7), the slots of the scanners (R136), the grants (R121), and the queue-time test if an
event of R52 has happened.  Every request that the event has brought about is with the arbiters before
they choose, so that reads presented together (R159) are granted by level and cage number (R121). -/
def finish (s : State) : State :=
  let s := allCages.foldl pumpCage (endAdopting s)
  let s := startSlot 1 (startSlot 0 s)
  runDueTest (grantSegment 1 (grantSegment 0 s))

/-- An event: where the part is not held in a reset and the event occurs in this state, its effect and
what every event ends with; otherwise nothing (log entry 13).  Each event that occurs has choices of
its own (log entry 1). -/
def event (occurs : Bool) (effect : State → State) (s : State) : State :=
  if s.startup.resetHeld = false ∧ occurs = true then (finish (effect s)).nextChoice else s

/-- The outcome of a command that is an event. -/
def eventNext (occurs : Bool) (effect : State → State) (s : State) :
    Host.Outcome State Fault Refusal :=
  .next (event occurs effect s)

end Sys2Proof.Machine
end

