-- ==== Sys2Proof/Machine/Startup.lean ====
section
/-! DEFINITION. The start-up and configuration block (spec/10): the resets, the load, the listen
interval, and the Restart. -/

namespace Sys2Proof.Machine

/-! ### Resets (R180) -/

/-- The part held in a reset: every block at its reset values (R180).  The raw pins are the
environment's, and the queue of commands and the count of choices are the model's. -/
def heldInReset (s : State) : State :=
  { State.reset with
    pending := s.pending, openChoices := s.openChoices,
    lines := s.lines.map (fun l => resetLines l.presentRaw l.linkRaw) }

/-- The release of a reset (R180): the straps latched, station time 0, LOADING, the start delay of
13 ms.  The input filters take PRESENT and LINK_UP afresh (R151, log entry 23); ALERT is compared with
nothing here (R154; DESIGN CHOICE, log entry 37). -/
def releaseReset (station : Station) (profile : Fin 4) (s : State) : State :=
  { s with
    lines := s.lines.map CageLines.startFilters,
    startup :=
      { resetHeld := false, runState := .loading, loadPhase := .startDelay, startDelay := some 13,
        station := station, profile := profile, settings := none, listenTicks := 0,
        stationTime := 0 } }

/-! ### The load (R181, R185) -/

/-- The start delay expires (R181). -/
def beginRead (s : State) : State :=
  s.updStartup (fun u => { u with loadPhase := .read1, startDelay := none })

/-- The parameter set in force at a load (R185), with the blocks that take it as a whole: the claim
levels (R40), the decay tick timer (R106), the converter (R145) and the announce timer (R86). -/
def installSettings (k : Settings) (s : State) : State :=
  { s with
    startup := { s.startup with
      runState := .listening, loadPhase := .done, settings := some k, listenTicks := 0 },
    claims := { s.claims with
      claims := Vector.ofFn (fun c : Cage => { s.claims.claims[c] with level := k.cages[c].level }) },
    penalties := { s.penalties with decay := some k.decayPeriod },
    scan := { s.scan with converting := true, channel := 0 },
    bus := { s.bus with announce := some k.announce } }

/-- A cage at the load (R12). -/
def loadCage (s : State) (c : Cage) : State :=
  if !(s.cageConf c).enabled then moveCage c .disabled .none s
  else if (s.line c).present then moveCage c .debounce .none s
  else s

/-- The configuration is loaded (R185); the cages are taken in an open order (log entry 1). -/
def loadSettings (k : Settings) (s : State) : State :=
  (s.openOrder allCages).foldl loadCage (installSettings k s)

/-- A read of the image ends (R181 to R184). -/
def readEnds (image : List Byte) (s : State) : State :=
  if imageGood image then loadSettings (imageSettings image) s
  else
    match s.startup.loadPhase with
    | .read1 => s.updStartup (fun u => { u with loadPhase := .read2 })
    | .read2 => loadSettings (profileSettings s.startup.profile) s
    | .startDelay => s
    | .done => s

/-! ### The listen interval (R186, R187) -/

/-- HELD lifted from a cage, with the report of R159 where its source becomes SEQUENCER (R156). -/
def liftHeld (s : State) (c : Cage) : State :=
  if (s.line c).source = .held then
    let s := s.updLines c CageLines.lift
    if s.underSequencer c then sequencerReport c s else s
  else s

/-- The listen interval ends (R187): RUNNING, HELD lifted, and the queue-time test due. -/
def endListening (s : State) : State :=
  let s := s.updStartup (fun u => { u with runState := .running, listenTicks := 2 })
  dueTest (allCages.foldl liftHeld s)

/-- An announce tick taken by the start-up block (R186). -/
def listenTick (s : State) : State :=
  if s.startup.runState = .listening then
    if 1 ≤ s.startup.listenTicks then endListening s
    else s.updStartup (fun u => { u with listenTicks := u.listenTicks + 1 })
  else s

/-- An announce tick (R86): the STATUS, the ageing of the peer entries (R72), the queue-time test and
the listen tick count (R186). -/
def announce (s : State) : State :=
  let period := s.conf.announce
  let s := s.updBus (fun b => { b.tickStatus with announce := some period })
  listenTick (dueTest (tickPeers s))

/-! ### The Restart (R188) -/

/-- Whether a module holds the clock of a segment. -/
def clockHeldOn (k : ClockHold) (g : Seg) : Bool := if g = 0 then k.a else k.b

/-- The lines of an enabled cage latched at a Restart (R157). -/
def latchEnabled (s : State) (c : Cage) : State :=
  if (s.cageConf c).enabled then latchLines c s else s

/-- The sequencer's record of a cage at a Restart (R2). -/
def CageRecord.atRestart (enabled : Bool) (k : CageRecord) : CageRecord :=
  { resetCageRecord with state := if enabled then .adopt else .disabled, visit := k.visit + 1 }

/-- The blocks cleared at a Restart, and ADOPTING entered (R188, R74, R86, R128, R134, R161). -/
def clearBlocks (clocks : ClockHold) (s : State) : State :=
  { s with
    startup := { s.startup with runState := .adopting, listenTicks := 0 },
    cages := Vector.ofFn (fun c : Cage => s.cages[c].atRestart (s.cageConf c).enabled),
    claims := resetClaims (Vector.ofFn (fun c : Cage => resetClaim (s.cageConf c).level)),
    peers := Vector.replicate 32 unknownPeer,
    bus := s.bus.atRestart s.conf.announce,
    links := Vector.ofFn (fun g : Seg => s.links[g].atRestart (clockHeldOn clocks g)),
    scan := s.scan.atRestart,
    service := resetService }

/-- The first look at a cage after a Restart, if it is in ADOPT (R38). -/
def examineCage (s : State) (c : Cage) : State :=
  if (s.cage c).state = .adopt then examineAdopted c s else s

/-- A Restart taken (R188): the lines latched at the levels they carry, the blocks cleared, and the
cages examined in an open order (R38, log entry 1). -/
def takeRestart (clocks : ClockHold) (s : State) : State :=
  (s.openOrder allCages).foldl examineCage (clearBlocks clocks (allCages.foldl latchEnabled s))

end Sys2Proof.Machine
end

