-- ==== Sys2Proof/Machine/Attempts.lean ====
section
/-! DEFINITION. The bus interface at work (R77 to R81, R87, R91 to R100): the start and the ends of an
attempt, receptions and errors, and the return from SILENT. -/

namespace Sys2Proof.Machine

/-! ### The start of an attempt (R91) -/

/-- The frame at an index of the transmit queue, changed. -/
def BusUnit.updFrame (i : Nat) (f : TxFrame → TxFrame) (b : BusUnit) : BusUnit :=
  { b with txQueue := b.txQueue.modify i f }

/-- A frame as its attempt begins; a STATUS takes its content then (R65, R87). -/
def TxFrame.begin (content : StatusContent) (f : TxFrame) : TxFrame :=
  { f with mark := .attempting, body := if f.body.isStatus then .status content else f.body }

/-- The frame an idle bus would see attempted next (R91): none while an attempt is under way, or
where no frame is eligible. -/
def State.nextFrame (s : State) : Option Nat :=
  match attemptIx s.bus.txQueue with
  | some _ => none
  | none => bestFrame s.startup.station s.bus.health 0 none s.bus.txQueue

/-- An attempt begins (R91). -/
def beginAttempt (s : State) : State :=
  match s.nextFrame with
  | some i => s.updBus (BusUnit.updFrame i (TxFrame.begin s.statusContent))
  | none => s

/-! ### The ends of an attempt (R78, R87, R93) -/

/-- The frame under attempt. -/
def State.underAttempt (s : State) : Option (Nat × TxFrame) :=
  match attemptIx s.bus.txQueue with
  | some i => (s.bus.txQueue[i]?).map (fun f => (i, f))
  | none => none

/-- The frame at an index taken out of the transmit queue. -/
def BusUnit.remove (i : Nat) (b : BusUnit) : BusUnit := { b with txQueue := b.txQueue.eraseIdx i }

/-- What stays in the queue for a frame that ended with a good receipt: a renewed STATUS (R87), or the
follow-on of a CAGE-REPORT (R93), each with the event as its queue time. -/
def renewal (renew : Bool) (f : TxFrame) : List TxFrame :=
  match f.body, f.followOn with
  | .status _, _ => if renew then [newFrame 31 blankStatus] else []
  | .cageReport _, some k => [newFrame k.level (.cageReport k.report)]
  | _, _ => []

/-- The queue after a good receipt (R78, R87, R93).  A STATUS sent is the first since a Restart (R188). -/
def BusUnit.sent (i : Nat) (f : TxFrame) (b : BusUnit) : BusUnit :=
  { b with
    txQueue := b.txQueue.eraseIdx i ++ renewal b.statusRenew f,
    statusRenew := if f.body.isStatus then false else b.statusRenew,
    afterRestart := if f.body.isStatus then false else b.afterRestart }

/-- A frame that waits again after a lost arbitration or an error: a RELEASE carries the whole
release-pending amount (R44), and the follow-on of a CAGE-REPORT takes its place (R93). -/
def TxFrame.again (pending : Nat) (f : TxFrame) : TxFrame :=
  match f.body, f.followOn with
  | .release _, _ => { f with mark := .waiting, body := .release pending }
  | .cageReport _, some k =>
    { level := k.level, body := .cageReport k.report, mark := .waiting, followOn := none }
  | _, _ => { f with mark := .waiting }

/-- The queue after a lost arbitration or an error (R78, R87, R93). -/
def BusUnit.kept (pending i : Nat) (f : TxFrame) (b : BusUnit) : BusUnit :=
  { b.updFrame i (TxFrame.again pending) with
    statusRenew := if f.body.isStatus then false else b.statusRenew }

/-- The good receipt of the service unit's REPLY (R162, R171). -/
def replySent (clocks : ClockHold) (s : State) : State :=
  match s.service.phase with
  | .replying => serveNext s
  | .restartPending => takeRestart clocks s
  | .idle => s
  | .carrying => s

/-- A good receipt reported to the block that waits for it (R78). -/
def reportSent (clocks : ClockHold) (body : FrameBody) (s : State) : State :=
  match body with
  | .intent _ tag _ =>
    match s.intentOf tag with
    | some e => openWindow e s
    | none => s
  | .confirm _ _ => dueTest s
  | .withdraw _ _ => dueTest s
  | .release amount => releaseSent amount s
  | .reply _ _ _ => replySent clocks s
  | .status _ => s
  | .cageReport _ => s
  | .request _ _ _ => s

/-- A lost arbitration or an error reported to the claim unit (R54): an INTENT marked during its
attempt is cancelled. -/
def reportKept (body : FrameBody) (s : State) : State :=
  match body with
  | .intent _ tag _ =>
    match s.intentOf tag with
    | some e => if e.withdrawAtEnd then cancelIntent e s else s
    | none => s
  | _ => s

/-- The attempt under way ends with a good receipt (R78); a frame detached by a Restart leaves the
queue and nothing else happens (R74). -/
def attemptSent (clocks : ClockHold) (s : State) : State :=
  match s.underAttempt with
  | some (i, f) =>
    if f.mark = .detached then s.updBus (BusUnit.remove i)
    else reportSent clocks f.body (judgeHealth (s.updBus (fun b => (b.sent i f).txGood)))
  | none => s

/-- The attempt under way loses arbitration (R77). -/
def attemptLost (s : State) : State :=
  match s.underAttempt with
  | some (i, f) =>
    if f.mark = .detached then s.updBus (BusUnit.remove i)
    else reportKept f.body (s.updBus (BusUnit.kept s.claims.releasePending i f))
  | none => s

/-- The attempt under way ends by an error (R79, R96). -/
def attemptFailed (e : TxError) (s : State) : State :=
  match s.underAttempt with
  | some (i, f) =>
    let s := s.updBus (BusUnit.noteError (txBusError e))
    if f.mark = .detached then s.updBus (BusUnit.remove i)
    else
      let s := reportKept f.body (s.updBus (BusUnit.kept s.claims.releasePending i f))
      judgeHealth (s.updBus BusUnit.txFailed)
  | none => s

/-! ### Receptions (R79 to R81, R95) -/

/-- A receive error detected (R79, R96). -/
def receptionFailed (e : RxError) (s : State) : State :=
  judgeHealth ((s.updBus (BusUnit.noteError (rxBusError e))).updBus BusUnit.rxFailed)

/-- A budget frame at the budget receive queue; at a full one it is lost (R95, R63). -/
def takeBudgetFrame (f : Frame) (s : State) : State :=
  if s.bus.budgetQueue.length < 16 then
    s.updBus (fun b => { b with budgetQueue := b.budgetQueue ++ [f] })
  else enterBlind (s.updBus (fun b => { b with budgetLoss := satAdd 65535 b.budgetLoss 1 }))

/-- A good reception routed by its kind and its source (R81). -/
def routeFrame (f : Frame) (s : State) : State :=
  if f.source = s.startup.station then s
  else
    match f.body with
    | .intent _ _ _ => takeBudgetFrame f s
    | .confirm _ _ => takeBudgetFrame f s
    | .withdraw _ _ => takeBudgetFrame f s
    | .release _ => takeBudgetFrame f s
    | .status _ => takeBudgetFrame f s
    | .request target code args =>
      if target = s.startup.station then checkRequest f.source ⟨code, args⟩ s else s
    | .reply _ _ _ => s
    | .cageReport _ => s

/-- A good reception (R81, R96). -/
def receptionGood (f : Frame) (s : State) : State :=
  routeFrame f (judgeHealth (s.updBus BusUnit.rxGood))

/-- A frame that has come to its end on the wire, as the part judges it (R79 to R81). -/
def receive (raw : RawFrame) (s : State) : State :=
  match decodeFrame (Config.checkFirst s.openChoices) raw with
  | .ok f => receptionGood f s
  | .error e => receptionFailed e s

/-! ### The return from SILENT (R99, R100) -/

/-- SILENT ends where the bus is seen idle (R99). -/
def beginRecovery (s : State) : State :=
  s.updBus (fun b => { b with health := .recovering, gapCount := 0 })

/-- The recovery gap count reaches 48 (R100), which runs the queue-time test (R97). -/
def endRecovery (s : State) : State :=
  dueTest (s.updBus (fun b => { b.recovered with gapCount := 48 }))

/-- A recovery gap counted (R100). -/
def countGap (s : State) : State :=
  if 47 ≤ s.bus.gapCount then endRecovery s
  else s.updBus (fun b => { b with gapCount := b.gapCount + 1 })

end Sys2Proof.Machine
end

