-- ==== Sys2Proof/Machine/ResetCommands.lean ====
section
/-! DEFINITION. The meanings of the resets, the start-up events and the station time tick (spec/10). -/

namespace Sys2Proof.Machine

/-- POWER_ON_RESET (R180): every block at its reset values, whatever the state. -/
def execPowerOnReset (s : State) : Host.Outcome State Fault Refusal := .next (heldInReset s)

/-- PIN_RESET (R180): the same effect as a power-on reset. -/
def execPinReset (s : State) : Host.Outcome State Fault Refusal := .next (heldInReset s)

/-- RESET_RELEASE (R180): the release of a reset that holds the part, with the levels of the straps. -/
def execResetRelease (station : Station) (profile : Fin 4) (s : State) :
    Host.Outcome State Fault Refusal :=
  .next (if s.startup.resetHeld then releaseReset station profile s else s)

/-- STATION_TIME_TICK (R179): station time rises by 1 and wraps. -/
def execStationTimeTick (s : State) : Host.Outcome State Fault Refusal :=
  eventNext true (fun s => s.updStartup (fun u => { u with stationTime := u.stationTime + 1 })) s

/-- START_DELAY_EXPIRY (R181): READ-1 begins. -/
def execStartDelayExpiry (s : State) : Host.Outcome State Fault Refusal :=
  eventNext (s.startup.loadPhase = .startDelay && s.startup.startDelay.isSome) beginRead s

/-- A read on the SPI port: the command byte and the address that the part sends, and the number of bytes
it then clocks in (R181). -/
structure SpiRead where
  command : Byte
  address : BitVec 16
  length  : Nat
deriving DecidableEq, Repr

/-- The read of the configuration image (R181): command 0x03 from address 0x0000, 96 bytes. -/
def imageRead : SpiRead := ⟨0x03, 0x0000, 96⟩

/-- The bytes the part sends at the start of a read, the address most significant byte first (R181). -/
def SpiRead.sent (r : SpiRead) : List Byte :=
  [r.command, highByte r.address.toNat, lowByte r.address.toNat]

/-- The clock periods a read takes at 8 for each byte sent or clocked in (R181). -/
def SpiRead.clocks (r : SpiRead) : Nat := (r.sent.length + r.length) * 8

/-- The read under way on the SPI port, in READ-1 and READ-2 alone (R181). -/
def State.spiRead (s : State) : Option SpiRead :=
  match s.startup.loadPhase with
  | .read1 => some imageRead
  | .read2 => some imageRead
  | .startDelay => none
  | .done => none

/-- Whether the memory's select line is asserted: while a read is under way (R181).  Between a rejected
first read and the second it goes through deasserted within the one event (log entry 30). -/
def State.memorySelected (s : State) : Bool := s.spiRead.isSome

/-- SPI_READ_END (R181): the bytes clocked in while the memory is selected are checked, then used, read
again, or replaced by the profile defaults. -/
def execSpiReadEnd (image : List Byte) (s : State) : Host.Outcome State Fault Refusal :=
  eventNext s.memorySelected (readEnds image) s

end Sys2Proof.Machine
end

