-- ==== Sys2Proof/Machine/LineCommands.lean ====
section
/-! DEFINITION. The meanings of the events of the cage lines and of the current-sense converter
(spec/07, spec/06). -/

namespace Sys2Proof.Machine

/-- PRESENT_RAW_CHANGE (R152).  While a reset holds the part only the pin moves. -/
def execPresentRawChange (c : Cage) (level : Bool) (s : State) : Host.Outcome State Fault Refusal :=
  if s.startup.resetHeld then .next (s.updLines c (fun l => { l with presentRaw := level }))
  else eventNext true (fun s => s.updLines c (CageLines.presentChange level)) s

/-- Whether a cage's PRESENT hold timer can expire. -/
def State.presentDue (s : State) (c : Cage) : Bool :=
  (s.line c).presentHold.isSome && (s.line c).presentRaw != (s.line c).present

/-- The taken level of PRESENT changes (R152): an assertion goes to the sequencer, a removal to the
arbiter and the sequencer.  R152 lets either take the removal first; here the arbiter does (DESIGN CHOICE,
log entry 41). -/
def takePresent (c : Cage) (moment : RemovalMoment) (s : State) : State :=
  let s := s.updLines c CageLines.presentTaken
  if (s.line c).present then presentAsserted c s
  else presentDeasserted c (deliverAll (linkRemoval c moment s))

/-- PRESENT_HOLD_EXPIRY (R152). -/
def execPresentHoldExpiry (c : Cage) (moment : RemovalMoment) (s : State) :
    Host.Outcome State Fault Refusal :=
  eventNext (s.presentDue c) (takePresent c moment) s

/-- LINK_UP_RAW_CHANGE (R153).  While a reset holds the part only the pin moves. -/
def execLinkUpRawChange (c : Cage) (level : Bool) (s : State) : Host.Outcome State Fault Refusal :=
  if s.startup.resetHeld then .next (s.updLines c (fun l => { l with linkRaw := level }))
  else eventNext true (fun s => s.updLines c (CageLines.linkChange level)) s

/-- Whether a cage's LINK_UP hold timer can expire. -/
def State.linkDue (s : State) (c : Cage) : Bool :=
  (s.line c).linkHold.isSome && (s.line c).linkRaw != (s.line c).link

/-- The taken level of LINK_UP changes (R153). -/
def takeLink (c : Cage) (s : State) : State :=
  let s := s.updLines c CageLines.linkTaken
  if (s.line c).link then linkAsserted c s else linkDeasserted c s

/-- LINK_UP_HOLD_EXPIRY (R153). -/
def execLinkUpHoldExpiry (c : Cage) (s : State) : Host.Outcome State Fault Refusal :=
  eventNext (s.linkDue c) (takeLink c) s

/-- ALERT_EDGE (R154): a change of ALERT from deasserted to asserted.  The model holds no raw level of
ALERT, so that of a line asserted by the release of a reset the edge is the one sent after the release
(DESIGN CHOICE, log entry 37). -/
def execAlertEdge (c : Cage) (s : State) : Host.Outcome State Fault Refusal :=
  eventNext (!(s.line c).alert)
    (fun s => takeAlert c (s.updLines c (fun l => { l with alert := true }))) s

/-- ALERT_DEASSERTION (R154): the last level seen, handed to no block. -/
def execAlertDeassertion (c : Cage) (s : State) : Host.Outcome State Fault Refusal :=
  eventNext (s.line c).alert (fun s => s.updLines c (fun l => { l with alert := false })) s

/-- A conversion with its verdicts, overdraw first (R147, R148, log entry 14). -/
def takeConversion (code : BitVec 10) (s : State) : State :=
  let c := s.scan.channel
  let s := convertChannel c code s
  let s := if s.overdrawn c then takeOverdraw c s else s
  takeSettledVerdict c (s.settledVerdict c) s

/-- CURRENT_SENSE_CONVERSION (R145). -/
def execCurrentSenseConversion (code : BitVec 10) (s : State) : Host.Outcome State Fault Refusal :=
  eventNext s.scan.converting (takeConversion code) s

end Sys2Proof.Machine
end

