-- ==== Sys2Proof/Machine/TimerCommands.lean ====
section
/-! DEFINITION. The meanings of the expiries of the cage timers (Table 1-3). -/

namespace Sys2Proof.Machine

/-- DEBOUNCE_TIMER_EXPIRY (R13). -/
def execDebounceTimerExpiry (c : Cage) (s : State) : Host.Outcome State Fault Refusal :=
  eventNext ((s.cage c).state = .debounce && (s.cage c).timers.debounce.isSome) (debounceEnds c) s

/-- INIT_WAIT_EXPIRY (R14).  Init waits that were started at one event expire together, so that the
command of any of them ends them all (R159, log entry 38). -/
def execInitWaitExpiry (c : Cage) (s : State) : Host.Outcome State Fault Refusal :=
  eventNext (s.initRuns c) (initWaitsEnd c) s

/-- POLL_TIMER_EXPIRY (R20). -/
def execPollTimerExpiry (c : Cage) (s : State) : Host.Outcome State Fault Refusal :=
  eventNext ((s.cage c).state = .powerUp && (s.cage c).timers.poll.isSome) (pollDue c) s

/-- READY_TIMER_EXPIRY (R21). -/
def execReadyTimerExpiry (c : Cage) (s : State) : Host.Outcome State Fault Refusal :=
  eventNext ((s.cage c).state = .powerUp && (s.cage c).timers.ready.isSome)
    (enterFaulted c .readyTimeout) s

/-- SETTLE_TIMER_EXPIRY (R22, R30). -/
def execSettleTimerExpiry (c : Cage) (s : State) : Host.Outcome State Fault Refusal :=
  eventNext ((s.cage c).state.settling && (s.cage c).timers.settle.isSome)
    (enterFaulted c .noLight) s

/-- TRAIN_TIMER_EXPIRY (R25). -/
def execTrainTimerExpiry (c : Cage) (s : State) : Host.Outcome State Fault Refusal :=
  eventNext ((s.cage c).state = .train && (s.cage c).timers.train.isSome) (trainEnds c) s

/-- VERIFY_TIMER_EXPIRY (R26). -/
def execVerifyTimerExpiry (c : Cage) (s : State) : Host.Outcome State Fault Refusal :=
  eventNext ((s.cage c).state = .verify && (s.cage c).timers.verify.isSome) (verifyEnds c) s

end Sys2Proof.Machine
end

