-- ==== Sys2Proof/Machine/LinkCommands.lean ====
section
/-! DEFINITION. The meanings of the events of the management segments and of the scanners' slot timers
(spec/05, spec/06). -/

namespace Sys2Proof.Machine

/-- Whether a try of a segment's chunk is on the wire. -/
def State.trying (s : State) (g : Seg) : Bool :=
  decide ((s.link g).state = .chunk) && (s.link g).chunk.isSome

/-- Whether a try on the wire can complete with these bytes: a read brings its chunk's length. -/
def State.canComplete (s : State) (g : Seg) (data : List Byte) : Bool :=
  match (s.link g).chunk with
  | some k => decide ((s.link g).state = .chunk) && (k.fits data || decide (k.ending ≠ .none))
  | none => false

/-- CHUNK_DONE (R117). -/
def execChunkDone (g : Seg) (data : List Byte) (s : State) : Host.Outcome State Fault Refusal :=
  eventNext (s.canComplete g data) (fun s => deliverAll (tryCompletes g data s)) s

/-- CHUNK_NAK (R123). -/
def execChunkNak (g : Seg) (s : State) : Host.Outcome State Fault Refusal :=
  eventNext (s.trying g) (fun s => deliverAll (tryFails g s)) s

/-- RETRY_TIMER_EXPIRY (R123). -/
def execRetryTimerExpiry (g : Seg) (s : State) : Host.Outcome State Fault Refusal :=
  eventNext (decide ((s.link g).state = .retryWait) && (s.link g).retryTimer.isSome)
    (fun s => s.updLink g Link.retry) s

/-- STRETCH_TIMEOUT (R124): the stretch timer of a try passes 25 ms. -/
def execStretchTimeout (g : Seg) (s : State) : Host.Outcome State Fault Refusal :=
  eventNext (s.trying g && (s.link g).stretch.isSome) (fun s => deliverAll (stretchEnds g s)) s

/-- RECOVERY_SEQUENCE_END (R124). -/
def execRecoverySequenceEnd (g : Seg) (s : State) : Host.Outcome State Fault Refusal :=
  eventNext (decide ((s.link g).state = .recovery))
    (fun s => s.updLink g (Link.endChunk .idle true)) s

/-- A chunk that a removal or a Restart has ended reaches its byte boundary. -/
def boundary (g : Seg) (s : State) : State :=
  match (s.link g).chunk with
  | some k => deliverAll (byteBoundary g k s)
  | none => s

/-- Whether a segment's chunk is on its way to a byte boundary for a reason. -/
def State.endsFor (s : State) (g : Seg) (reason : ChunkEnd) : Bool :=
  match (s.link g).chunk with
  | some k => decide ((s.link g).state = .chunk) && decide (k.ending = reason)
  | none => false

/-- REMOVAL_BYTE_BOUNDARY (R126). -/
def execRemovalByteBoundary (g : Seg) (s : State) : Host.Outcome State Fault Refusal :=
  eventNext (s.endsFor g .absent) (boundary g) s

/-- RESTART_CHUNK_BYTE_BOUNDARY (R128). -/
def execRestartChunkByteBoundary (g : Seg) (s : State) : Host.Outcome State Fault Refusal :=
  eventNext (s.endsFor g .restart) (boundary g) s

/-- SLOT_TIMER_EXPIRY (R136). -/
def execSlotTimerExpiry (g : Seg) (s : State) : Host.Outcome State Fault Refusal :=
  eventNext (s.scanner g).slotTimer.isSome
    (fun s => s.updScanner g (fun n => { n with slotTimer := none })) s

end Sys2Proof.Machine
end

