-- ==== Sys2Proof/Machine/BusCommands.lean ====
section
/-! DEFINITION. The meanings of the events of the coordination bus (spec/03). -/

namespace Sys2Proof.Machine

/-- Whether the bus interface is at work: from the end of LOADING on (R74). -/
def State.onBus (s : State) : Bool := decide (s.startup.runState ≠ .loading)

/-- TX_ATTEMPT_START (R91). -/
def execTxAttemptStart (s : State) : Host.Outcome State Fault Refusal :=
  eventNext (s.onBus && s.nextFrame.isSome) beginAttempt s

/-- GOOD_RECEIPT (R78). -/
def execGoodReceipt (clocks : ClockHold) (s : State) : Host.Outcome State Fault Refusal :=
  eventNext (s.onBus && s.underAttempt.isSome) (attemptSent clocks) s

/-- LOST_ARBITRATION (R77). -/
def execLostArbitration (s : State) : Host.Outcome State Fault Refusal :=
  eventNext (s.onBus && s.underAttempt.isSome) attemptLost s

/-- TRANSMIT_ERROR (R79). -/
def execTransmitError (e : TxError) (s : State) : Host.Outcome State Fault Refusal :=
  eventNext (s.onBus && s.underAttempt.isSome) (attemptFailed e) s

/-- RECEIVE_ERROR (R79). -/
def execReceiveError (e : RxError) (s : State) : Host.Outcome State Fault Refusal :=
  eventNext s.onBus (receptionFailed e) s

/-- GOOD_RECEPTION (R81): a frame at its end on the wire, judged by R76 and R80. -/
def execGoodReception (frame : RawFrame) (s : State) : Host.Outcome State Fault Refusal :=
  eventNext s.onBus (receive frame) s

/-- BUS_SEEN_IDLE (R99). -/
def execBusSeenIdle (s : State) : Host.Outcome State Fault Refusal :=
  eventNext (s.onBus && decide (s.bus.health = .silent)) beginRecovery s

/-- RECOVERY_GAP (R100). -/
def execRecoveryGap (s : State) : Host.Outcome State Fault Refusal :=
  eventNext (s.onBus && decide (s.bus.health = .recovering)) countGap s

/-- RECOVERY_GAP_COUNT_REACHED (R100): the gap that brings the count to 48 (log entry 15). -/
def execRecoveryGapCountReached (s : State) : Host.Outcome State Fault Refusal :=
  eventNext (s.onBus && decide (s.bus.health = .recovering) && decide (s.bus.gapCount = 47))
    endRecovery s

/-- ANNOUNCE_TICK (R86). -/
def execAnnounceTick (s : State) : Host.Outcome State Fault Refusal :=
  eventNext s.bus.announce.isSome announce s

/-- LISTEN_INTERVAL_END (R187): the tick that brings the listen tick count to 2 (log entry 15). -/
def execListenIntervalEnd (s : State) : Host.Outcome State Fault Refusal :=
  eventNext (decide (s.startup.runState = .listening) && decide (s.startup.listenTicks = 1))
    endListening s

end Sys2Proof.Machine
end

