-- ==== Sys2Proof/Machine/BudgetCommands.lean ====
section
/-! DEFINITION. The meanings of the events of the peer view, the claim unit and the penalty unit
(spec/02, spec/04). -/

namespace Sys2Proof.Machine

/-- PEER_ENTRY_AGED (R72): the tick that brings a Present entry's age to 4 (log entry 15). -/
def execPeerEntryAged (n : Station) (s : State) : Host.Outcome State Fault Refusal :=
  eventNext (decide ((s.peer n).status = .present) && decide ((s.peer n).age = 3))
    (fun s => dueTest (s.updPeer n PeerEntry.tick)) s

/-- The oldest frame of the budget receive queue. -/
def State.oldestBody (s : State) : Option FrameBody := s.bus.budgetQueue.head?.map Frame.body

/-- APPLY_INTENT (R68). -/
def execApplyIntent (s : State) : Host.Outcome State Fault Refusal :=
  eventNext (match s.oldestBody with | some (.intent _ _ _) => true | _ => false) applyOldest s

/-- APPLY_CONFIRM (R69). -/
def execApplyConfirm (s : State) : Host.Outcome State Fault Refusal :=
  eventNext (match s.oldestBody with | some (.confirm _ _) => true | _ => false) applyOldest s

/-- APPLY_WITHDRAW (R69). -/
def execApplyWithdraw (s : State) : Host.Outcome State Fault Refusal :=
  eventNext (match s.oldestBody with | some (.withdraw _ _) => true | _ => false) applyOldest s

/-- APPLY_RELEASE (R70). -/
def execApplyRelease (s : State) : Host.Outcome State Fault Refusal :=
  eventNext (match s.oldestBody with | some (.release _) => true | _ => false) applyOldest s

/-- APPLY_STATUS (R70). -/
def execApplyStatus (s : State) : Host.Outcome State Fault Refusal :=
  eventNext (match s.oldestBody with | some (.status _) => true | _ => false) applyOldest s

/-- PEER_INTENT_PROMOTION (R71). -/
def execPeerIntentPromotion (n : Station) (tag : Tag) (s : State) :
    Host.Outcome State Fault Refusal :=
  eventNext ((s.peer n).find tag).isSome (fun s => s.updPeer n (PeerEntry.promote tag)) s

/-- The own intent with a tag whose window is open. -/
def State.openIntent (s : State) (tag : Tag) : Option OwnIntent :=
  (s.intentOf tag).filter (fun e => e.deadline.isSome)

/-- WINDOW_DEADLINE (R55). -/
def execWindowDeadline (tag : Tag) (s : State) : Host.Outcome State Fault Refusal :=
  eventNext (s.openIntent tag).isSome
    (fun s =>
      match s.openIntent tag with
      | some e => windowEnds e s
      | none => s) s

/-- BACKOFF_EXPIRY (R60). -/
def execBackoffExpiry (c : Cage) (s : State) : Host.Outcome State Fault Refusal :=
  eventNext (s.claim c).backoff.isSome
    (fun s => dueTest (s.updClaim c (fun k => { k with backoff := none }))) s

/-- BLIND_TIMER_EXPIRY (R63). -/
def execBlindTimerExpiry (s : State) : Host.Outcome State Fault Refusal :=
  eventNext s.claims.blindTimer.isSome
    (fun s => dueTest (s.updClaims (fun k => { k with blind := false, blindTimer := none }))) s

/-- A decay tick (R106 to R108, R110): the penalties and the last-module records, then the reuse
reports, in an open order (log entry 1). -/
def decay (s : State) : State :=
  let s := decayPenalties s
  let s := { s with penalties := { s.penalties with decay := some s.conf.decayPeriod } }
  (s.openOrder allCages).foldl (fun s c => takeReuse c s) s

/-- DECAY_TICK (R107). -/
def execDecayTick (s : State) : Host.Outcome State Fault Refusal :=
  eventNext s.penalties.decay.isSome decay s

end Sys2Proof.Machine
end

