-- ==== Sys2Proof/Machine/RequestCommands.lean ====
section
/-! DEFINITION. The meanings of the supervisory requests (spec/08): each is an accepted REQUEST that
reaches the service receive queue (R88, log entry 16). -/

namespace Sys2Proof.Machine

/-- A request that passed the acceptance check reaches the service receive queue. -/
def requestArrives (r : Request) (s : State) : Host.Outcome State Fault Refusal :=
  eventNext s.onBus (acceptRequest r) s

/-- Byte 1 of a request that names a cage. -/
def cageCode (c : Cage) (code : Nat) : Byte := nibbles c.val code

/-- READ_CAGE (R165). -/
def execReadCage (c : Cage) (part : Byte) (s : State) : Host.Outcome State Fault Refusal :=
  requestArrives ⟨cageCode c 0, [part]⟩ s

/-- READ_EVENT (R166). -/
def execReadEvent (c : Cage) (index part : Byte) (s : State) : Host.Outcome State Fault Refusal :=
  requestArrives ⟨cageCode c 1, [index, part]⟩ s

/-- READ_PEER (R167). -/
def execReadPeer (station : Byte) (s : State) : Host.Outcome State Fault Refusal :=
  requestArrives ⟨byteOf 2, [station]⟩ s

/-- READ_HEALTH (R167). -/
def execReadHealth (part : Byte) (s : State) : Host.Outcome State Fault Refusal :=
  requestArrives ⟨byteOf 3, [part]⟩ s

/-- HOLD (R33, R168). -/
def execHold (c : Cage) (s : State) : Host.Outcome State Fault Refusal :=
  requestArrives ⟨cageCode c 4, []⟩ s

/-- UNHOLD (R34, R168). -/
def execUnhold (c : Cage) (s : State) : Host.Outcome State Fault Refusal :=
  requestArrives ⟨cageCode c 5, []⟩ s

/-- RETRY (R35, R168). -/
def execRetry (c : Cage) (s : State) : Host.Outcome State Fault Refusal :=
  requestArrives ⟨cageCode c 6, []⟩ s

/-- CLEAR_PENALTY (R113, R169). -/
def execClearPenalty (c : Cage) (s : State) : Host.Outcome State Fault Refusal :=
  requestArrives ⟨cageCode c 7, []⟩ s

/-- SET_CEILING (R169). -/
def execSetCeiling (ceiling : Byte) (s : State) : Host.Outcome State Fault Refusal :=
  requestArrives ⟨byteOf 8, [ceiling]⟩ s

/-- MODULE_READ (R170). -/
def execModuleRead (c : Cage) (address count : Byte) (s : State) :
    Host.Outcome State Fault Refusal :=
  requestArrives ⟨cageCode c 9, [address, count]⟩ s

/-- MODULE_WRITE (R130, R170). -/
def execModuleWrite (c : Cage) (address : Byte) (data : List Byte) (s : State) :
    Host.Outcome State Fault Refusal :=
  requestArrives ⟨cageCode c 10, address :: data⟩ s

/-- RESTART (R171). -/
def execRestart (s : State) : Host.Outcome State Fault Refusal :=
  requestArrives ⟨byteOf 11, []⟩ s

/-- RESTART_TIMER_EXPIRY (R171). -/
def execRestartTimerExpiry (clocks : ClockHold) (s : State) : Host.Outcome State Fault Refusal :=
  eventNext (decide (s.service.phase = .restartPending) && s.service.restartTimer.isSome)
    (takeRestart clocks) s

end Sys2Proof.Machine
end

