-- ==== Sys2Proof/Machine/Time.lean ====
section
/-! DEFINITION. The passage of one millisecond, which a step on an empty queue is (log entry 5): every
running timer counts down and stands at 0 until its expiry is taken as a command. -/

namespace Sys2Proof.Machine

/-- The cage timers after one ms more. -/
def CageTimers.countDown (t : CageTimers) : CageTimers :=
  { debounce := t.debounce.countDown, initWait := t.initWait.countDown, poll := t.poll.countDown,
    ready := t.ready.countDown, settle := t.settle.countDown, train := t.train.countDown,
    verify := t.verify.countDown, initStart := t.initStart }

/-- The filters' hold timers after one ms more. -/
def CageLines.countDown (l : CageLines) : CageLines :=
  { l with presentHold := l.presentHold.countDown, linkHold := l.linkHold.countDown }

/-- The claim unit's timers after one ms more. -/
def ClaimUnit.countDown (k : ClaimUnit) : ClaimUnit :=
  { k with
    claims := k.claims.map (fun r => { r with backoff := r.backoff.countDown }),
    intents := k.intents.map (fun e => { e with deadline := e.deadline.countDown }),
    blindTimer := k.blindTimer.countDown }

/-- A segment's timers after one ms more in which a module held the clock or not.  During a try the
stretch timer starts where the clock is found held, and stops where it is not (R124, log entry 21). -/
def Link.countDown (held : Bool) (l : Link) : Link :=
  { l with
    stretch := if l.state = .chunk then stretchAt held l.stretch.countDown else l.stretch.countDown,
    retryTimer := l.retryTimer.countDown }

/-- Whether the clock of a segment is held in the ms that passes (log entry 21). -/
def State.clockHeld (s : State) (g : Seg) : Bool := Config.clockHeld s.openChoices g.val

/-- The part after one ms in which no command comes (log entry 5). -/
def passTime (s : State) : State :=
  { s with
    startup := { s.startup with startDelay := s.startup.startDelay.countDown },
    lines := s.lines.map CageLines.countDown,
    cages := s.cages.map (fun k => { k with timers := k.timers.countDown }),
    claims := s.claims.countDown,
    peers := s.peers.map (PeerEntry.countUp (promotionAge s.conf)),
    bus := { s.bus with announce := s.bus.announce.countDown },
    penalties := { s.penalties with decay := s.penalties.decay.countDown },
    links := Vector.ofFn (fun g : Seg => s.links[g].countDown (s.clockHeld g)),
    scan := { s.scan with
      scanners := s.scan.scanners.map (fun n => { n with slotTimer := n.slotTimer.countDown }) },
    service := { s.service with restartTimer := s.service.restartTimer.countDown } }

/-- What a step on an empty queue answers: one ms passes, unless a reset holds the part.  Each ms has
choices of its own (log entry 21). -/
def idle (s : State) : State := if s.startup.resetHeld then s else (passTime s).nextChoice

end Sys2Proof.Machine
end

