-- ==== Sys2Proof/Machine/Dispatch.lean ====
section
/-! DEFINITION. The meaning of each command: one arm per constructor. -/

namespace Sys2Proof.Machine

/-- The effect of a command on everything but the queue. -/
def exec (i : Instr) (s : State) : Host.Outcome State Fault Refusal :=
  match i with
  | .powerOnReset => Sys2Proof.Machine.execPowerOnReset s
  | .pinReset => Sys2Proof.Machine.execPinReset s
  | .resetRelease station profile => Sys2Proof.Machine.execResetRelease station profile s
  | .stationTimeTick => Sys2Proof.Machine.execStationTimeTick s
  | .startDelayExpiry => Sys2Proof.Machine.execStartDelayExpiry s
  | .spiReadEnd image => Sys2Proof.Machine.execSpiReadEnd image s
  | .presentRawChange cage level => Sys2Proof.Machine.execPresentRawChange cage level s
  | .presentHoldExpiry cage moment => Sys2Proof.Machine.execPresentHoldExpiry cage moment s
  | .linkUpRawChange cage level => Sys2Proof.Machine.execLinkUpRawChange cage level s
  | .linkUpHoldExpiry cage => Sys2Proof.Machine.execLinkUpHoldExpiry cage s
  | .alertEdge cage => Sys2Proof.Machine.execAlertEdge cage s
  | .currentSenseConversion code => Sys2Proof.Machine.execCurrentSenseConversion code s
  | .debounceTimerExpiry cage => Sys2Proof.Machine.execDebounceTimerExpiry cage s
  | .initWaitExpiry cage => Sys2Proof.Machine.execInitWaitExpiry cage s
  | .pollTimerExpiry cage => Sys2Proof.Machine.execPollTimerExpiry cage s
  | .readyTimerExpiry cage => Sys2Proof.Machine.execReadyTimerExpiry cage s
  | .settleTimerExpiry cage => Sys2Proof.Machine.execSettleTimerExpiry cage s
  | .trainTimerExpiry cage => Sys2Proof.Machine.execTrainTimerExpiry cage s
  | .verifyTimerExpiry cage => Sys2Proof.Machine.execVerifyTimerExpiry cage s
  | .chunkDone seg data => Sys2Proof.Machine.execChunkDone seg data s
  | .chunkNak seg => Sys2Proof.Machine.execChunkNak seg s
  | .retryTimerExpiry seg => Sys2Proof.Machine.execRetryTimerExpiry seg s
  | .stretchTimeout seg => Sys2Proof.Machine.execStretchTimeout seg s
  | .recoverySequenceEnd seg => Sys2Proof.Machine.execRecoverySequenceEnd seg s
  | .removalByteBoundary seg => Sys2Proof.Machine.execRemovalByteBoundary seg s
  | .slotTimerExpiry seg => Sys2Proof.Machine.execSlotTimerExpiry seg s
  | .txAttemptStart => Sys2Proof.Machine.execTxAttemptStart s
  | .goodReceipt clocks => Sys2Proof.Machine.execGoodReceipt clocks s
  | .lostArbitration => Sys2Proof.Machine.execLostArbitration s
  | .transmitError error => Sys2Proof.Machine.execTransmitError error s
  | .receiveError error => Sys2Proof.Machine.execReceiveError error s
  | .goodReception frame => Sys2Proof.Machine.execGoodReception frame s
  | .busSeenIdle => Sys2Proof.Machine.execBusSeenIdle s
  | .recoveryGap => Sys2Proof.Machine.execRecoveryGap s
  | .recoveryGapCountReached => Sys2Proof.Machine.execRecoveryGapCountReached s
  | .announceTick => Sys2Proof.Machine.execAnnounceTick s
  | .listenIntervalEnd => Sys2Proof.Machine.execListenIntervalEnd s
  | .peerEntryAged station => Sys2Proof.Machine.execPeerEntryAged station s
  | .applyIntent => Sys2Proof.Machine.execApplyIntent s
  | .applyConfirm => Sys2Proof.Machine.execApplyConfirm s
  | .applyWithdraw => Sys2Proof.Machine.execApplyWithdraw s
  | .applyRelease => Sys2Proof.Machine.execApplyRelease s
  | .applyStatus => Sys2Proof.Machine.execApplyStatus s
  | .peerIntentPromotion station tag => Sys2Proof.Machine.execPeerIntentPromotion station tag s
  | .windowDeadline tag => Sys2Proof.Machine.execWindowDeadline tag s
  | .backoffExpiry cage => Sys2Proof.Machine.execBackoffExpiry cage s
  | .blindTimerExpiry => Sys2Proof.Machine.execBlindTimerExpiry s
  | .decayTick => Sys2Proof.Machine.execDecayTick s
  | .readCage cage part => Sys2Proof.Machine.execReadCage cage part s
  | .readEvent cage index part => Sys2Proof.Machine.execReadEvent cage index part s
  | .readPeer station => Sys2Proof.Machine.execReadPeer station s
  | .readHealth part => Sys2Proof.Machine.execReadHealth part s
  | .hold cage => Sys2Proof.Machine.execHold cage s
  | .unhold cage => Sys2Proof.Machine.execUnhold cage s
  | .retry cage => Sys2Proof.Machine.execRetry cage s
  | .clearPenalty cage => Sys2Proof.Machine.execClearPenalty cage s
  | .setCeiling ceiling => Sys2Proof.Machine.execSetCeiling ceiling s
  | .moduleRead cage address count => Sys2Proof.Machine.execModuleRead cage address count s
  | .moduleWrite cage address data => Sys2Proof.Machine.execModuleWrite cage address data s
  | .restart => Sys2Proof.Machine.execRestart s
  | .restartTimerExpiry clocks => Sys2Proof.Machine.execRestartTimerExpiry clocks s
  | .alertDeassertion cage => Sys2Proof.Machine.execAlertDeassertion cage s
  | .restartChunkByteBoundary seg => Sys2Proof.Machine.execRestartChunkByteBoundary seg s

end Sys2Proof.Machine
end

