-- ==== Sys2Proof/Safety.lean ====
section
/-! DEFINITION. What claims about the part are stated in: the invariants of its state, and the end of
every event. -/

namespace Sys2Proof.Machine

/-! ### Nothing due is left undone -/

/-- No request of a cage waits behind an empty slot of its arbiter (R7). -/
def State.pumped (s : State) : Bool :=
  allCages.all (fun c => (s.crsSlot c).isSome || (s.cage c).requests.isEmpty)

/-- No slot of a segment's scanner is due (R136). -/
def State.slotTaken (s : State) (g : Seg) : Bool :=
  decide ((s.scanner g).phase ≠ .idle) || (s.scanner g).slotTimer.isSome || (s.rota g).isEmpty

/-- No segment is IDLE while one of its slots holds a request (R121). -/
def State.granted (s : State) (g : Seg) : Bool :=
  decide ((s.link g).state ≠ .idle) || (s.chooseSlot g).isNone

/-- Nothing that an event ends with is left to do: ADOPTING goes on only with a cage in ADOPT (R189),
no request waits behind an empty slot (R7), no scanner slot is due (R136), no grant is due (R121) and
no queue-time test is due (R52). -/
def State.settled (s : State) : Bool :=
  (decide (s.startup.runState ≠ .adopting) || s.anyAdopt) && s.pumped &&
  s.slotTaken 0 && s.slotTaken 1 && s.granted 0 && s.granted 1 && !s.claims.testDue

/-! ### The ranges of the counts and the lengths of the queues -/

/-- The penalties and the stored penalties are at most 16383 (R102). -/
def State.penaltiesBounded (s : State) : Prop :=
  ∀ c : Cage, (s.penalty c).value ≤ 16383 ∧
    ∀ m, (s.penalty c).lastModule = some m → m.stored ≤ 16383

/-- The ranges of Table 3-1. -/
structure State.busBounded (s : State) : Prop where
  txQueue         : s.bus.txQueue.length ≤ 8
  budgetQueue     : s.bus.budgetQueue.length ≤ 16
  serviceQueue    : s.bus.serviceQueue.length ≤ 4
  txErrors        : s.bus.txErrors ≤ 160
  rxErrors        : s.bus.rxErrors ≤ 127
  gapCount        : s.bus.gapCount ≤ 48
  budgetLoss      : s.bus.budgetLoss ≤ 65535
  denied          : s.bus.denied ≤ 65535
  serviceOverflow : s.bus.serviceOverflow ≤ 65535
  reportDrop      : s.bus.reportDrop ≤ 65535

/-- Each event history holds at most 4 records, and the next sequence number is at most 65535
(R172). -/
def State.historiesBounded (s : State) : Prop :=
  s.events.nextSequence ≤ 65535 ∧ ∀ c : Cage, (s.events.histories[c]).length ≤ 4

/-- Each window holds at most 4 values, each draw history at most 4 entries, and each overdraw run
count is at most 3 (R134, R145). -/
def State.scanBounded (s : State) : Prop :=
  ∀ c : Cage, (s.cageScan c).history.length ≤ 4 ∧ (s.cageScan c).overRun ≤ 3 ∧
    ∀ i : Fin 8, ((s.cageScan c).windows[i]).length ≤ 4

/-- Each peer entry lists at most 4 pending intents and holds an age of at most 4 (Table 2-3). -/
def State.peersBounded (s : State) : Prop :=
  ∀ n : Station, (s.peer n).intents.length ≤ 4 ∧ (s.peer n).age ≤ 4

/-- What no frame could have brought in is not held: the unknown allowance is at most 4095 (R183),
every STATUS of the budget receive queue announces at most 65520 (R80), and every peer entry holds a
confirmed total of at most 65520 (R66). -/
structure State.totalsBounded (s : State) : Prop where
  allowance : s.conf.unknownAllow ≤ 4095
  queue     : ∀ f ∈ s.bus.budgetQueue, ∀ k, f.body = .status k → k.total ≤ 65520
  peers     : ∀ n : Station, (s.peer n).confirmed ≤ 65520

/-- The station has at most 2 open tags: own intents, and answers still waiting to be sent (R41). -/
def State.tagsBounded (s : State) : Prop := s.openTags.length ≤ 2

/-- The ranges and lengths that the spec's tables give, together. -/
structure State.inRange (s : State) : Prop where
  penalties : s.penaltiesBounded
  bus       : s.busBounded
  histories : s.historiesBounded
  scan      : s.scanBounded
  peers     : s.peersBounded
  totals    : s.totalsBounded
  tags      : s.tagsBounded

/-! ### The cages -/

/-- Which cage timers a state lets run (Table 1-3). -/
def CageTimers.fit (t : CageTimers) (st : CageState) : Bool :=
  (t.debounce.isNone || decide (st = .debounce)) && (t.initWait.isNone || decide (st = .identify)) &&
  (t.poll.isNone || decide (st = .powerUp)) && (t.ready.isNone || decide (st = .powerUp)) &&
  (t.settle.isNone || decide (st = .lightSettle) || decide (st = .relight)) &&
  (t.train.isNone || decide (st = .train)) && (t.verify.isNone || decide (st = .verify))

/-- What every cage's record keeps to: a fault cause in FAULTED alone and always there (R11), timers only
in their states (Table 1-3), counts in their ranges, and at most one request of each kind waiting (R7). -/
structure CageRecord.sound (k : CageRecord) : Prop where
  cause    : k.cause ≠ .none ↔ k.state = .faulted
  timers   : k.timers.fit k.state = true
  reads    : k.identReads ≤ 3
  retries  : k.trainRetries ≤ 4 ∧
    (k.state = .train ∨ k.state = .verify ∨ k.state = .relight → k.trainRetries ≤ 3)
  failures : k.linkFails ≤ 2
  requests : (k.requests.map CrsRequest.kind).Nodup

/-- A filter's hold timer runs exactly while the raw level is away from the taken one (R152, R153). -/
def CageLines.filtered (l : CageLines) : Prop :=
  (l.presentHold.isSome ↔ l.presentRaw ≠ l.present) ∧ (l.linkHold.isSome ↔ l.linkRaw ≠ l.link)

/-- Every cage's record keeps to its rules, and every filter to its own once the reset is released. -/
structure State.cagesSound (s : State) : Prop where
  records : ∀ c : Cage, (s.cage c).sound
  filters : s.startup.resetHeld = false → ∀ c : Cage, (s.line c).filtered

/-! ### The lines -/

/-- What a cage's drive state keeps to (R1, R156 to R158): the source named is the one R1 gives for the
state; LATCHED stands only in ADOPT, with its levels; FORCED and SEQUENCER stand only as named; a cage
that is not enabled is in DISABLED. -/
structure State.driven (s : State) (c : Cage) : Prop where
  named   : (s.line c).named = (s.cage c).state.names
  latched : (s.line c).source = .latched →
    (s.cage c).state = .adopt ∧ (s.cageConf c).enabled = true ∧ (s.line c).latched.isSome
  inForce : (s.line c).source = .held ∨ (s.line c).source = .latched ∨
    (s.line c).named.map NamedSource.source = some (s.line c).source
  off     : (s.cageConf c).enabled = false → (s.cage c).state = .disabled

/-- Every cage's drive state keeps to its rules. -/
def State.drivenSound (s : State) : Prop := ∀ c : Cage, s.driven c

/-- A cage's PORT_ADMIT is asserted only in IN-SERVICE, or in ADOPT under LATCHED (R160). -/
def State.admitsSafely (s : State) : Prop :=
  ∀ c : Cage, (s.outputs c).portAdmit = true →
    (s.cage c).state = .inService ∨
    ((s.cage c).state = .adopt ∧ (s.line c).source = .latched)

/-! ### The claims -/

/-- The own committed total is the sum of d over the confirmed claims, plus the release-pending amount
(R43). -/
def State.totalMatches (s : State) : Prop :=
  s.claims.committed =
    ((allCages.filter (fun c => decide ((s.claim c).state = .confirmed))).map
      (fun c => (s.claim c).draw)).sum + s.claims.releasePending

/-! ### What an event ends with -/

/-- What the end of an event leaves alone (log entry 12).  It moves only the work that is due: ADOPTING
to LISTENING (R189), requests to the arbiters (R7), slots of the scanners (R136), grants (R121), and
claims to QUEUED with their INTENTs (R51). -/
structure SameOutsideWork (s t : State) : Prop where
  pending   : t.pending = s.pending
  startup   : t.startup = { s.startup with
    runState := t.startup.runState, listenTicks := t.startup.listenTicks }
  runState  : t.startup.runState = s.startup.runState ∨
    (s.startup.runState = .adopting ∧ t.startup.runState = .listening)
  lines     : t.lines = s.lines
  cages     : ∀ c : Cage, t.cage c = { s.cage c with requests := (t.cage c).requests }
  claims    : ∀ c : Cage, t.claim c = { s.claim c with state := (t.claim c).state }
  queued    : ∀ c : Cage, (t.claim c).state = (s.claim c).state ∨
    ((s.claim c).state = .none ∧ (t.claim c).state = .queued)
  claimUnit : t.claims = { s.claims with
    claims := t.claims.claims, intents := t.claims.intents, lastTag := t.claims.lastTag,
    testDue := t.claims.testDue }
  bus       : t.bus = { s.bus with txQueue := t.bus.txQueue, reportDrop := t.bus.reportDrop }
  peers     : t.peers = s.peers
  penalties : t.penalties = s.penalties
  scan      : t.scan = { s.scan with scanners := t.scan.scanners }
  service   : t.service = s.service
  events    : t.events = s.events

/-- The queue-time test as an event runs it: for the candidate, and again for each new candidate after one
that passes; it stops where there is none or it fails (R51). -/
inductive Tested : State → State → Prop where
  | stops (s : State) (fails : ∀ c, s.candidate = some c → s.testPasses c = false) : Tested s s
  | queues (c : Cage) (s t : State) (chosen : s.candidate = some c) (passes : s.testPasses c = true)
      (rest : Tested (queueIntent c s) t) : Tested s t

/-- The oldest request of a cage goes to an empty slot of its arbiter, which may grant it at once; for a
cage that is not present the requests are answered ABSENT and discarded; a full slot keeps what it holds,
and the list is as it was (R7, R119, R121). -/
structure RequestsHanded (u t : State) (c : Cage) : Prop where
  full   : ∀ r, u.crsSlot c = some r → (t.cage c).requests = (u.cage c).requests ∧
    (t.crsSlot c = some r ∨ t.crsSlot c = some r.grant)
  empty  : u.crsSlot c = none → (u.cage c).requests = [] →
    (t.cage c).requests = [] ∧ t.crsSlot c = none
  handed : ∀ q rest, u.crsSlot c = none → (u.cage c).requests = q :: rest →
    (u.line c).present = true → (t.cage c).requests = rest ∧
    (t.crsSlot c = some (crsTransaction c q) ∨ t.crsSlot c = some (crsTransaction c q).grant)
  absent : u.crsSlot c = none → (u.line c).present = false →
    (t.cage c).requests = [] ∧ t.crsSlot c = none

/-- The try on a segment is that of the next chunk of a request, byte by byte (R117): a start condition, the
device address 0x3A with direction write, and the chunk's address; then, for a write, the chunk's data bytes, and for a
read a repeated start condition, the device address with direction read, and the bytes of the module, each acknowledged
but the last; then a stop condition.  A read of n bytes takes 30 + 9n clock periods and a write 20 + 9n. -/
structure Tries (t : State) (g : Seg) (r : LinkRequest) : Prop where
  write : ∀ data, r.writeData = some data →
    let bytes := (data.drop (8 * r.nextChunk)).take 8
    let wire := [.start, .sends 0x74, .sends (byteOf (r.address + 8 * r.nextChunk))] ++
      bytes.map .sends ++ [.stop]
    t.segmentTry g = some wire ∧ tryClocks wire = 20 + 9 * bytes.length
  read  : ∀ n, r.writeData = none → min 8 (r.length - 8 * r.nextChunk) = n + 1 →
    let wire := [.start, .sends 0x74, .sends (byteOf (r.address + 8 * r.nextChunk)), .repeatedStart,
      .sends 0x75] ++ List.replicate n (.takes true) ++ [.takes false, .stop]
    t.segmentTry g = some wire ∧ tryClocks wire = 30 + 9 * (n + 1)

/-- What the end of an event does to a segment: one that is not IDLE keeps all but its empty slots; one
that is IDLE stays so with its select lines as they are, or one request of its slots is granted its next
chunk (R117, R121).  A scanner begins a slot only where it is IDLE with its slot timer stopped (R136). -/
structure SegmentWorked (u t : State) (g : Seg) : Prop where
  busy    : (u.link g).state ≠ .idle ∨ (t.link g).state = .idle →
    t.link g = { u.link g with crsSlots := (t.link g).crsSlots, scanner := (t.link g).scanner }
  granted : (u.link g).state = .idle → (t.link g).state ≠ .idle →
    ∃ (slot : Slot) (r : LinkRequest), (t.link g).inSlot slot = some r.grant ∧ (t.link g).state = .chunk ∧
      (t.link g).chunk = some (r.chunk slot) ∧ (t.link g).selected = some r.cage ∧
      (t.link g).stretch = none ∧ (t.link g).retryTimer = none
  pass    : (t.link g).passThrough = (u.link g).passThrough ∨
    ((u.link g).state = .idle ∧ (t.link g).passThrough = (u.link g).passThrough.map LinkRequest.grant)
  scanner : t.scanner g = u.scanner g ∨
    ((u.scanner g).phase = .idle ∧ (u.scanner g).slotTimer = none)
  scan    : t.scanner g = u.scanner g → (t.link g).scanner = (u.link g).scanner ∨
    ((u.link g).state = .idle ∧ (t.link g).scanner = (u.link g).scanner.map LinkRequest.grant)

/-- `t` is what an event leaves whose own effect leaves `u`: it differs from `u` by the work that is due at
the end of the event alone, and not at all where none is due.  Where no queue-time test is due the claims
and the bus are as they were, and where one is due it is run.  The count of choices, which is the model's
own, moves on by one (log entry 1); nothing of the spec rests on its value. -/
structure EndsAs (u t : State) : Prop where
  same     : SameOutsideWork u t
  choices  : t.openChoices = u.openChoices + 1
  exact    : u.settled = true → t = u.nextChoice
  untested : u.claims.testDue = false → t.claims = u.claims ∧ t.bus = u.bus
  tested   : u.claims.testDue = true → ∃ v w, SameOutsideWork u v ∧
    v.claims = { u.claims with testDue := false } ∧ v.bus = u.bus ∧ Tested v w ∧
    t.claims = w.claims ∧ t.bus = w.bus
  requests : ∀ c : Cage, RequestsHanded u t c
  segments : ∀ g : Seg, SegmentWorked u t g

/-- What an event about one cage leaves alone: every other cage, but for its waiting requests and the
QUEUED state of its claim, and every unit that is no cage's, but for the work of the arbiters, the
scanners, the transmit queue and the own intents. -/
structure OnlyCage (c : Cage) (s t : State) : Prop where
  pending   : t.pending = s.pending
  startup   : t.startup = { s.startup with
    runState := t.startup.runState, listenTicks := t.startup.listenTicks }
  lines     : ∀ k : Cage, k ≠ c → t.line k = s.line k
  cages     : ∀ k : Cage, k ≠ c → t.cage k = { s.cage k with requests := (t.cage k).requests }
  claims    : ∀ k : Cage, k ≠ c → t.claim k = { s.claim k with state := (t.claim k).state }
  claimUnit : t.claims.ceiling = s.claims.ceiling ∧ t.claims.blind = s.claims.blind ∧
    t.claims.blindTimer = s.claims.blindTimer
  bus       : t.bus = { s.bus with txQueue := t.bus.txQueue, reportDrop := t.bus.reportDrop }
  peers     : t.peers = s.peers
  penalties : ∀ k : Cage, k ≠ c → t.penalty k = s.penalty k
  decay     : t.penalties.decay = s.penalties.decay
  scans     : ∀ k : Cage, k ≠ c → t.cageScan k = s.cageScan k
  converter : t.scan.converting = s.scan.converting ∧ t.scan.channel = s.scan.channel
  service   : t.service = s.service
  histories : ∀ k : Cage, k ≠ c → t.events.histories[k] = s.events.histories[k]

/-- The record that the event unit makes for a cage at an event, with the sequence number, the state
before, the cause and the penalty given (R173). -/
def madeRecord (s : State) (c : Cage) (number : Nat) (kind : EventKind) (before : CageState)
    (cause : Option FaultCause) (penalty : Nat) : EventRecord :=
  { sequence := number, time := s.startup.stationTime, kind := kind, before := before,
    cause := cause, penalty := penalty, snapshot := snapshotFor s c kind }

/-- A cage's history has got one record at its front, and the next sequence number has risen by one
(R173, R174). -/
def recorded (s t : State) (c : Cage) (kind : EventKind) (before : CageState)
    (cause : Option FaultCause) (penalty : Nat) : Prop :=
  t.events.histories[c] =
    (madeRecord s c s.events.nextSequence kind before cause penalty ::
      s.events.histories[c]).take 4 ∧
  t.events.nextSequence = (s.events.nextSequence + 1) % 65536

/-! ### Cage records as the states begin them (R3, R4, R8, R11, R22, R23, R29, R30) -/

/-- A cage's record as it enters FAULTED with a cause (R11, R7, R8, R9). -/
def CageRecord.inFault (cause : FaultCause) (k : CageRecord) : CageRecord :=
  { k with
    state := .faulted, timers := noTimers, cause := cause, linkFails := 0, wantedTx := none,
    visit := k.visit + 1, requests := [] }

/-- A cage's record as it enters TRAIN, and goes on to VERIFY at the same event where its LINK_UP is taken
as asserted (R23). -/
def CageRecord.inTrain (conf : Settings) (link : Bool) (k : CageRecord) : CageRecord :=
  { k with
    state := if link then .verify else .train,
    timers := if link then { noTimers with verify := some conf.verifyTime }
              else { noTimers with train := some conf.trainTimeout },
    cause := .none, visit := k.visit + (if link then 2 else 1) }

/-- A cage's record as it enters LIGHT-SETTLE or RELIGHT (R22, R30, R8). -/
def CageRecord.inSettle (conf : Settings) (state : CageState) (k : CageRecord) : CageRecord :=
  { k with
    state := state, timers := { noTimers with settle := some conf.settleTimeout }, cause := .none,
    wantedTx := some 0, laneStable := false, visit := k.visit + 1 }

/-- A cage's record as it enters HOLD-DOWN with a number of lanes (R29, R8). -/
def CageRecord.inHoldDown (lanes : Nat) (k : CageRecord) : CageRecord :=
  { k with
    state := .holdDown, timers := noTimers, cause := .none, wantedTx := some (laneMask lanes),
    visit := k.visit + 1 }

/-- A cage's record is the one given, whatever requests wait on its list. -/
def State.recordIs (t : State) (c : Cage) (k : CageRecord) : Prop :=
  t.cage c = { k with requests := (t.cage c).requests }

/-! ### Requests and transactions (R6, R7) -/

/-- The arbiter holds the transaction of a CRS request of a cage (R6). -/
def State.carries (t : State) (c : Cage) (q : CrsRequest) (address length : Nat)
    (data : Option (List Byte)) : Prop :=
  ∃ r, t.crsSlot c = some r ∧ r.cage = c ∧ r.origin = .crs q false ∧ r.address = address ∧
    r.length = length ∧ r.writeData = data

/-- A CRS request of a cage waits on its list, or the arbiter holds its transaction (R6, R7). -/
def State.asks (t : State) (c : Cage) (q : CrsRequest) (address length : Nat)
    (data : Option (List Byte)) : Prop :=
  q ∈ (t.cage c).requests ∨ t.carries c q address length data

/-- A tx-disable write of a value is asked for in the cage's present visit (R8). -/
def State.asksTx (t : State) (c : Cage) (value : Byte) : Prop :=
  t.asks c ⟨.txDisable, value, (t.cage c).visit⟩ 121 1 (some [value])

/-- An identity read is asked for in the cage's present visit (R14, R15, R39). -/
def State.asksIdentity (t : State) (c : Cage) : Prop :=
  t.asks c ⟨.identityRead, 0, (t.cage c).visit⟩ 0 32 none

/-- A try of a chunk of a CRS transaction is on the wire. -/
structure CrsTry (s : State) (g : Seg) (k : Chunk) (r : LinkRequest) (q : CrsRequest) (discard : Bool)
    (c : Cage) : Prop where
  free    : s.startup.resetHeld = false
  trying  : (s.link g).state = .chunk
  chunk   : (s.link g).chunk = some k
  going   : k.ending = .none
  slot    : k.slot = .crs c
  segment : segOf c = g
  held    : s.crsSlot c = some r
  cage    : r.cage = c
  origin  : r.origin = .crs q discard

/-- The bytes that end a chunk of a read fit it, and it is the last chunk of its request. -/
def readEnded (k : Chunk) (r : LinkRequest) (data : List Byte) : Prop :=
  k.isWrite = false ∧ data.length = k.length ∧ r.length ≤ 8 * r.nextChunk

/-- A try fails for good: by a NAK on try 3, or by a stretch timeout where the stretch timer runs (R123,
R124). -/
def tryLost (i : Instr) (s : State) (g : Seg) (k : Chunk) : Prop :=
  (i = .chunkNak g ∧ 3 ≤ k.tryNo) ∨ (i = .stretchTimeout g ∧ (s.link g).stretch.isSome = true)

/-- The last chunk of the scan in progress of a cage is on the wire (R137). -/
structure ScanTry (s : State) (g : Seg) (k : Chunk) (r : LinkRequest) (cur : Cursor) (c : Cage) :
    Prop where
  free     : s.startup.resetHeld = false
  trying   : (s.link g).state = .chunk
  chunk    : (s.link g).chunk = some k
  going    : k.ending = .none
  slot     : k.slot = .scanner
  held     : (s.link g).scanner = some r
  origin   : r.origin = .scanner
  cage     : r.cage = c
  segment  : segOf c = g
  scanning : (s.scanner g).phase = .scanning
  cursor   : (s.scanner g).cursor = some cur
  scanned  : cur.cage = c
  lanes    : cur.lanes ≤ 8
  last     : (scanPlan cur.lanes).length ≤ cur.index + 1

/-! ### Status observations (R10) -/

/-- What a training retry does to a cage in TRAIN or VERIFY, from the record it finds (R24). -/
structure Retried (c : Cage) (k : CageRecord) (s t : State) : Prop where
  again : k.trainRetries < 3 → t.events = s.events ∧
    t.recordIs c (({ k with trainRetries := k.trainRetries + 1 } : CageRecord).inTrain s.conf
      (t.line c).link)
  spent : 3 ≤ k.trainRetries →
    t.cage c = ({ k with trainRetries := k.trainRetries + 1 } : CageRecord).inFault .trainExhausted ∧
    recorded s t c .fault k.state (some .trainExhausted) (s.penalty c).value

/-- What a flap does to a cage in IN-SERVICE, from the record it finds (R27, R103, R29). -/
structure Flapped (c : Cage) (k : CageRecord) (s t : State) : Prop where
  penalty : t.penalty c = { s.penalty c with
    value := min 16383 ((s.penalty c).value + s.conf.flapIncrement) }
  held    : s.conf.suppress ≤ (t.penalty c).value → t.recordIs c (k.inHoldDown (s.lanesOf c)) ∧
    ((t.line c).present = true → t.asksTx c (laneMask (s.lanesOf c)))
  trained : (t.penalty c).value < s.conf.suppress →
    t.recordIs c (({ k with trainRetries := 0 } : CageRecord).inTrain s.conf (t.line c).link)

/-- What a status observation does to its cage, from the record it finds there, by the state of the record
(R10).  The flags of lanes at or above n are disregarded. -/
structure Observed (c : Cage) (o : Observation) (k : CageRecord) (s t : State) : Prop where
  fault   : (k.state.powered = true ∧ o.fault = true) ∨
      (k.state = .inService ∧ ∃ i : Fin 8, i.val < s.lanesOf c ∧ o.txFault.getLsbD i.val = true) →
    t.cage c = k.inFault .moduleFault ∧ t.penalty c = s.penalty c ∧
    recorded s t c .fault k.state (some .moduleFault) (s.penalty c).value
  ready   : o.fault = false → k.state = .powerUp → o.ready = true →
    t.recordIs c (k.inSettle s.conf .lightSettle) ∧ t.penalty c = s.penalty c ∧
    t.events = s.events ∧ (t.cageScan c).windows = Vector.replicate 8 [] ∧
    ((s.line c).present = true → t.asksTx c 0) ∧
    (s.claims.testDue = false → t.claims = s.claims)
  verify  : o.fault = false → k.state = .verify →
      (∃ i : Fin 8, i.val < s.lanesOf c ∧ o.txFault.getLsbD i.val = true) →
    Retried c k s t ∧ t.penalty c = s.penalty c
  flap    : o.fault = false → k.state = .inService →
      (∀ i : Fin 8, i.val < s.lanesOf c → o.txFault.getLsbD i.val = false) →
      (∃ i : Fin 8, i.val < s.lanesOf c ∧ o.rxLost.getLsbD i.val = true) →
    Flapped c k s t
  dark    : o.fault = false → k.state = .darkWait → o.sample = true →
      (∃ i : Fin 8, i.val < s.lanesOf c ∧ o.rxLost.getLsbD i.val = false) →
    t.recordIs c (({ k with trainRetries := 0 } : CageRecord).inTrain s.conf (t.line c).link) ∧
    t.penalty c = s.penalty c ∧ t.events = s.events

/-- Whether a status observation has an effect in a state, by the lines of R10's table. -/
def State.heeds (s : State) (c : Cage) (o : Observation) : Prop :=
  (s.cage c).state.powered = true ∧
  (o.fault = true ∨
    ((s.cage c).state = .powerUp ∧ o.ready = true) ∨
    ((s.cage c).state = .verify ∧
      ∃ i : Fin 8, i.val < s.lanesOf c ∧ o.txFault.getLsbD i.val = true) ∨
    ((s.cage c).state = .inService ∧
      ∃ i : Fin 8, i.val < s.lanesOf c ∧
        (o.txFault.getLsbD i.val = true ∨ o.rxLost.getLsbD i.val = true)) ∨
    ((s.cage c).state = .darkWait ∧ o.sample = true ∧
      ∃ i : Fin 8, i.val < s.lanesOf c ∧ o.rxLost.getLsbD i.val = false))

/-! ### The queue-time test in the spec's terms (R46, R49 to R51) -/

/-- A cage that R49 looks at: on the admission list with its claim NONE, out of backoff, and at a level
below the admission ceiling. -/
def State.ready (s : State) (c : Cage) : Prop :=
  (s.claim c).listed = true ∧ (s.claim c).state = .none ∧ (s.claim c).backoff = none ∧
  (s.claim c).level < s.claims.ceiling

/-- Whether one cage stands before another in the admission list (R46): the lower level first, at one level
the earlier list entry time (log entry 7), at one time the lower cage number. -/
def State.listedBefore (s : State) (c d : Cage) : Prop :=
  let age := fun (k : Cage) => (s.startup.stationTime - (s.claim k).listTime).toNat
  (s.claim c).level < (s.claim d).level ∨
  ((s.claim c).level = (s.claim d).level ∧ (age d < age c ∨ (age d = age c ∧ c < d)))

/-- The candidate in the spec's terms (R49). -/
def State.mostUrgent (s : State) (c : Cage) : Prop :=
  s.ready c ∧ ∀ d : Cage, s.ready d → d ≠ c → s.listedBefore c d

/-- What a peer entry counts where each of its pending intents that a test picks counts if it is Present
(R50, R57). -/
def State.peerShare (s : State) (n : Station) (counts : PeerIntent → Bool) : Nat :=
  let e := s.peer n
  match e.status with
  | .present => e.confirmed + ((e.intents.filter counts).map PeerIntent.draw).sum
  | .aged => max (e.confirmed + (e.intents.map PeerIntent.draw).sum) s.conf.unknownAllow
  | .unknown => if s.conf.population.getLsbD n.val then s.conf.unknownAllow else 0

/-- What every station but the part itself counts (R50, R57). -/
def State.peerShares (s : State) (counts : Station → PeerIntent → Bool) : Nat :=
  (((List.finRange 32).filter (fun n => decide (n ≠ s.startup.station))).map
    (fun n => s.peerShare n (counts n))).sum

/-- The admission sum of a d (R50): the own committed total, every own intent, every peer's share with all
its intents, and the d itself; sums stop at 2097151. -/
def State.admissionTotal (s : State) (d : Nat) : Nat :=
  min 2097151 (s.claims.committed + (s.claims.intents.map OwnIntent.draw).sum +
    s.peerShares (fun _ _ => true) + d)

/-- The confirm sum of the own PENDING entry at a place of the own intents table (R57): the own committed
total, the own PENDING entries senior to it (a lower level, or the same level and an earlier window), every
peer's share with the intents whose pair of level and station is lower (R56), and its own d. -/
def State.confirmTotal (s : State) (i : Nat) (e : OwnIntent) : Nat :=
  let before := s.claims.intents.take i
  let behind := s.claims.intents.drop (i + 1)
  let own := before.filter (fun x => x.sent && decide (x.level ≤ e.level)) ++
    behind.filter (fun x => x.sent && decide (x.level < e.level))
  min 2097151 (s.claims.committed + (own.map OwnIntent.draw).sum +
    s.peerShares (fun n x => decide (x.level < e.level ∨
      (x.level = e.level ∧ n < s.startup.station))) + e.draw)

/-- The open tags are fewer than two: entries of the own intents table, and answers that the part's transmit
queue still holds (R41, R51). -/
def State.tagFree (s : State) : Prop :=
  s.claims.intents.length +
    (s.bus.txQueue.filter (fun f => decide (f.mark ≠ .detached) && f.body.answerTag.isSome)).length < 2

/-- The five conditions under which an INTENT is queued for a candidate (R51). -/
structure State.admits (s : State) (c : Cage) : Prop where
  running : s.startup.runState = .running
  seeing  : s.claims.blind = false
  healthy : s.bus.health = .active ∨ s.bus.health = .cautious
  tag     : s.tagFree
  fits    : s.admissionTotal (s.claim c).draw ≤ s.conf.budget

/-! ### The claims' own rules -/

/-- What the claim unit keeps to at every step, and with it the committed total to its sum (R43).  The bound
of the committed total is 65520, or the budget where that is the greater (log entry 40): at a Restart every
cage in ADOPT may still bring an adopted claim of at most 4095. -/
structure State.claimsSound (s : State) : Prop where
  total    : s.totalMatches
  budget   : s.conf.budget ≤ 65535
  bound    : s.claims.committed +
      4095 * (allCages.filter (fun c => decide ((s.cage c).state = .adopt))).length ≤
    max 65520 s.conf.budget
  held     : ∀ c : Cage, (s.claim c).state = .confirmed ↔
    ((s.cage c).state = .powerUp ∨ (s.cage c).state = .lightSettle)
  listed   : ∀ c : Cage, (s.claim c).listed = true → (s.cage c).state = .admitWait
  entries  : ∀ e ∈ s.claims.intents,
    ((s.claim e.cage).state = .queued ∨ (s.claim e.cage).state = .pending) ∧
    (e.withdrawAtEnd = false → (s.claim e.cage).draw = e.draw ∧ (s.cage e.cage).state = .admitWait)
  distinct : (s.claims.intents.map OwnIntent.cage).Nodup
  adopting : ∀ c : Cage, (s.cage c).state = .adopt →
    (s.claim c).state = .none ∧ s.startup.runState = .adopting ∧ s.claims.intents = []
  loading  : s.startup.resetHeld = true ∨ s.startup.loadPhase ≠ .done →
    s.startup.runState = .loading ∧ s.claims.committed = 0 ∧ s.claims.intents = [] ∧
    s.service.phase = .idle ∧ ∀ c : Cage, (s.cage c).state ≠ .adopt
  release  : (s.bus.txQueue.filter (fun f => decide (f.mark ≠ .detached) && f.body.isRelease)).length ≤ 1 ∧
    ∀ f ∈ s.bus.txQueue, f.mark ≠ .detached → ∀ a, f.body = .release a → a ≤ s.claims.releasePending

/-! ### The judgement of an own intent (R57 to R59) -/

/-- An own intent under a tag is confirmed against a state (R58, R5, R20): its d joins the committed total, a
CONFIRM is queued, and its cage goes from ADMIT-WAIT to POWER-UP with its poll and ready timers, off the
admission list. -/
structure Confirmed (tag : Tag) (e : OwnIntent) (u t : State) : Prop where
  claim    : (t.claim e.cage).state = .confirmed ∧ (t.claim e.cage).listed = false
  total    : t.claims.committed = u.claims.committed + e.draw
  frame    : newFrame e.level (.confirm tag e.draw) ∈ t.bus.txQueue
  gone     : ∀ x ∈ t.claims.intents, x.cage ≠ e.cage
  state    : (t.cage e.cage).state = .powerUp
  timers   : (t.cage e.cage).timers =
    { noTimers with poll := some 50, ready := some u.conf.readyTimeout }
  identity : (t.cage e.cage).identity = (u.cage e.cage).identity
  units    : t.penalties = u.penalties ∧ t.events = u.events ∧ t.peers = u.peers ∧
    t.bus.budgetQueue = u.bus.budgetQueue
  others   : ∀ c : Cage, c ≠ e.cage → t.line c = u.line c ∧
    t.cage c = { u.cage c with requests := (t.cage c).requests }

/-- An own intent under a tag is withdrawn against a state (R59): a WITHDRAW is queued; a listed cage gets a
withdraw count one higher, at most 5, its aged level and its backoff (R47, R60), and to one that is not listed
nothing further happens. -/
structure Withdrawn (tag : Tag) (e : OwnIntent) (u t : State) : Prop where
  listed   : (u.claim e.cage).listed = true →
    let w := min 5 ((u.claim e.cage).withdraws + 1)
    let l := (u.claim e.cage).level
    t.claim e.cage = { u.claim e.cage with
      state := .none, withdraws := w,
      level := if (u.cageConf e.cage).pinned = true ∨ l ≤ 8 then l else l - 1,
      backoff := some (u.conf.window * 2 ^ w + u.startup.station.val) }
  unlisted : (u.claim e.cage).listed = false →
    t.claim e.cage = { u.claim e.cage with state := .none }
  total    : t.claims.committed = u.claims.committed
  frame    : newFrame e.level (.withdraw tag e.draw) ∈ t.bus.txQueue
  gone     : ∀ x ∈ t.claims.intents, x.cage ≠ e.cage
  units    : t.lines = u.lines ∧ t.penalties = u.penalties ∧ t.events = u.events ∧ t.peers = u.peers ∧
    t.bus.budgetQueue = u.bus.budgetQueue
  cages    : ∀ c : Cage, t.cage c = { u.cage c with requests := (t.cage c).requests }

/-- The row that applies a budget frame of a kind (R68 to R70). -/
def appliesFrame (i : Instr) (b : FrameBody) : Prop :=
  match b with
  | .intent _ _ _ => i = .applyIntent
  | .confirm _ _ => i = .applyConfirm
  | .withdraw _ _ => i = .applyWithdraw
  | .release _ => i = .applyRelease
  | .status _ => i = .applyStatus
  | .request _ _ _ => False
  | .reply _ _ _ => False
  | .cageReport _ => False

/-! ### The content of a STATUS (R65) -/

/-- What a STATUS says of a state whose transmit queue has no frame under attempt (R65): the committed total
less the d of each CONFIRM still waiting, the open tags whose INTENT has been sent, in an open order (log entry
1), the run state and the health, and the number of cages in IN-SERVICE.  The run state of the first STATUS
after a Restart may be ADOPTING instead, by R188 (log entry 39). -/
structure StatusContent.describes (k : StatusContent) (s : State) : Prop where
  total     : k.total = s.claims.committed -
    (s.bus.txQueue.map (fun f => match f.body with | .confirm _ d => d | _ => 0)).sum
  tags      : k.tags.Perm ((s.claims.intents.filter (fun e => e.deadline.isSome || e.noted.isSome)).map
    OwnIntent.tag ++ s.bus.txQueue.filterMap (fun f => f.body.answerTag))
  runState  : k.runState = s.startup.runState ∨ (s.bus.afterRestart = true ∧ k.runState = .adopting)
  health    : k.health = s.bus.health
  inService : k.inService =
    (allCages.filter (fun c => decide ((s.cage c).state = .inService))).length

/-! ### Requests by their rows (Table 8-1) -/

/-- The request that a row stands for: the cage in the high four bits of byte 1 and the code in the low
four, and the argument bytes (Table 8-1). -/
def rowRequest : Instr → Option Request
  | .readCage c part => some ⟨byteOf (c.val * 16), [part]⟩
  | .readEvent c index part => some ⟨byteOf (c.val * 16 + 1), [index, part]⟩
  | .readPeer station => some ⟨2, [station]⟩
  | .readHealth part => some ⟨3, [part]⟩
  | .hold c => some ⟨byteOf (c.val * 16 + 4), []⟩
  | .unhold c => some ⟨byteOf (c.val * 16 + 5), []⟩
  | .retry c => some ⟨byteOf (c.val * 16 + 6), []⟩
  | .clearPenalty c => some ⟨byteOf (c.val * 16 + 7), []⟩
  | .setCeiling v => some ⟨8, [v]⟩
  | .moduleRead c address count => some ⟨byteOf (c.val * 16 + 9), [address, count]⟩
  | .moduleWrite c address data => some ⟨byteOf (c.val * 16 + 10), address :: data⟩
  | .restart => some ⟨11, []⟩
  | _ => none

/-- A request that fails the form checks (R163): a code of 12 to 15, a number of argument bytes other than
that of Table 8-1, or an argument out of its range. -/
def Request.illFormed (q : Request) : Prop :=
  let code := q.code.toNat % 16
  let n := q.args.length
  let arg := fun i => (byteAt q.args i).toNat
  12 ≤ code ∨
  (code = 0 ∨ code = 2 ∨ code = 3 ∨ code = 8) ∧ n ≠ 1 ∨
  (code = 1 ∨ code = 9) ∧ n ≠ 2 ∨
  (code = 4 ∨ code = 5 ∨ code = 6 ∨ code = 7 ∨ code = 11) ∧ n ≠ 0 ∨
  code = 10 ∧ (n < 2 ∨ 5 < n ∨ 255 < arg 0 + (n - 1) - 1) ∨
  code = 0 ∧ 3 < arg 0 ∨
  code = 1 ∧ (3 < arg 0 ∨ 5 < arg 1) ∨
  code = 2 ∧ 31 < arg 0 ∨
  code = 3 ∧ 1 < arg 0 ∨
  code = 9 ∧ (arg 1 = 0 ∨ 6 < arg 1 ∨ 255 < arg 0 + arg 1 - 1)

/-- Whether a request changes state by Table 8-1: HOLD to SET-CEILING, MODULE-WRITE and RESTART. -/
def Request.alters (q : Request) : Prop :=
  let code := q.code.toNat % 16
  (4 ≤ code ∧ code ≤ 8) ∨ code = 10 ∨ code = 11

/-! ### What a removal does at the arbiter -/

/-- No pass-through is carried for a cage: either none is carried at all, or no request for the cage in its
segment's slots is a pass-through. -/
def State.carriesNone (s : State) (c : Cage) : Prop :=
  s.service.phase ≠ .carrying ∨
  ∀ slot ∈ [Slot.crs c, .passThrough, .scanner], ∀ r,
    (s.link (segOf c)).inSlot slot = some r → r.cage = c → r.origin ≠ .passThrough

/-- The removal arrives together with the end of a chunk of its cage, which is taken first, and finds the chunk
that the choice of R121 granted at that end with nothing of it sent (R126, log entry 43). -/
def takesBack (moment : RemovalMoment) (l : Link) (k : Chunk) : Prop :=
  moment = .atChunkEnd ∧ k.tryNo = 1 ∧ k.ending = .none ∧ l.stretch = none

/-- What the arbiter's part of a removal leaves, where no pass-through of the cage is carried and `moment` says
where the segment stands in its try.  Only the cage's own segment and its scanner may change, and the requests
of other cages, of the service unit too, keep their slots.  The chunk in progress, if it is the cage's, goes on
to its byte boundary to end there ABSENT, or ends at once with the segment in RECOVERY where it is in a
stretch; in RETRY-WAIT the segment comes to IDLE with the cage deselected (R126).  Where the removal arrives
together with the end of a chunk of the cage that is taken first, the chunk that the choice granted at that end has
not begun: the segment is IDLE with the cage deselected, and its request is answered like the others.  Every other request of the
cage has left its slot (R127).  An IDLE segment deselects the cage (log entry 20); another cage's chunk goes
on, and where nothing of the segment is the cage's only the stretch timer may change (log entry 21). -/
structure RemovedAtArbiter (c : Cage) (moment : RemovalMoment) (s v : State) : Prop where
  rest      : v = { s with links := v.links, scan := { s.scan with scanners := v.scan.scanners } }
  segments  : ∀ g : Seg, g ≠ segOf c → v.link g = s.link g ∧ v.scanner g = s.scanner g
  others    : ∀ d : Cage, d ≠ c → v.crsSlot d = s.crsSlot d
  kept      : ∀ slot ∈ [Slot.crs c, .passThrough, .scanner], ∀ r,
    (s.link (segOf c)).inSlot slot = some r → r.cage ≠ c → (v.link (segOf c)).inSlot slot = some r
  gone      : ∀ slot ∈ [Slot.crs c, .passThrough, .scanner], ∀ r,
    (s.link (segOf c)).inSlot slot = some r → r.cage = c →
    (v.link (segOf c)).inSlot slot = none ∨
    ∃ k, (v.link (segOf c)).chunk = some k ∧ k.slot = slot ∧ k.cage = c ∧ k.ending = .absent
  boundary  : ∀ k, (s.link (segOf c)).chunk = some k → (s.link (segOf c)).state = .chunk → k.cage = c →
    k.ending ≠ .restart → moment ≠ .inStretch → ¬ takesBack moment (s.link (segOf c)) k →
    (v.link (segOf c)).state = .chunk ∧ (v.link (segOf c)).stretch = none ∧
    (v.link (segOf c)).chunk = some { k with ending := .absent } ∧
    (v.link (segOf c)).selected = (s.link (segOf c)).selected
  stretched : ∀ k, (s.link (segOf c)).chunk = some k → (s.link (segOf c)).state = .chunk → k.cage = c →
    moment = .inStretch →
    (v.link (segOf c)).state = .recovery ∧ (v.link (segOf c)).stretch = none ∧
    (v.link (segOf c)).chunk = none ∧ (v.link (segOf c)).selected = (s.link (segOf c)).selected
  together  : ∀ k, (s.link (segOf c)).chunk = some k → (s.link (segOf c)).state = .chunk → k.cage = c →
    takesBack moment (s.link (segOf c)) k →
    (v.link (segOf c)).state = .idle ∧ (v.link (segOf c)).chunk = none ∧
    (v.link (segOf c)).selected = none ∧
    ∀ slot ∈ [Slot.crs c, .passThrough, .scanner], ∀ r,
      (v.link (segOf c)).inSlot slot = some r → r.cage ≠ c
  waiting   : ∀ k, (s.link (segOf c)).chunk = some k → (s.link (segOf c)).state = .retryWait → k.cage = c →
    (v.link (segOf c)).state = .idle ∧ (v.link (segOf c)).retryTimer = none ∧
    (v.link (segOf c)).chunk = none ∧ (v.link (segOf c)).selected = none
  idle      : (s.link (segOf c)).state = .idle → (v.link (segOf c)).state = .idle ∧
    (v.link (segOf c)).selected ≠ some c
  going     : ∀ k, (s.link (segOf c)).chunk = some k → k.cage ≠ c →
    (v.link (segOf c)).chunk = some k ∧ (v.link (segOf c)).state = (s.link (segOf c)).state
  calm      : (∀ slot ∈ [Slot.crs c, .passThrough, .scanner], ∀ r,
      (s.link (segOf c)).inSlot slot = some r → r.cage ≠ c) →
    (∀ k, (s.link (segOf c)).chunk = some k → k.cage ≠ c) → (s.link (segOf c)).selected ≠ some c →
    v.scanner (segOf c) = s.scanner (segOf c) ∧
    v.link (segOf c) = { s.link (segOf c) with stretch := (v.link (segOf c)).stretch }

/-- What the CRS leaves at the arbiter and the scanner of a cage whose request list it empties on entering a state
that is not powered: a request of the cage that no chunk of has been granted leaves its slot, the outcome of one
that has been granted is to be discarded (R7, R120), and a scan of the cage is discarded, with DRAINING while a
granted chunk of it is awaited (R135, R139).  No other slot, segment or scanner changes. -/
structure ListEmptied (c : Cage) (v w : State) : Prop where
  rest     : w = { v with links := w.links, scan := { v.scan with scanners := w.scan.scanners } }
  others   : ∀ g : Seg, g ≠ segOf c → w.link g = v.link g ∧ w.scanner g = v.scanner g
  segment  : w.link (segOf c) = { v.link (segOf c) with
    crsSlots := (w.link (segOf c)).crsSlots, scanner := (w.link (segOf c)).scanner }
  slots    : ∀ d : Cage, d ≠ c → w.crsSlot d = v.crsSlot d
  waiting  : ∀ r, v.crsSlot c = some r → r.granted = false → w.crsSlot c = none
  granted  : ∀ r, v.crsSlot c = some r → r.granted = true → w.crsSlot c = some r.discarded
  empty    : v.crsSlot c = none → w.crsSlot c = none
  scanning : ∀ cur, (v.scanner (segOf c)).cursor = some cur → cur.cage = c →
    (w.scanner (segOf c)).cursor = none ∧ (w.scanner (segOf c)).sampleBytes = [] ∧
    (w.scanner (segOf c)).slotTimer = (v.scanner (segOf c)).slotTimer ∧
    (((w.scanner (segOf c)).phase = .draining ∧ (w.link (segOf c)).scanner = (v.link (segOf c)).scanner ∧
        ∃ r, (v.link (segOf c)).scanner = some r ∧ r.granted = true) ∨
      ((w.scanner (segOf c)).phase = .idle ∧ (w.link (segOf c)).scanner = none ∧
        ∀ r, (v.link (segOf c)).scanner = some r → r.granted = false))
  calm     : (∀ cur, (v.scanner (segOf c)).cursor = some cur → cur.cage ≠ c) →
    w.scanner (segOf c) = v.scanner (segOf c) ∧ (w.link (segOf c)).scanner = (v.link (segOf c)).scanner

/-! ### The configuration (Table 10-3) -/

/-- A byte of the image. -/
def imageAt (image : List Byte) (i : Nat) : Nat := (byteAt image i).toNat

/-- Two bytes of the image, the most significant first. -/
def imageAtPair (image : List Byte) (i : Nat) : Nat := imageAt image i * 256 + imageAt image (i + 1)

/-- A value taken to the nearer end of a range where it lies outside (R183). -/
def intoRange (low high n : Nat) : Nat := if n < low then low else if high < n then high else n

/-- A parameter set whose every field comes from its own bytes of the image (R183, Table 10-3). -/
structure FromImage (image : List Byte) (k : Settings) : Prop where
  budget       : k.budget = imageAtPair image 4
  allowance    : k.unknownAllow = intoRange 0 4095 (imageAtPair image 6)
  population   : k.population.toNat = imageAtPair image 8 * 65536 + imageAtPair image 10
  announce     : k.announce = intoRange 50 1000 (imageAtPair image 12)
  window       : k.window = intoRange 5 100 (imageAt image 14)
  surgeFactor  : k.surgeFactor = intoRange 16 64 (imageAt image 15)
  debounce     : k.debounce = intoRange 50 2000 (imageAtPair image 16)
  ready        : k.readyTimeout = intoRange 500 10000 (imageAtPair image 18)
  settle       : k.settleTimeout = intoRange 1000 60000 (imageAtPair image 20)
  train        : k.trainTimeout = intoRange 5000 60000 (imageAtPair image 22)
  verify       : k.verifyTime = intoRange 500 10000 (imageAtPair image 24)
  flap         : k.flapIncrement = intoRange 1 8000 (imageAtPair image 26)
  thresholds   : intoRange 1 16383 (imageAtPair image 30) < intoRange 1 16383 (imageAtPair image 28) →
    k.suppress = intoRange 1 16383 (imageAtPair image 28) ∧
    k.reuse = intoRange 1 16383 (imageAtPair image 30)
  crossed      : intoRange 1 16383 (imageAtPair image 28) ≤ intoRange 1 16383 (imageAtPair image 30) →
    k.suppress = 3000 ∧ k.reuse = 750
  decayShift   : k.decayShift = intoRange 2 10 (imageAt image 32)
  tolerance    : k.tolerance = intoRange 1 32 (imageAt image 33)
  decayPeriod  : k.decayPeriod = intoRange 250 5000 (imageAtPair image 34)
  reseat       : k.reseatSeconds = intoRange 0 3600 (imageAtPair image 36)
  darkFloor    : k.darkFloor = intoRange 1 1000 (imageAtPair image 38)
  currentScale : k.currentScale = intoRange 1 1023 (imageAtPair image 40)
  supervisor   : k.supervisor.toNat = intoRange 0 31 (imageAt image 42)
  mask         : k.supervisorMask.toNat = imageAt image 43 % 32
  capture      : k.captureMask.toNat = imageAt image 44
  polarity     : k.resetHigh = (byteAt image 45).getLsbD 0 ∧
    k.lowPowerHigh = (byteAt image 45).getLsbD 1 ∧ k.portAdmitHigh = (byteAt image 45).getLsbD 2
  flags        : ∀ c : Cage, k.cages[c].enabled = (byteAt image (46 + 3 * c.val)).getLsbD 7 ∧
    k.cages[c].pinned = (byteAt image (46 + 3 * c.val)).getLsbD 6
  levels       : ∀ c : Cage, k.cages[c].level =
    if k.cages[c].pinned then intoRange 0 7 (imageAt image (47 + 3 * c.val))
    else intoRange 8 31 (imageAt image (47 + 3 * c.val))
  watts        : ∀ c : Cage, k.cages[c].maxWatts = intoRange 1 100 (imageAt image (48 + 3 * c.val))

/-- The profile default set (R184, Table 10-3). -/
structure AtDefaults (profile : Fin 4) (k : Settings) : Prop where
  budget     : k.budget = [2000, 4000, 8000, 16000][profile] ∧
    k.unknownAllow = [200, 400, 800, 1600][profile]
  population : ∀ n : Station, k.population.getLsbD n.val = true
  bus        : k.announce = 200 ∧ k.window = 20 ∧ k.surgeFactor = 24
  times      : k.debounce = 500 ∧ k.readyTimeout = 2000 ∧ k.settleTimeout = 10000 ∧
    k.trainTimeout = 30000 ∧ k.verifyTime = 3000
  penalties  : k.flapIncrement = 1000 ∧ k.suppress = 3000 ∧ k.reuse = 750 ∧ k.decayShift = 6 ∧
    k.decayPeriod = 1000 ∧ k.reseatSeconds = 600
  sampling   : k.tolerance = 4 ∧ k.darkFloor = 50 ∧ k.currentScale = 40
  masks      : k.supervisor.toNat = 31 ∧ k.supervisorMask.toNat = 0 ∧ k.captureMask.toNat = 255
  polarity   : k.resetHigh = false ∧ k.lowPowerHigh = true ∧ k.portAdmitHigh = true
  cages      : ∀ c : Cage, k.cages[c].enabled = true ∧ k.cages[c].pinned = false ∧
    k.cages[c].level = 16 ∧ k.cages[c].maxWatts = 40

/-! ### Start-up, frames, requests, lines -/

/-- Whether an identity block declares a lane count of 1 to 8 and a Pm of 1 to 1000 (R131, R16). -/
abbrev declaresPossible (block : List Byte) : Prop :=
  let lanes := (byteAt block 2).toNat
  let pm := (byteAt block 3).toNat * 256 + (byteAt block 4).toNat
  1 ≤ lanes ∧ lanes ≤ 8 ∧ 1 ≤ pm ∧ pm ≤ 1000

/-- The state with a frame of the transmit queue gone. -/
def State.dequeued (s : State) (i : Nat) : State :=
  s.updBus (fun b => { b with txQueue := b.txQueue.eraseIdx i })

/-- What a load leaves with a parameter set, of cages that all were in VACANT (R12, R185): LISTENING, and
each block that takes the set as a whole. -/
structure LoadedWith (k : Settings) (s t : State) : Prop where
  runState  : t.startup.runState = .listening ∧ t.startup.loadPhase = .done
  settings  : t.startup.settings = some k ∧ t.startup.listenTicks = 0
  kept      : t.startup.station = s.startup.station ∧ t.startup.profile = s.startup.profile ∧
    t.startup.stationTime = s.startup.stationTime
  cages     : ∀ c : Cage, (t.cage c).state =
    if k.cages[c].enabled = false then .disabled
    else if (s.line c).present then .debounce else .vacant
  debounce  : ∀ c : Cage, (t.cage c).state = .debounce →
    (t.cage c).timers = { noTimers with debounce := some k.debounce }
  levels    : ∀ c : Cage, (t.claim c).level = k.cages[c].level
  timers    : t.penalties.decay = some k.decayPeriod ∧ t.bus.announce = some k.announce
  converter : t.scan.converting = true ∧ t.scan.channel = 0

/-- A frame whose fields are in the ranges the spec gives its kind (Table 3-3, R80). -/
def Frame.sound (f : Frame) : Prop :=
  match f.body with
  | .intent _ _ d => f.level ≤ 31 ∧ 1 ≤ d ∧ d ≤ 4095
  | .confirm _ d => f.level ≤ 31 ∧ 1 ≤ d ∧ d ≤ 4095
  | .withdraw _ d => f.level ≤ 31 ∧ 1 ≤ d ∧ d ≤ 4095
  | .release a => f.level = 0 ∧ 1 ≤ a ∧ a ≤ 65520
  | .status k => f.level = 31 ∧ k.total ≤ 65520 ∧ k.tags.length ≤ 2 ∧ k.inService ≤ 16
  | .request _ _ args => f.level = 16 ∧ args.length ≤ 5
  | .reply _ _ data => f.level = 16 ∧ data.length ≤ 6
  | .cageReport r => f.level ≤ 31 ∧ r.penalty ≤ 16383

/-- The part can take a request at once: it is not held in a reset, it is on the bus, its service unit
is IDLE with an empty queue, and its transmit queue has room for the REPLY (R162, R92). -/
structure State.serves (s : State) : Prop where
  free  : s.startup.resetHeld = false
  onBus : s.startup.runState ≠ .loading
  idle  : s.service.phase = .idle
  queue : s.bus.serviceQueue = []
  room  : s.bus.txQueue.length < 8

/-- A REPLY with a code echo, a result and data waits in the transmit queue (R164). -/
def State.replyWaits (t : State) (code : Byte) (result : Result) (data : List Byte) : Prop :=
  newFrame 16 (.reply code (byteOf result.code) data) ∈ t.bus.txQueue

/-- The state with the service unit REPLYING to a request (R162). -/
def State.replying (s : State) (r : Request) : State :=
  { s with service := { s.service with phase := .replying, request := some r } }

/-- A cage's drive state after the sequencer has named a source (R156 to R158): under HELD the source in
force stays. -/
def tookSource (n : NamedSource) (l l' : CageLines) : Prop :=
  l'.named = some n ∧ l'.source = (if l.source = .held then .held else n.source)

end Sys2Proof.Machine
end

