-- ==== Sys2Proof/Certificates/Slice0/Obligations.lean ====
section
/-! DEFINITION. The statements for the provers.  Each says what one kind of command does; the docstring
names the rules of spec/ it comes from.  Where a statement says what an event ends with (`EndsAs`), the order
of that work is log entry 12, and the count of choices that moves on is the model's own (log entry 1); the
number of a cage's visit, and the number of the event that started its init wait, are the model's own too (log
entries 25 and 38). -/

open Sys2Proof Sys2Proof.Machine

/-! ### The step -/

/-- A step carries out the command at the front of the queue, with the queue's rest. -/
def Obligations.StepTakesFront : Prop :=
  ∀ (c : Instr) (rest : List Instr) (s : State), s.pending = c :: rest →
    step s = exec c { s with pending := rest }

/-- A step on an empty queue lets one ms pass (the model's choice, log entry 5): every timer that runs
counts down by one and stands at 0, a peer's pending intent grows older by one up to W + G, and nothing
else of the spec's changes; nothing at all changes while a reset holds the part.  During a try the stretch
timer may also stop, or start at 25 ms where it was stopped, as the module holds the clock or not, which is
a free value (R124, log entry 21); the count of choices, the model's own, moves on (log entry 1). -/
def Obligations.IdleStepPassesTime : Prop :=
  ∀ s : State, s.pending = [] →
    (s.startup.resetHeld = true → step s = .next s) ∧
    (s.startup.resetHeld = false → ∃ t, step s = .next t ∧
      t.startup = { s.startup with startDelay := s.startup.startDelay.map (· - 1) } ∧
      (∀ c : Cage,
        t.line c = { s.line c with
          presentHold := (s.line c).presentHold.map (· - 1),
          linkHold := (s.line c).linkHold.map (· - 1) } ∧
        t.cage c = { s.cage c with timers := (t.cage c).timers } ∧
        (t.cage c).timers.debounce = (s.cage c).timers.debounce.map (· - 1) ∧
        (t.cage c).timers.initWait = (s.cage c).timers.initWait.map (· - 1) ∧
        (t.cage c).timers.poll = (s.cage c).timers.poll.map (· - 1) ∧
        (t.cage c).timers.ready = (s.cage c).timers.ready.map (· - 1) ∧
        (t.cage c).timers.settle = (s.cage c).timers.settle.map (· - 1) ∧
        (t.cage c).timers.train = (s.cage c).timers.train.map (· - 1) ∧
        (t.cage c).timers.verify = (s.cage c).timers.verify.map (· - 1) ∧
        (t.cage c).timers.initStart = (s.cage c).timers.initStart ∧
        t.claim c = { s.claim c with backoff := (s.claim c).backoff.map (· - 1) }) ∧
      t.claims = { s.claims with
        claims := t.claims.claims,
        intents := s.claims.intents.map (fun e => { e with deadline := e.deadline.map (· - 1) }),
        blindTimer := s.claims.blindTimer.map (· - 1) } ∧
      (∀ n : Station, t.peer n = { s.peer n with
        intents := (s.peer n).intents.map
          (fun i => { i with age := min (2 * s.conf.window) (i.age + 1) }) }) ∧
      t.bus = { s.bus with announce := s.bus.announce.map (· - 1) } ∧
      t.penalties = { s.penalties with decay := s.penalties.decay.map (· - 1) } ∧
      (∀ g : Seg,
        t.link g = { s.link g with
          stretch := (t.link g).stretch,
          retryTimer := (s.link g).retryTimer.map (· - 1) } ∧
        ((s.link g).state ≠ .chunk → (t.link g).stretch = (s.link g).stretch.map (· - 1)) ∧
        ((s.link g).state = .chunk → (t.link g).stretch = none ∨
          (t.link g).stretch = (match (s.link g).stretch with
            | some n => some (n - 1)
            | none => some 25)) ∧
        t.scanner g = { s.scanner g with slotTimer := (s.scanner g).slotTimer.map (· - 1) }) ∧
      t.scan = { s.scan with scanners := t.scan.scanners } ∧
      t.service = { s.service with restartTimer := s.service.restartTimer.map (· - 1) } ∧
      t.pending = [] ∧ t.events = s.events ∧ t.openChoices = s.openChoices + 1)

/-! ### Resets and start-up (spec/10) -/

/-- A power-on reset and a pin reset have the same effect, in every state: the part is as in the model's
reset state, whose values are named; every output line is HELD at asserted / asserted / off with SEQUENCER
named and nothing latched, the hold timers are stopped, and of a line only its raw levels stay (R180, R2, R74,
R102, R116, R134, R151, R156, R161, R172).  The memory's select line is deasserted (R181).  The model's choices
in it are the strap latch at station 0 and profile 0 (log entry 2), the raw levels kept (log entry 3), the part
held until the release (log entry 26), the visit numbers (log entry 25), the mark that no STATUS has been sent since a
Restart, clear (log entry 39), and the queue of commands and the count
of choices, which stay (log entries 1 and 17). -/
def Obligations.ResetValues : Prop :=
  ∀ (i : Instr) (s : State), i = .powerOnReset ∨ i = .pinReset →
    ∃ t, exec i s = .next t ∧
      t = { State.reset with
        pending := s.pending, openChoices := s.openChoices,
        lines := s.lines.map (fun l => resetLines l.presentRaw l.linkRaw) } ∧
      t.startup.resetHeld = true ∧ t.startup.runState = .loading ∧ t.startup.settings = none ∧
      t.memorySelected = false ∧
      (∀ c : Cage,
        (t.cage c).state = .vacant ∧ (t.cage c).timers = noTimers ∧ (t.cage c).identity = none ∧
        (t.cage c).cause = .none ∧ (t.cage c).requests = [] ∧ (t.claim c).state = .none ∧
        (t.claim c).listed = false ∧ (t.penalty c).value = 0 ∧ (t.penalty c).lastModule = none ∧
        t.line c = {
          presentRaw := (s.line c).presentRaw, present := false, presentHold := none,
          linkRaw := (s.line c).linkRaw, link := false, linkHold := none, alert := false,
          source := .held, named := some .sequencer, latched := none } ∧
        t.outputs c = ⟨true, true, false⟩ ∧
        (t.cageScan c).sample = none ∧ (t.cageScan c).history = [] ∧ (t.cageScan c).overRun = 0 ∧
        t.events.histories[c] = []) ∧
      (∀ n : Station, t.peer n = unknownPeer) ∧
      (∀ g : Seg, (t.link g).state = .idle ∧ (t.link g).selected = none ∧
        (t.scanner g).phase = .idle ∧ (t.scanner g).slotTimer = none) ∧
      t.claims.intents = [] ∧ t.claims.committed = 0 ∧ t.claims.releasePending = 0 ∧
      t.claims.lastTag = 15 ∧ t.claims.ceiling = 32 ∧ t.claims.blind = false ∧
      t.bus = resetBus ∧ t.penalties.decay = none ∧ t.scan.converting = false ∧
      t.service = resetService ∧ t.events.nextSequence = 0 ∧
      t.pending = s.pending

/-- The release of a reset latches the straps, sets station time to 0 and starts the start delay of 13 ms
in LOADING (R180), and a raw level away from the taken one starts its filter's hold timer, which is read from
R151 by inference (log entry 23); that a release where no reset holds the part changes nothing is the model's
choice (log entry 13).  The expiry of the start delay begins READ-1: the memory is selected, and the read sends
0x03 and the address 0x0000 and clocks in 96 bytes, in 792 clock periods (R181).  Station time rises by 1 at
every tick and wraps from 2^32 − 1 to 0 (R179). -/
def Obligations.StartUpEvents : Prop :=
  (∀ (station : Station) (profile : Fin 4) (s : State),
    (s.startup.resetHeld = true → ∃ t, exec (.resetRelease station profile) s = .next t ∧
      t = { s with startup := t.startup, lines := t.lines } ∧
      t.startup = { resetHeld := false, runState := .loading, loadPhase := .startDelay,
                    startDelay := some 13, station := station, profile := profile,
                    settings := none, listenTicks := 0, stationTime := 0 } ∧
      ∀ c : Cage, t.line c = { s.line c with
        presentHold := if (s.line c).presentRaw = (s.line c).present then none
                       else some ((s.line c).presentHold.getD 10),
        linkHold := if (s.line c).linkRaw = (s.line c).link then none
                    else some ((s.line c).linkHold.getD 1) }) ∧
    (s.startup.resetHeld = false → exec (.resetRelease station profile) s = .next s)) ∧
  (∀ s : State, s.startup.resetHeld = false → s.startup.loadPhase = .startDelay →
    s.startup.startDelay.isSome →
    ∃ t, exec .startDelayExpiry s = .next t ∧
      EndsAs { s with startup := { s.startup with loadPhase := .read1, startDelay := none } } t ∧
      s.memorySelected = false ∧ t.memorySelected = true ∧
      ∃ read, t.spiRead = some read ∧ read.command = 0x03 ∧ read.address = 0x0000 ∧ read.length = 96 ∧
        read.sent = [0x03, 0x00, 0x00] ∧ read.clocks = 792) ∧
  (∀ s : State, s.startup.resetHeld = false →
      ∃ t, exec .stationTimeTick s = .next t ∧
        EndsAs { s with startup := { s.startup with stationTime := s.startup.stationTime + 1 } } t ∧
        t.startup.stationTime.toNat = (s.startup.stationTime.toNat + 1) % 4294967296)

/-- A read of the image that passes its check is loaded, each field from its own bytes; one that fails is read
again, and after a second failure the profile default set is loaded, with the values of Table 10-3 (R181, R183,
R184, R185, R12).  The memory is selected for the second read as for the first, and is not selected after the
load (R181). -/
def Obligations.ConfigurationLoaded : Prop :=
  ∀ (image : List Byte) (s : State), s.startup.resetHeld = false →
    (∀ c : Cage, (s.cage c).state = .vacant) →
    (imageGood image = true → (s.startup.loadPhase = .read1 ∨ s.startup.loadPhase = .read2) →
      ∃ t k, exec (.spiReadEnd image) s = .next t ∧ FromImage image k ∧ LoadedWith k s t ∧
        t.memorySelected = false) ∧
    (imageGood image = false → s.startup.loadPhase = .read1 →
      ∃ t, exec (.spiReadEnd image) s = .next t ∧
        EndsAs { s with startup := { s.startup with loadPhase := .read2 } } t ∧
        t.spiRead = some ⟨0x03, 0x0000, 96⟩) ∧
    (imageGood image = false → s.startup.loadPhase = .read2 →
      ∃ t k, exec (.spiReadEnd image) s = .next t ∧ AtDefaults s.startup.profile k ∧
        LoadedWith k s t ∧ t.memorySelected = false)

/-- Whatever bytes an image carries, each field of the parameter set built from it comes from its own bytes of
Table 10-3, clamped to its range, with the judgements on the two thresholds and on pinning; so every field is
within its range, the reuse threshold below the suppress threshold, a pinned cage at a level of at most 7 and every
other at 8 or above (R183). -/
def Obligations.ConfigurationInRange : Prop :=
  ∀ image : List Byte,
    let k := imageSettings image
    FromImage image k ∧
    k.budget ≤ 65535 ∧ k.unknownAllow ≤ 4095 ∧ 50 ≤ k.announce ∧ k.announce ≤ 1000 ∧
    5 ≤ k.window ∧ k.window ≤ 100 ∧ 16 ≤ k.surgeFactor ∧ k.surgeFactor ≤ 64 ∧
    50 ≤ k.debounce ∧ k.debounce ≤ 2000 ∧ 500 ≤ k.readyTimeout ∧ k.readyTimeout ≤ 10000 ∧
    1000 ≤ k.settleTimeout ∧ k.settleTimeout ≤ 60000 ∧ 5000 ≤ k.trainTimeout ∧
    k.trainTimeout ≤ 60000 ∧ 500 ≤ k.verifyTime ∧ k.verifyTime ≤ 10000 ∧
    1 ≤ k.flapIncrement ∧ k.flapIncrement ≤ 8000 ∧ 1 ≤ k.reuse ∧ k.reuse < k.suppress ∧
    k.suppress ≤ 16383 ∧ 2 ≤ k.decayShift ∧ k.decayShift ≤ 10 ∧ 1 ≤ k.tolerance ∧
    k.tolerance ≤ 32 ∧ 250 ≤ k.decayPeriod ∧ k.decayPeriod ≤ 5000 ∧ k.reseatSeconds ≤ 3600 ∧
    1 ≤ k.darkFloor ∧ k.darkFloor ≤ 1000 ∧ 1 ≤ k.currentScale ∧ k.currentScale ≤ 1023 ∧
    ∀ c : Cage, 1 ≤ k.cages[c].maxWatts ∧ k.cages[c].maxWatts ≤ 100 ∧
      (k.cages[c].pinned = true → k.cages[c].level ≤ 7) ∧
      (k.cages[c].pinned = false → 8 ≤ k.cages[c].level ∧ k.cages[c].level ≤ 31)

/-! ### Cage lines (spec/07) -/

/-- A change of a raw PRESENT or LINK_UP line starts the hold timer, for 10 ms or 1 ms, where it goes away
from the taken level, and stops it where it comes back (R152, R153); while a reset holds the part only the
pin moves (the model's choice, log entries 3 and 13).  An asserting ALERT edge is seen in every state, and in
a powered state alone asks for an alert read of 3 bytes from address 64, in the cage's present visit (R154,
R9, R6; log entry 8): where nothing else waits for the cage its arbiter holds that read.  A deassertion
updates the level seen and is handed to no block (R154).  Visit numbers: log entry 25. -/
def Obligations.LineLevelsChange : Prop :=
  (∀ (c : Cage) (level : Bool) (s : State),
      (s.startup.resetHeld = false →
        (∃ t, exec (.presentRawChange c level) s = .next t ∧
          EndsAs (s.updLines c (fun l => { l with
            presentRaw := level,
            presentHold := if level = l.present then none else some (l.presentHold.getD 10) })) t) ∧
        (∃ t, exec (.linkUpRawChange c level) s = .next t ∧
          EndsAs (s.updLines c (fun l => { l with
            linkRaw := level,
            linkHold := if level = l.link then none else some (l.linkHold.getD 1) })) t)) ∧
      (s.startup.resetHeld = true →
        exec (.presentRawChange c level) s =
          .next (s.updLines c (fun l => { l with presentRaw := level })) ∧
        exec (.linkUpRawChange c level) s =
          .next (s.updLines c (fun l => { l with linkRaw := level })))) ∧
  (∀ (c : Cage) (s : State), s.startup.resetHeld = false →
      ((s.line c).alert = false → ∃ t, exec (.alertEdge c) s = .next t ∧
        ((s.cage c).state.powered = false →
          EndsAs (s.updLines c (fun l => { l with alert := true })) t) ∧
        ((s.cage c).state.powered = true →
          EndsAs ((s.updLines c (fun l => { l with alert := true })).updCage c (fun k =>
            { k with requests := addRequest ⟨.alertRead, 0, k.visit⟩ k.requests })) t ∧
          (s.crsSlot c = none → (s.cage c).requests = [] → (s.line c).present = true →
            (t.cage c).requests = [] ∧ t.carries c ⟨.alertRead, 0, (s.cage c).visit⟩ 64 3 none))) ∧
      ((s.line c).alert = true → ∃ t, exec (.alertDeassertion c) s = .next t ∧
        EndsAs (s.updLines c (fun l => { l with alert := false })) t))

/-- A PRESENT assertion taken after LOADING moves a cage in VACANT to DEBOUNCE with its debounce timer; in
every other state, and in LOADING, only the taken level changes (R12, R152).  Visit numbers: log entry 25. -/
def Obligations.InsertionTaken : Prop :=
  ∀ (c : Cage) (moment : RemovalMoment) (s : State), s.startup.resetHeld = false →
    (s.line c).presentHold.isSome → (s.line c).presentRaw = true → (s.line c).present = false →
    ∃ t, exec (.presentHoldExpiry c moment) s = .next t ∧
      (s.startup.runState ≠ .loading → (s.cage c).state = .vacant →
        OnlyCage c s t ∧
        t.cage c = { s.cage c with
          state := .debounce, timers := { noTimers with debounce := some s.conf.debounce },
          cause := .none, linkFails := 0, wantedTx := none, visit := (s.cage c).visit + 1,
          requests := (t.cage c).requests } ∧
        (t.line c).present = true ∧ (t.line c).presentHold = none ∧
        tookSource .sequencer (s.line c) (t.line c) ∧
        t.penalty c = s.penalty c ∧ t.cageScan c = s.cageScan c ∧ t.events = s.events) ∧
      (s.startup.runState = .loading ∨ (s.cage c).state ≠ .vacant →
        EndsAs (s.updLines c (fun l => { l with present := true, presentHold := none })) t)

/-- A removal in any state but VACANT, DISABLED, DEBOUNCE and MANUAL-HOLD: the REMOVED record, after the
ADOPTED record in ADOPT; the last-module record where the cage has an identity record; every count, the
request list and the identity record cleared; the cage in VACANT (R31, R109, R141, R143).  A chunk of the
cage that is in progress goes on to its byte boundary to end there ABSENT, or, in a stretch, ends with the
segment in RECOVERY (R126).  Where the removal arrives together with the end of a chunk of the cage that is taken
first, the chunk granted at that end has not begun, and no request or chunk of the cage is left on its segment (R126,
R127; how the operand says so: log entry 43).  Visit numbers: log entry 25. -/
def Obligations.RemovalTaken : Prop :=
  ∀ (c : Cage) (moment : RemovalMoment) (s : State), s.startup.resetHeld = false →
    (s.line c).presentHold.isSome → (s.line c).presentRaw = false → (s.line c).present = true →
    s.carriesNone c →
    (s.cage c).state ≠ .vacant → (s.cage c).state ≠ .disabled → (s.cage c).state ≠ .debounce →
    (s.cage c).state ≠ .manualHold →
    ∃ t, exec (.presentHoldExpiry c moment) s = .next t ∧ OnlyCage c s t ∧
      t.cage c = { s.cage c with
        state := .vacant, timers := noTimers, identReads := 0, trainRetries := 0, linkFails := 0,
        identity := none, cause := .none, wantedTx := none, requests := [],
        visit := (s.cage c).visit + 1 } ∧
      (t.line c).present = false ∧ (t.line c).presentHold = none ∧
      tookSource .sequencer (s.line c) (t.line c) ∧
      t.penalty c = (match (s.cage c).identity with
        | some id => { s.penalty c with
            lastModule := some ⟨id.serial, (s.penalty c).value, s.startup.stationTime, false⟩ }
        | none => s.penalty c) ∧
      t.cageScan c = { s.cageScan c with sample := none, windows := Vector.replicate 8 [] } ∧
      (∀ k, (s.link (segOf c)).chunk = some k → (s.link (segOf c)).state = .chunk → k.cage = c →
        (moment = .inStretch →
          (t.link (segOf c)).state = .recovery ∧ (t.link (segOf c)).chunk = none) ∧
        (moment ≠ .inStretch → ¬ takesBack moment (s.link (segOf c)) k → k.ending ≠ .restart →
          (t.link (segOf c)).state = .chunk ∧ (t.link (segOf c)).stretch = none ∧
          (t.link (segOf c)).chunk = some { k with ending := .absent }) ∧
        (takesBack moment (s.link (segOf c)) k →
          (∀ slot ∈ [Slot.crs c, .passThrough, .scanner], ∀ r,
            (t.link (segOf c)).inSlot slot = some r → r.cage ≠ c) ∧
          ∀ k', (t.link (segOf c)).chunk = some k' → k'.cage ≠ c)) ∧
      ((s.cage c).state ≠ .adopt →
        recorded s t c .removed (s.cage c).state none (s.penalty c).value) ∧
      ((s.cage c).state = .adopt →
        t.events.histories[c] =
          (madeRecord s c ((s.events.nextSequence + 1) % 65536) .removed .adopt none
              (s.penalty c).value ::
            madeRecord s c s.events.nextSequence .adopted .adopt none (s.penalty c).value ::
            s.events.histories[c]).take 4)

/-- A removal in MANUAL-HOLD leaves the cage's state: a REMOVED record, the serial handed over, the
identity record cleared, the training retry count at 0, and no CAGE-REPORT (R24, R32, R141).  A PRESENT
deassertion in VACANT or DISABLED has no effect but the taken level (R32), and one in DEBOUNCE returns the
cage to VACANT with no record, its request list emptied and its request withdrawn (R13, R7, R120); what becomes of
its CAGE-REPORT, and so the transmit queue and the report-drop count, is left to the third clause of
CageReportHanded.  The claims do not change.  At the arbiter the removal ends the cage's chunk
by the state of its segment (R126; a removal together with a chunk's end: log entry 43) and answers its other requests
ABSENT, and the requests of every other cage, those of the service unit among them, stay (R127); that an IDLE segment deselects the removed cage is read by
inference (log entry 20), and the stretch timer of another cage's chunk follows the operand (log entry 21).  The
arbiter takes the removal before the sequencer, as R152 allows (log entry 41). -/
def Obligations.RemovalWithoutModule : Prop :=
  ∀ (c : Cage) (moment : RemovalMoment) (s : State), s.startup.resetHeld = false →
    (s.line c).presentHold.isSome → (s.line c).presentRaw = false → (s.line c).present = true →
    s.carriesNone c →
    let taken := s.updLines c (fun l => { l with present := false, presentHold := none })
    ((s.cage c).state = .manualHold →
      ∃ t v, exec (.presentHoldExpiry c moment) s = .next t ∧ OnlyCage c s t ∧
        RemovedAtArbiter c moment taken v ∧
        t.cage c = { s.cage c with
          identity := none, trainRetries := 0, requests := (t.cage c).requests } ∧
        t.line c = { s.line c with present := false, presentHold := none } ∧
        t.penalty c = (match (s.cage c).identity with
          | some id => { s.penalty c with
              lastModule := some ⟨id.serial, (s.penalty c).value, s.startup.stationTime, false⟩ }
          | none => s.penalty c) ∧
        t.cageScan c = { s.cageScan c with sample := none } ∧
        recorded s t c .removed .manualHold none (s.penalty c).value ∧
        EndsAs { (v.updCage c (fun k => { k with identity := none, trainRetries := 0 })).updScan c
            (fun k => { k with sample := none }) with
          penalties := t.penalties, events := t.events } t ∧
        (s.claims.testDue = false → t.bus = s.bus ∧ t.claims = s.claims)) ∧
    ((s.cage c).state = .vacant ∨ (s.cage c).state = .disabled →
      ∃ t v, exec (.presentHoldExpiry c moment) s = .next t ∧ OnlyCage c s t ∧
        RemovedAtArbiter c moment taken v ∧ EndsAs v t ∧
        t.cage c = { s.cage c with requests := (t.cage c).requests } ∧
        t.line c = { s.line c with present := false, presentHold := none } ∧
        t.penalty c = s.penalty c ∧ t.cageScan c = s.cageScan c ∧ t.events = s.events ∧
        (s.claims.testDue = false → t.bus = s.bus ∧ t.claims = s.claims)) ∧
    ((s.cage c).state = .debounce →
      ∃ t v w b, exec (.presentHoldExpiry c moment) s = .next t ∧ OnlyCage c s t ∧
        RemovedAtArbiter c moment taken v ∧ ListEmptied c v w ∧
        b = { s.bus with txQueue := b.txQueue, reportDrop := b.reportDrop } ∧
        EndsAs { ((w.updCage c (fun k => { k with
            state := .vacant, timers := noTimers, cause := .none, trainRetries := 0, linkFails := 0,
            wantedTx := none, visit := k.visit + 1, requests := [] })).updScan c (fun k => { k with
            sample := none, windows := Vector.replicate 8 [] })).updLines c (fun _ => t.line c) with
          bus := b } t ∧
        (∀ d : Cage, d ≠ c → RequestsHanded v t d) ∧
        (t.line c).present = false ∧ (t.line c).presentHold = none ∧
        tookSource .sequencer (s.line c) (t.line c) ∧
        t.penalty c = s.penalty c ∧ t.events = s.events ∧
        (s.claims.testDue = false → t.bus = b ∧ t.claims = s.claims))

/-- A LINK_UP assertion moves a cage in TRAIN to VERIFY with its verify timer, and a cage in DARK-WAIT to
TRAIN with its retry count at 0 and on to VERIFY; in every other state only the taken level changes (R23,
R153).  Visit numbers: log entry 25. -/
def Obligations.LinkAssertionTaken : Prop :=
  ∀ (c : Cage) (s : State), s.startup.resetHeld = false →
    (s.line c).linkHold.isSome → (s.line c).linkRaw = true → (s.line c).link = false →
    ∃ t, exec (.linkUpHoldExpiry c) s = .next t ∧
      ((s.cage c).state = .train →
        OnlyCage c s t ∧
        t.cage c = { s.cage c with
          state := .verify, timers := { noTimers with verify := some s.conf.verifyTime },
          cause := .none, visit := (s.cage c).visit + 1, requests := (t.cage c).requests } ∧
        (t.line c).link = true ∧ t.events = s.events ∧ t.penalty c = s.penalty c) ∧
      ((s.cage c).state = .darkWait →
        OnlyCage c s t ∧
        t.cage c = { s.cage c with
          state := .verify, timers := { noTimers with verify := some s.conf.verifyTime },
          cause := .none, trainRetries := 0, visit := (s.cage c).visit + 2,
          requests := (t.cage c).requests } ∧
        (t.line c).link = true ∧ t.events = s.events ∧ t.penalty c = s.penalty c) ∧
      ((s.cage c).state ≠ .train → (s.cage c).state ≠ .darkWait →
        EndsAs (s.updLines c (fun l => { l with link := true, linkHold := none })) t)

/-- A LINK_UP drop in IN-SERVICE is a flap: the penalty rises by F, at most to 16383; at or above S the
cage enters HOLD-DOWN with its transmitters wanted dark and a HOLD-DOWN record after the FLAP record, and
below S it enters TRAIN with its retry count at 0.  Every record carries the penalty after the addition
(R27, R103, R29).  Visit numbers: log entry 25. -/
def Obligations.FlapOnLinkDrop : Prop :=
  ∀ (c : Cage) (s : State), s.startup.resetHeld = false → (s.cage c).state = .inService →
    (s.line c).linkHold.isSome → (s.line c).linkRaw = false → (s.line c).link = true →
    ∃ t, exec (.linkUpHoldExpiry c) s = .next t ∧ OnlyCage c s t ∧
      let p := min 16383 ((s.penalty c).value + s.conf.flapIncrement)
      t.penalty c = { s.penalty c with value := p } ∧ (t.line c).link = false ∧
      (t.outputs c).portAdmit = false ∧
      (s.conf.suppress ≤ p →
        t.cage c = { s.cage c with
          state := .holdDown, timers := noTimers, cause := .none,
          wantedTx := some (laneMask (s.lanesOf c)), visit := (s.cage c).visit + 1,
          requests := (t.cage c).requests } ∧
        t.events.histories[c] =
          (madeRecord s c ((s.events.nextSequence + 1) % 65536) .holdDown .inService none p ::
            madeRecord s c s.events.nextSequence .flap .inService none p ::
            s.events.histories[c]).take 4) ∧
      (p < s.conf.suppress →
        t.cage c = { s.cage c with
          state := .train, timers := { noTimers with train := some s.conf.trainTimeout },
          cause := .none, trainRetries := 0, visit := (s.cage c).visit + 1,
          requests := (t.cage c).requests } ∧
        recorded s t c .flap .inService none p)

/-- A status observation is judged by the state its cage is in (R10): a module fault, and a tx fault of a lane
in IN-SERVICE, send it to FAULTED with MODULE-FAULT; the ready flag takes POWER-UP to LIGHT-SETTLE with the
windows cleared and a tx-disable write of 0 asked for (R22, R8); a tx fault in VERIFY is a training retry
(R24); a lost rx signal in IN-SERVICE is a flap (R27, R29); a completed sample whose lanes are not all dark
takes DARK-WAIT to TRAIN (R25).  It comes from a ready poll or an alert read DONE in the cage's present
visit, which also sets the link failure count to 0 (R9); in a later visit that is all it does (R4).  It comes
from a completed scan as well (R138).  A lane verdict of yes takes RELIGHT to TRAIN, and one of no leaves it
(R30).  The scan's tx powers join the windows in every case but one: where the sample takes POWER-UP to
LIGHT-SETTLE, the windows it clears stay empty, which is read by inference (R142, R143, log entry 22).  A LINK_UP
drop in VERIFY is a training retry too, with no lane restart written (R24, R26).  Visit numbers: log entry 25. -/
def Obligations.StatusObserved : Prop :=
  (∀ (c : Cage) (s : State), s.startup.resetHeld = false → (s.cage c).state = .verify →
    (s.line c).linkHold.isSome → (s.line c).linkRaw = false → (s.line c).link = true →
    ∃ t, exec (.linkUpHoldExpiry c) s = .next t ∧ OnlyCage c s t ∧
      t.penalty c = s.penalty c ∧ (t.line c).link = false ∧ Retried c (s.cage c) s t ∧
      (s.crsSlot c = none → (s.cage c).requests = [] →
        t.crsSlot c = none ∧ (t.cage c).requests = [])) ∧
  (∀ (g : Seg) (k : Chunk) (r : LinkRequest) (q : CrsRequest) (c : Cage) (data : List Byte)
      (s : State), CrsTry s g k r q false c → readEnded k r data →
      q.kind = .readyPoll ∨ q.kind = .alertRead → (s.cage c).state.powered = true →
    let bytes := r.bytes ++ data
    let o : Observation := ⟨(byteAt bytes 0).getLsbD 0, (byteAt bytes 0).getLsbD 1, byteAt bytes 1,
      byteAt bytes 2, false⟩
    let record : CageRecord := { s.cage c with linkFails := 0 }
    ∃ t, exec (.chunkDone g data) s = .next t ∧ OnlyCage c s t ∧
      ((s.cage c).visit = q.visit → Observed c o record s t) ∧
      ((s.cage c).visit ≠ q.visit ∨ ¬ s.heeds c o →
        t.recordIs c record ∧ t.penalty c = s.penalty c ∧ t.events = s.events)) ∧
  (∀ (g : Seg) (k : Chunk) (r : LinkRequest) (cur : Cursor) (c : Cage) (data : List Byte)
      (s : State), ScanTry s g k r cur c → readEnded k r data → (s.cage c).state.powered = true →
    let bytes := (s.scanner g).sampleBytes ++ (r.bytes ++ data)
    let o : Observation := ⟨(byteAt bytes 0).getLsbD 0, (byteAt bytes 0).getLsbD 1, byteAt bytes 1,
      byteAt bytes 2, true⟩
    let window := fun (i : Fin 8) => (if i.val < cur.lanes then
      (if (s.cageScan c).windows[i].length < 4 then (s.cageScan c).windows[i]
       else (s.cageScan c).windows[i].drop 1) ++
        [(byteAt bytes (9 + 6 * i.val)).toNat * 256 + (byteAt bytes (10 + 6 * i.val)).toNat]
      else (s.cageScan c).windows[i])
    let stable := ∀ i : Fin 8, i.val < cur.lanes → (window i).length = 4 ∧
      s.conf.darkFloor ≤ (window i).sum / 4 ∧
      ∀ x ∈ window i, ∀ y ∈ window i, (x - y) * 64 ≤ (window i).sum / 4 * s.conf.tolerance
    (∀ i : Fin 8, ∀ v ∈ (s.cageScan c).windows[i], v ≤ 65535) →
    ∃ t, exec (.chunkDone g data) s = .next t ∧ OnlyCage c s t ∧
      (t.cageScan c).sample = some (sampleOf s.startup.stationTime cur.lanes bytes
        (s.cageScan c).history.getLast?) ∧
      (s.heeds c o → Observed c o (s.cage c)
        (s.updScan c (fun k => { k with sample := (t.cageScan c).sample })) t) ∧
      (¬ s.heeds c o → (s.cage c).state ≠ .lightSettle → (s.cage c).state ≠ .relight →
        t.recordIs c (s.cage c) ∧ t.penalty c = s.penalty c ∧ t.events = s.events) ∧
      (¬ (o.fault = false ∧ (s.cage c).state = .powerUp ∧ o.ready = true) →
        ∀ i : Fin 8, (t.cageScan c).windows[i] = window i) ∧
      (o.fault = false → (s.cage c).state = .relight →
        t.penalty c = s.penalty c ∧ t.events = s.events ∧
        (stable → t.recordIs c
          (({ s.cage c with laneStable := true } : CageRecord).inTrain s.conf (t.line c).link)) ∧
        (¬ stable → t.recordIs c { s.cage c with laneStable := false })))

/-! ### The current-sense converter (spec/06) -/

/-- The draw of a code, its saturated mark, and what counts as above a limit (R146). -/
def Obligations.DrawOfCode : Prop :=
  (∀ (scale : Nat) (code : BitVec 10),
    (drawOfCode scale code).value = code.toNat * scale / 256 ∧
    ((drawOfCode scale code).saturated = true ↔ code.toNat = 1023) ∧
    (scale ≤ 1023 → (drawOfCode scale code).value ≤ 4088) ∧
    (code.toNat = 1023 → ∀ limit, (drawOfCode scale code).above limit = true) ∧
    (code.toNat ≠ 1023 → ∀ limit,
      ((drawOfCode scale code).above limit = true ↔ limit < code.toNat * scale / 256))) ∧
  (drawOfCode 40 512#10).value = 80 ∧ (drawOfCode 40 1022#10).value = 159 ∧
  (profileSettings 0).currentScale = 40

/-- A conversion appends its entry to the history of the channel whose turn it is, the oldest of four
dropped, and the converter goes on to the next channel (R145).  The overdraw run count rises, at most to
3, where a powered cage's entry is above its limit, and is 0 otherwise (R147).  A conversion that leaves
it at 3 sends a powered cage to FAULTED with OVERDRAW, and a confirmed claim into the release-pending amount
(R28, R61); that the copy of the draw-settled verdict then stays as it was (R22, R148) follows from overdraw being
handed on first, an order of the two verdicts that the model reads by inference (log entry 14).  Otherwise the cage
takes the draw-settled verdict: yes with four unsaturated entries of at most Pm
(R148), its copy replaced in every powered state (log entry 9).  A yes takes a cage in LIGHT-SETTLE whose lanes
are stable to TRAIN, and on to VERIFY where its LINK_UP is asserted, and releases its claim (R22, R23).  Nothing
else of the cage changes where neither happens, nothing at all but history and run count in a cage that is not
powered, and every other cage stays as it is.  Visit numbers: log entry 25. -/
def Obligations.ConversionTaken : Prop :=
  ∀ (code : BitVec 10) (s : State), s.startup.resetHeld = false → s.scan.converting = true →
    let c := s.scan.channel
    let d : Draw := ⟨code.toNat * s.conf.currentScale / 256, code.toNat = 1023⟩
    let high : Bool := (match (s.cage c).identity with
      | some id => (s.cage c).state.powered && (d.saturated || decide (
          (if (s.cage c).state = .powerUp ∨ (s.cage c).state = .lightSettle then id.draw
           else id.pm + id.pm / 8) < d.value))
      | none => false)
    let run := if high then min 3 ((s.cageScan c).overRun + 1) else 0
    let history := (if (s.cageScan c).history.length < 4 then (s.cageScan c).history
                    else (s.cageScan c).history.drop 1) ++ [d]
    let verdict : Bool := (match (s.cage c).identity with
      | some id => decide (history.length = 4) &&
          history.all (fun e => !e.saturated && decide (e.value ≤ id.pm))
      | none => false)
    let moved : State := { s with scan := { s.scan with channel := c + 1 } }
    let noted := moved.updScan c (fun k => { k with history := history, overRun := run })
    let trains := (s.cage c).state = .lightSettle ∧ (s.cage c).laneStable = true ∧ verdict = true
    ∃ t, exec (.currentSenseConversion code) s = .next t ∧ OnlyCage c moved t ∧
      t.scan.converting = true ∧ t.scan.channel.val = (c.val + 1) % 16 ∧
      t.cageScan c = { s.cageScan c with history := history, overRun := run } ∧
      t.penalty c = s.penalty c ∧
      ((s.cage c).state.powered = false → run = 0 ∧ EndsAs noted t) ∧
      ((s.cage c).state.powered = true → run = 3 →
        t.cage c = (s.cage c).inFault .overdraw ∧ tookSource .sequencer (s.line c) (t.line c) ∧
        recorded s t c .fault (s.cage c).state (some .overdraw) (s.penalty c).value ∧
        ((s.cage c).state = .powerUp ∨ (s.cage c).state = .lightSettle →
          (s.claim c).state = .confirmed → (s.claim c).listed = false →
          (t.claim c).state = .none ∧
          t.claims.releasePending = s.claims.releasePending + (s.claim c).draw)) ∧
      ((s.cage c).state.powered = true → run ≠ 3 → ¬ trains →
        t.recordIs c { s.cage c with drawSettled := verdict } ∧
        EndsAs (noted.updCage c (fun k => { k with drawSettled := verdict })) t) ∧
      (run ≠ 3 → trains →
        t.recordIs c (({ s.cage c with drawSettled := true, trainRetries := 0 } :
          CageRecord).inTrain s.conf (s.line c).link) ∧
        tookSource .sequencer (s.line c) (t.line c) ∧ t.events = s.events ∧
        t.claims.releasePending = s.claims.releasePending + (s.claim c).draw ∧
        ((s.claim c).listed = false → (t.claim c).state = .none))

/-! ### The cage timers (spec/01) -/

/-- The debounce timer's expiry moves the cage to IDENTIFY with an INSERTED record, no identity record and
no read counted; the init wait of 2000 ms starts unless the lines are HELD (R13, R14), under the number of the
event, which is the model's own (log entry 38).  Visit numbers: log entry 25. -/
def Obligations.DebounceEnds : Prop :=
  ∀ (c : Cage) (s : State), s.startup.resetHeld = false → (s.cage c).state = .debounce →
    (s.cage c).timers.debounce.isSome →
    ∃ t, exec (.debounceTimerExpiry c) s = .next t ∧ OnlyCage c s t ∧
      t.cage c = { s.cage c with
        state := .identify,
        timers := if (s.line c).source = .held then noTimers
                  else { noTimers with initWait := some 2000, initStart := s.openChoices },
        cause := .none, identity := none, identReads := 0, linkFails := 0,
        visit := (s.cage c).visit + 1, requests := (t.cage c).requests } ∧
      tookSource .sequencer (s.line c) (t.line c) ∧
      t.penalty c = s.penalty c ∧ t.cageScan c = s.cageScan c ∧
      recorded s t c .inserted .debounce none (s.penalty c).value

/-- The init waits that one event started expire together, and the expiry of any of them ends them all, the
rest untouched: each of their cages counts one identity read and asks for it (R14, R159; the number that says which
waits began together is the model's own, log entry 38).  Where nothing else waits for such a cage, its arbiter then
holds a read of 32 bytes from address 0 (R6).  The reads are presented together: a segment that was IDLE carries out
the first chunk of the request whose cage has the lowest effective level, of equal ones the lowest number (R121).
Visit numbers: log entry 25. -/
def Obligations.InitWaitEnds : Prop :=
  ∀ (c : Cage) (s : State), s.startup.resetHeld = false → (s.cage c).state = .identify →
    (s.cage c).timers.initWait.isSome →
    let together := fun (d : Cage) => decide ((s.cage d).state = .identify ∧
      (s.cage d).timers.initWait.isSome = true ∧
      (s.cage d).timers.initStart = (s.cage c).timers.initStart)
    ∃ t, exec (.initWaitExpiry c) s = .next t ∧
      EndsAs { s with cages := Vector.ofFn (fun d : Cage =>
        if together d then { s.cage d with
          timers := { (s.cage d).timers with initWait := none, initStart := 0 }, identReads := 1,
          requests := addRequest ⟨.identityRead, 0, (s.cage d).visit⟩ (s.cage d).requests }
        else s.cage d) } t ∧
      (∀ d : Cage, together d = true → s.crsSlot d = none → (s.cage d).requests = [] →
        (s.line d).present = true →
        (t.cage d).requests = [] ∧ t.carries d ⟨.identityRead, 0, (s.cage d).visit⟩ 0 32 none) ∧
      (∀ d : Cage, (s.link (segOf d)).state = .idle → (t.crsSlot d).isSome →
        (t.link (segOf d)).state = .chunk ∧
        ∃ (e : Cage) (k : Chunk), segOf e = segOf d ∧ (t.link (segOf d)).chunk = some k ∧
          k.slot = .crs e ∧
          ((t.claim e).level < (t.claim d).level ∨
            ((t.claim e).level = (t.claim d).level ∧ e ≤ d)))

/-- The poll timer restarts for 50 ms at each expiry, and asks for a ready poll unless a poll or an alert
read is waiting or outstanding (R20, R7): where nothing else waits for the cage, its arbiter then holds a
read of 1 byte from address 64 (R6).  Visit numbers: log entry 25. -/
def Obligations.PollTimerExpires : Prop :=
  ∀ (c : Cage) (s : State), s.startup.resetHeld = false → (s.cage c).state = .powerUp →
    (s.cage c).timers.poll.isSome →
    ∃ t, exec (.pollTimerExpiry c) s = .next t ∧
      (s.statusReadDue c = true →
        EndsAs (s.updCage c (fun k => { k with timers := { k.timers with poll := some 50 } })) t) ∧
      (s.statusReadDue c = false →
        EndsAs (s.updCage c (fun k => { k with
          timers := { k.timers with poll := some 50 },
          requests := k.requests ++ [⟨.readyPoll, 0, k.visit⟩] })) t ∧
        (s.crsSlot c = none → (s.cage c).requests = [] → (s.line c).present = true →
          (t.cage c).requests = [] ∧ t.carries c ⟨.readyPoll, 0, (s.cage c).visit⟩ 64 1 none))

/-- The ready timer's expiry in POWER-UP, and the settle timer's in LIGHT-SETTLE and RELIGHT, send the cage
to FAULTED with READY-TIMEOUT or NO-LIGHT and a FAULT record, under the FAULTED pattern; a confirmed claim
of a cage in POWER-UP or LIGHT-SETTLE goes into the release-pending amount (R21, R22, R30, R61).
Visit numbers: log entry 25. -/
def Obligations.TimeoutFaults : Prop :=
  ∀ (i : Instr) (cause : FaultCause) (c : Cage) (s : State), s.startup.resetHeld = false →
    (i = .readyTimerExpiry c ∧ cause = .readyTimeout ∧ (s.cage c).state = .powerUp ∧
        (s.cage c).timers.ready.isSome ∨
     i = .settleTimerExpiry c ∧ cause = .noLight ∧
        ((s.cage c).state = .lightSettle ∨ (s.cage c).state = .relight) ∧
        (s.cage c).timers.settle.isSome) →
    ∃ t, exec i s = .next t ∧ OnlyCage c s t ∧
      t.cage c = { s.cage c with
        state := .faulted, timers := noTimers, cause := cause, linkFails := 0, wantedTx := none,
        visit := (s.cage c).visit + 1, requests := [] } ∧
      tookSource .sequencer (s.line c) (t.line c) ∧
      t.penalty c = s.penalty c ∧
      recorded s t c .fault (s.cage c).state (some cause) (s.penalty c).value ∧
      t.claims.committed = s.claims.committed ∧
      ((s.cage c).state ≠ .relight → (s.claim c).state = .confirmed → (s.claim c).listed = false →
        (t.claim c).state = .none ∧
        t.claims.releasePending = s.claims.releasePending + (s.claim c).draw) ∧
      ((s.cage c).state = .relight → t.claims.releasePending = s.claims.releasePending)

/-- The train timer's expiry: a far end shown dark by the latest sample moves the cage to DARK-WAIT with
no timer and its retry count unchanged; otherwise it is a training retry, with a lane restart write of
all lanes while the count stays below 4, and TRAIN-EXHAUSTED at 4 (R24, R25).  Visit numbers: log entry 25. -/
def Obligations.TrainTimerExpires : Prop :=
  ∀ (c : Cage) (s : State), s.startup.resetHeld = false → (s.cage c).state = .train →
    (s.cage c).timers.train.isSome → (s.line c).link = false →
    ∃ t, exec (.trainTimerExpiry c) s = .next t ∧ OnlyCage c s t ∧ t.penalty c = s.penalty c ∧
      ((∃ r, (s.cageScan c).sample = some r ∧ ∀ e ∈ r.entries, e.rxLost = true) →
        t.cage c = { s.cage c with
          state := .darkWait, timers := noTimers, cause := .none,
          visit := (s.cage c).visit + 1, requests := (t.cage c).requests } ∧
        t.events = s.events) ∧
      ((∀ r, (s.cageScan c).sample = some r → ∃ e ∈ r.entries, e.rxLost = false) →
        ((s.cage c).trainRetries < 3 →
          t.cage c = { s.cage c with
            state := .train, timers := { noTimers with train := some s.conf.trainTimeout },
            cause := .none, trainRetries := (s.cage c).trainRetries + 1,
            visit := (s.cage c).visit + 1, requests := (t.cage c).requests } ∧
          t.events = s.events ∧
          (s.crsSlot c = none → (s.cage c).requests = [] → (s.line c).present = true →
            ∃ r, t.crsSlot c = some r ∧ r.address = 120 ∧
              r.writeData = some [laneMask (s.lanesOf c)])) ∧
        (3 ≤ (s.cage c).trainRetries →
          (t.cage c).state = .faulted ∧ (t.cage c).cause = .trainExhausted ∧
          (t.cage c).timers = noTimers ∧ (t.cage c).requests = [] ∧
          recorded s t c .fault .train (some .trainExhausted) (s.penalty c).value))

/-- The verify timer's expiry moves the cage to IN-SERVICE with an IN-SERVICE record, and its lines to the
pattern that admits the port, unless they are HELD (R26).  Visit numbers: log entry 25. -/
def Obligations.VerifyEnds : Prop :=
  ∀ (c : Cage) (s : State), s.startup.resetHeld = false → (s.cage c).state = .verify →
    (s.cage c).timers.verify.isSome →
    ∃ t, exec (.verifyTimerExpiry c) s = .next t ∧ OnlyCage c s t ∧
      t.cage c = { s.cage c with
        state := .inService, timers := noTimers, cause := .none, visit := (s.cage c).visit + 1,
        requests := (t.cage c).requests } ∧
      t.penalty c = s.penalty c ∧
      recorded s t c .inService .verify none (s.penalty c).value ∧
      ((s.line c).source ≠ .held → t.outputs c = ⟨false, false, true⟩)

/-! ### The management segments (spec/05) -/

/-- A NAK on try 1 or 2 makes the segment wait 1 ms with its cage still selected, and the retry timer's
expiry starts the same chunk again with the next try number: the same bytes at the same address, a write's data
written again whole (R123).  While the segment waits no try is on it. -/
def Obligations.NakRetried : Prop :=
  ∀ (g : Seg) (k : Chunk) (s : State), s.startup.resetHeld = false → (s.link g).chunk = some k →
    ((s.link g).state = .chunk → k.ending = .none → k.tryNo < 3 →
      ∃ t, exec (.chunkNak g) s = .next t ∧
        EndsAs (s.updLink g (fun l =>
          { l with state := .retryWait, stretch := none, retryTimer := some 1 })) t ∧
        t.segmentTry g = none) ∧
    ((s.link g).state = .retryWait → (s.link g).retryTimer.isSome →
      ∃ t, exec (.retryTimerExpiry g) s = .next t ∧
        EndsAs (s.updLink g (fun l =>
          { l with state := .chunk, retryTimer := none,
                   chunk := some { k with tryNo := k.tryNo + 1 } })) t ∧
        ∀ u : State, (u.link g).state = .chunk → (u.link g).chunk = some k →
          t.segmentTry g = u.segmentTry g)

/-- The end of a recovery sequence deselects the cage and brings the segment to IDLE (R124).  So does the
byte boundary of a chunk that a removal has ended, whose CRS request then leaves its slot ABSENT with no
effect (R126, R7), and that of a chunk that a Restart has ended, where no slot changes (R128). -/
def Obligations.SegmentComesToIdle : Prop :=
  ∀ (g : Seg) (s : State), s.startup.resetHeld = false →
    ((s.link g).state = .recovery → ∃ t, exec (.recoverySequenceEnd g) s = .next t ∧
      EndsAs (s.updLink g (fun l => { l with
        state := .idle, chunk := none, stretch := none, retryTimer := none,
        selected := none })) t) ∧
    (∀ k r q b, (s.link g).state = .chunk → (s.link g).chunk = some k → k.ending = .absent →
      (s.link g).inSlot k.slot = some r → r.origin = .crs q b →
      ∃ t, exec (.removalByteBoundary g) s = .next t ∧
        EndsAs (s.updLink g (fun l => Link.setSlot k.slot none { l with
          state := .idle, chunk := none, stretch := none, retryTimer := none,
          selected := none })) t) ∧
    (∀ k, (s.link g).state = .chunk → (s.link g).chunk = some k → k.ending = .restart →
      ∃ t, exec (.restartChunkByteBoundary g) s = .next t ∧
        EndsAs (s.updLink g (fun l => { l with
          state := .idle, chunk := none, stretch := none, retryTimer := none,
          selected := none })) t)

/-- A chunk that ends DONE and is not the last of its request adds its bytes to it, and the request keeps its
slot (R118).  The segment comes to IDLE and is granted its next chunk at once: of the CRS request of the
lowest effective level and then cage number, and of the scanner only where neither a CRS nor a pass-through
request waits (R121).  The try of a granted chunk sends the bytes that R117 gives.  The outcome of a CRS transaction in a powered state moves the link failure count: a
write DONE sets it to 0; a failure raises it, and the third in a row sends the cage to FAULTED with
LINK-ERROR and a FAULT record (R9).  A tx-disable write that failed is asked for again while its value is
wanted, in whatever visit that is, which R8 and R4 leave to inference (log entry 10), a lane restart write in the
visit to TRAIN that asked for it, and a status read never (R8, R24).  Visit numbers: log entry 25. -/
def Obligations.ChunkEnds : Prop :=
  (∀ (g : Seg) (data : List Byte) (k : Chunk) (r : LinkRequest) (s : State),
    s.startup.resetHeld = false → (s.link g).state = .chunk → (s.link g).chunk = some k →
    k.ending = .none → (k.isWrite = true ∨ data.length = k.length) →
    (s.link g).inSlot k.slot = some r → 8 * r.nextChunk < r.length →
    let r' : LinkRequest := { r with bytes := r.bytes ++ (if k.isWrite then [] else data) }
    ∃ t, exec (.chunkDone g data) s = .next t ∧
      EndsAs (s.updLink g (fun l => Link.setSlot k.slot (some r')
        { l with state := .idle, chunk := none, stretch := none, retryTimer := none })) t ∧
      (k.slot ≠ .scanner ∨ (s.scanner g).phase ≠ .idle →
        (t.link g).inSlot k.slot = some r' ∨ (t.link g).inSlot k.slot = some r'.grant) ∧
      ∃ (slot : Slot) (n : LinkRequest), (t.link g).state = .chunk ∧ (t.link g).inSlot slot = some n.grant ∧
        (t.link g).chunk = some (n.chunk slot) ∧ (t.link g).selected = some n.cage ∧ Tries t g n ∧
        (∀ d : Cage, segOf d = g → (t.crsSlot d).isSome → ∃ e : Cage, slot = .crs e ∧ segOf e = g ∧
          ((t.claim e).level < (t.claim d).level ∨
            ((t.claim e).level = (t.claim d).level ∧ e ≤ d))) ∧
        (slot = .scanner → (t.link g).passThrough = none)) ∧
  (∀ (i : Instr) (g : Seg) (k : Chunk) (r : LinkRequest) (q : CrsRequest) (discard : Bool)
      (c : Cage) (s : State), CrsTry s g k r q discard c → tryLost i s g k →
    (s.cage c).state.powered = true →
    ∃ t, exec i s = .next t ∧ OnlyCage c s t ∧ t.penalty c = s.penalty c ∧
      ((s.cage c).linkFails < 2 →
        t.recordIs c { s.cage c with linkFails := (s.cage c).linkFails + 1 } ∧
        t.events = s.events ∧
        (discard = false → (s.line c).present = true →
          (q.kind = .txDisable → (s.cage c).wantedTx = some q.value → t.asksTx c q.value) ∧
          (q.kind = .laneRestart → (s.cage c).state = .train → (s.cage c).visit = q.visit →
            t.asks c q 120 1 (some [q.value]))) ∧
        ((s.cage c).requests = [] →
          (q.kind = .readyPoll ∨ q.kind = .alertRead ∨ discard = true ∨
            (q.kind = .txDisable ∧ (s.cage c).wantedTx ≠ some q.value)) →
          t.crsSlot c = none ∧ (t.cage c).requests = [])) ∧
      (2 ≤ (s.cage c).linkFails →
        t.cage c = (s.cage c).inFault .linkError ∧
        recorded s t c .fault (s.cage c).state (some .linkError) (s.penalty c).value)) ∧
  (∀ (g : Seg) (k : Chunk) (r : LinkRequest) (q : CrsRequest) (discard : Bool) (c : Cage)
      (data : List Byte) (s : State), CrsTry s g k r q discard c → k.isWrite = true →
    r.length ≤ 8 * r.nextChunk → (q.kind = .txDisable ∨ q.kind = .laneRestart) →
    (s.cage c).state.powered = true →
    ∃ t, exec (.chunkDone g data) s = .next t ∧
      EndsAs ((s.updLink g (fun l => Link.setSlot k.slot none
          { l with state := .idle, chunk := none, stretch := none, retryTimer := none })).updCage c
        (fun k => { k with linkFails := 0 })) t)

/-- An identity read that fails in IDENTIFY, on the link by a NAK on try 3 or a stretch timeout, or by its
check byte, whatever the block declares, is asked for again while fewer than three have been counted: where nothing else waits for the
cage, its arbiter then holds a new read of 32 bytes from address 0.  The third failure sends the cage to
FAULTED, with IDENT-UNREADABLE or IDENT-INVALID (R15, R123; that a block with a bad check byte and an impossible n
or Pm is read again as well: log entry 36).  A stretch timeout takes the segment to RECOVERY (R124).  In ADOPT every
failure, of the content too, counts alike, and the third gives LINK-ERROR, its FAULT record after the ADOPTED
one; a read that succeeds sets the identity record and takes the cage to IN-SERVICE where its latched
PORT_ADMIT and its LINK_UP are asserted, and else to LIGHT-SETTLE with an adopted claim and a tx-disable
write of 0 asked for (R38, R39, R45, R8).  Visit numbers: log entry 25. -/
def Obligations.IdentityReadFails : Prop :=
  (∀ (i : Instr) (g : Seg) (k : Chunk) (r : LinkRequest) (q : CrsRequest) (c : Cage) (s : State)
      (cause : FaultCause), CrsTry s g k r q false c → q.kind = .identityRead →
    (s.cage c).state = .identify → (s.cage c).visit = q.visit →
    (cause = .identUnreadable ∧ tryLost i s g k) ∨
      (cause = .identInvalid ∧ ∃ data, i = .chunkDone g data ∧ readEnded k r data ∧
        identityCheckGood (r.bytes ++ data) = false) →
    ∃ t, exec i s = .next t ∧ OnlyCage c s t ∧ t.penalty c = s.penalty c ∧
      (i = .stretchTimeout g → (t.link g).state = .recovery ∧ (t.link g).chunk = none) ∧
      ((s.cage c).identReads < 3 →
        t.recordIs c { s.cage c with identReads := (s.cage c).identReads + 1 } ∧
        t.events = s.events ∧
        ((s.line c).present = true → t.asksIdentity c) ∧
        ((s.line c).present = true → (s.cage c).requests = [] →
          (t.cage c).requests = [] ∧ t.carries c ⟨.identityRead, 0, (s.cage c).visit⟩ 0 32 none)) ∧
      (3 ≤ (s.cage c).identReads →
        t.cage c = (s.cage c).inFault cause ∧
        recorded s t c .fault .identify (some cause) (s.penalty c).value)) ∧
  (∀ (i : Instr) (g : Seg) (k : Chunk) (r : LinkRequest) (q : CrsRequest) (c : Cage) (s : State),
    CrsTry s g k r q false c → q.kind = .identityRead → (s.cage c).state = .adopt →
    (s.cage c).visit = q.visit →
    let lanes := fun (block : List Byte) => (byteAt block 2).toNat
    let pm := fun (block : List Byte) => (byteAt block 3).toNat * 256 + (byteAt block 4).toNat
    let good := fun (block : List Byte) => identityCheckGood block = true ∧
      1 ≤ lanes block ∧ lanes block ≤ 8 ∧ 1 ≤ pm block ∧ pm block ≤ 1000
    let id := fun (block : List Byte) => (⟨lanes block, pm block, (block.drop 5).take 16,
      max 1 (min 4095 ((pm block * s.conf.surgeFactor + 15) / 16))⟩ : Identity)
    ((tryLost i s g k ∨ ∃ data, i = .chunkDone g data ∧ readEnded k r data ∧
        ¬ good (r.bytes ++ data)) →
      ∃ t, exec i s = .next t ∧ OnlyCage c s t ∧ t.penalty c = s.penalty c ∧
        ((s.cage c).identReads < 3 →
          t.recordIs c { s.cage c with identReads := (s.cage c).identReads + 1 } ∧
          t.events = s.events ∧ ((s.line c).present = true → t.asksIdentity c)) ∧
        (3 ≤ (s.cage c).identReads →
          t.cage c = (s.cage c).inFault .linkError ∧
          t.events.histories[c] =
            (madeRecord s c ((s.events.nextSequence + 1) % 65536) .fault .adopt (some .linkError)
                (s.penalty c).value ::
              madeRecord s c s.events.nextSequence .adopted .adopt none (s.penalty c).value ::
              s.events.histories[c]).take 4)) ∧
    (∀ data, i = .chunkDone g data → readEnded k r data → good (r.bytes ++ data) →
      ∃ t, exec i s = .next t ∧ OnlyCage c s t ∧ t.penalty c = s.penalty c ∧
        recorded s t c .adopted .adopt none (s.penalty c).value ∧
        ((∃ l, (s.line c).latched = some l ∧ l.portAdmit = true) → (s.line c).link = true →
          t.recordIs c { s.cage c with
            state := .inService, timers := noTimers, cause := .none,
            identity := some (id (r.bytes ++ data)), visit := (s.cage c).visit + 1 } ∧
          (s.claims.testDue = false → t.claims = s.claims)) ∧
        ((∀ l, (s.line c).latched = some l → l.portAdmit = false) ∨ (s.line c).link = false →
          t.recordIs c (({ s.cage c with identity := some (id (r.bytes ++ data)) } :
            CageRecord).inSettle s.conf .lightSettle) ∧
          ((s.line c).present = true → t.asksTx c 0) ∧
          t.claim c = { s.claim c with
            state := .confirmed, draw := (id (r.bytes ++ data)).draw } ∧
          t.claims.committed = s.claims.committed + (id (r.bytes ++ data)).draw)))

/-- The last chunk of an identity read in IDENTIFY.  Of the blocks with a good check byte, one whose lane count or
Pm is impossible gives IDENT-INVALID at once, one above the cage's maximum gives OVER-CLASS with the record kept, and
every other one builds the identity record with its surge draw, sets the penalty by the reseat memory and takes the
cage to ADMIT-WAIT and onto the admission list (R15, R16, R17, R18, R46, R111).  A block with a bad check byte goes to
no content check: whatever it declares, it is read again while fewer than three reads have been counted, and gives
IDENT-INVALID at the third (R15, log entry 36).  Visit numbers: log entry 25. -/
def Obligations.IdentityJudged : Prop :=
  ∀ (g : Seg) (data : List Byte) (k : Chunk) (r : LinkRequest) (q : CrsRequest) (c : Cage)
    (s : State),
    s.startup.resetHeld = false → (s.link g).state = .chunk → (s.link g).chunk = some k →
    k.ending = .none → k.isWrite = false → data.length = k.length →
    (s.link g).inSlot k.slot = some r → r.length ≤ 8 * r.nextChunk →
    r.origin = .crs q false → r.cage = c → q.kind = .identityRead →
    (s.cage c).state = .identify → (s.cage c).visit = q.visit →
    let block := r.bytes ++ data
    let lanes := (byteAt block 2).toNat
    let pm := (byteAt block 3).toNat * 256 + (byteAt block 4).toNat
    let possible := declaresPossible block
    let id : Identity := ⟨lanes, pm, (block.drop 5).take 16,
      max 1 (min 4095 ((pm * s.conf.surgeFactor + 15) / 16))⟩
    ∃ t, exec (.chunkDone g data) s = .next t ∧ OnlyCage c s t ∧
      (identityCheckGood block = true → ¬ possible →
        (t.cage c).state = .faulted ∧ (t.cage c).cause = .identInvalid ∧
        t.penalty c = s.penalty c ∧
        recorded s t c .fault .identify (some .identInvalid) (s.penalty c).value) ∧
      (identityCheckGood block = false → t.penalty c = s.penalty c ∧
        ((s.cage c).identReads < 3 →
          t.recordIs c { s.cage c with identReads := (s.cage c).identReads + 1 } ∧
          t.events = s.events ∧ ((s.line c).present = true → t.asksIdentity c)) ∧
        (3 ≤ (s.cage c).identReads →
          (t.cage c).state = .faulted ∧ (t.cage c).cause = .identInvalid ∧
          recorded s t c .fault .identify (some .identInvalid) (s.penalty c).value)) ∧
      (identityCheckGood block = true → possible → 10 * (s.cageConf c).maxWatts < pm →
        (t.cage c).state = .faulted ∧ (t.cage c).cause = .overClass ∧
        (t.cage c).identity = some id ∧ t.penalty c = s.penalty c ∧
        recorded s t c .fault .identify (some .overClass) (s.penalty c).value) ∧
      (identityCheckGood block = true → possible → pm ≤ 10 * (s.cageConf c).maxWatts →
        (t.cage c).state = .admitWait ∧ (t.cage c).cause = .none ∧
        (t.cage c).identity = some id ∧ (t.cage c).timers = noTimers ∧ t.events = s.events ∧
        (t.claim c).listed = true ∧ (t.claim c).draw = id.draw ∧
        (t.claim c).level = (s.cageConf c).level ∧ (t.claim c).withdraws = 0 ∧
        (t.claim c).listTime = s.startup.stationTime ∧
        (t.penalty c).lastModule = none ∧
        ((s.penalty c).lastModule = none → (t.penalty c).value = (s.penalty c).value) ∧
        (∀ m, (s.penalty c).lastModule = some m →
          (t.penalty c).value =
            if m.stale = false ∧ m.serial = id.serial ∧
                (s.startup.stationTime - m.removed).toNat ≤ 100 * s.conf.reseatSeconds
            then m.stored / 2 else 0))

/-- The arbiter's answer to the pass-through request being carried sets the REPLY: DONE with the bytes at
its chunk's end, LINK-FAIL after a NAK on try 3 or a stretch timeout, and ABSENT at a removal of its cage,
or, where a chunk of it goes on then, at that chunk's byte boundary (R170, R123, R124, R126, R127).  A removal that
arrives together with the end of another chunk of the cage finds it still waiting (R126; log entry 43). -/
def Obligations.PassThroughAnswered : Prop :=
  (∀ (i : Instr) (g : Seg) (k : Chunk) (r : LinkRequest) (q : Request) (s : State),
    s.startup.resetHeld = false → (s.link g).state = .chunk → (s.link g).chunk = some k →
    (s.link g).inSlot k.slot = some r → r.origin = .passThrough →
    s.service.phase = .carrying → s.service.request = some q → s.bus.txQueue.length < 8 →
    let answered := fun (result : Result) (data : List Byte) (t : State) =>
      t.replyWaits q.code result data ∧
      t.service = { s.service with phase := .replying } ∧ t.lines = s.lines ∧
      t.penalties = s.penalties ∧ t.events = s.events ∧
      ∀ c : Cage, t.cage c = { s.cage c with requests := (t.cage c).requests }
    (k.ending = .none → ∀ data, i = .chunkDone g data →
      (k.isWrite = true ∨ data.length = k.length) → r.length ≤ 8 * r.nextChunk →
      ∃ t, exec i s = .next t ∧
        answered .done (r.bytes ++ (if k.isWrite then [] else data)) t) ∧
    (k.ending = .none → tryLost i s g k →
      ∃ t, exec i s = .next t ∧ answered .linkFail [] t) ∧
    (k.ending = .absent → i = .removalByteBoundary g →
      ∃ t, exec i s = .next t ∧ answered .absent [] t)) ∧
  (∀ (c : Cage) (moment : RemovalMoment) (r : LinkRequest) (q : Request) (s : State),
    s.startup.resetHeld = false → (s.line c).presentHold.isSome → (s.line c).presentRaw = false →
    (s.line c).present = true → s.service.phase = .carrying → s.service.request = some q →
    s.bus.txQueue.length < 8 → (s.link (segOf c)).passThrough = some r →
    r.origin = .passThrough → r.cage = c →
    (∀ k, (s.link (segOf c)).chunk = some k → k.slot ≠ .passThrough ∨ moment = .inStretch ∨
      takesBack moment (s.link (segOf c)) k) →
    ∃ t, exec (.presentHoldExpiry c moment) s = .next t ∧ t.replyWaits q.code .absent [] ∧
      t.service = { s.service with phase := .replying } ∧ (t.line c).present = false ∧
      (t.link (segOf c)).passThrough = none)

/-! ### The scanners (spec/06) -/

/-- The slot timer's expiry stops it; where the scanner is IDLE and its rota holds a cage, the next slot begins at
once.  It goes to the class whose turn it is, or, where that class has no cage, to the other class; there to the next
cage in ascending order after the last one visited of the class, wrapping to the lowest; the turn passes to the class
opposite to that of the cage, the last cage of the other class stays, and the slot timer runs for 10 ms (R136).  Where
the cage's module is present the first chunk of its scan waits with the arbiter or is granted (R137, R119).  Where it
is not, the chunk is answered ABSENT and never enters the slot: the scan is discarded, and the scanner is IDLE again
while the slot timer runs (R119, R139). -/
def Obligations.SlotTimerExpires : Prop :=
  ∀ (g : Seg) (s : State), s.startup.resetHeld = false → (s.scanner g).slotTimer.isSome →
    ((s.scanner g).phase ≠ .idle ∨ s.rota g = [] →
      ∃ t, exec (.slotTimerExpiry g) s = .next t ∧
        EndsAs (s.updScanner g (fun n => { n with slotTimer := none })) t) ∧
    (∀ (cls : Turn) (c : Cage), (s.scanner g).phase = .idle → c ∈ s.rotaClass g cls →
      (cls = (s.scanner g).turn ∨ s.rotaClass g (s.scanner g).turn = []) →
      ∃ t d, exec (.slotTimerExpiry g) s = .next t ∧ SameOutsideWork s t ∧
        d ∈ s.rotaClass g cls ∧
        (∀ last, (s.scanner g).lastOf cls = some last →
          (∀ e ∈ s.rotaClass g cls, last < e → last < d ∧ d ≤ e) ∧
          ((∀ e ∈ s.rotaClass g cls, ¬ last < e) → ∀ e ∈ s.rotaClass g cls, d ≤ e)) ∧
        ((s.scanner g).lastOf cls = none → ∀ e ∈ s.rotaClass g cls, d ≤ e) ∧
        (t.scanner g).slotTimer = some 10 ∧ (t.scanner g).turn = cls.other ∧
        (t.scanner g).lastOf cls = some d ∧
        (t.scanner g).lastOf cls.other = (s.scanner g).lastOf cls.other ∧
        (t.scanner g).sampleBytes = [] ∧
        ((s.line d).present = true →
          (t.scanner g).phase = .scanning ∧ (t.scanner g).cursor = some ⟨d, s.lanesOf d, 0⟩ ∧
          ∃ r, ((t.link g).scanner = some r ∨ (t.link g).scanner = some r.grant) ∧
            r = readRequest .scanner d 64 3) ∧
        ((s.line d).present = false →
          (t.scanner g).phase = .idle ∧ (t.scanner g).cursor = none ∧
          ((t.link g).scanner = (s.link g).scanner ∨ ((s.link g).state = .idle ∧
            (t.link g).scanner = (s.link g).scanner.map LinkRequest.grant))))

/-- The last chunk of a scan of a cage in LIGHT-SETTLE whose module shows no fault.  The record of the
completed scan replaces the cage's sample record, each lane's tx power joins its window, of which the last
four values stay, and the lane stability verdict is the CRS's: with the draw settled as well, the cage goes
on to TRAIN and its claim is released (R138, R141, R142, R143, R144, R22). -/
def Obligations.ScanCompleted : Prop :=
  ∀ (g : Seg) (data : List Byte) (k : Chunk) (r : LinkRequest) (cur : Cursor) (c : Cage)
    (s : State),
    s.startup.resetHeld = false → (s.link g).state = .chunk → (s.link g).chunk = some k →
    k.ending = .none → k.isWrite = false → data.length = k.length →
    (s.link g).inSlot k.slot = some r → r.length ≤ 8 * r.nextChunk → r.origin = .scanner →
    r.cage = c → segOf c = g → (s.scanner g).phase = .scanning →
    (s.scanner g).cursor = some cur → cur.cage = c → cur.lanes ≤ 8 →
    (scanPlan cur.lanes).length ≤ cur.index + 1 → (s.scanner g).slotTimer.isSome →
    (s.cage c).state = .lightSettle →
    (∀ i : Fin 8, ∀ v ∈ (s.cageScan c).windows[i], v ≤ 65535) →
    let bytes := (s.scanner g).sampleBytes ++ (r.bytes ++ data)
    let word := fun (i : Nat) => (byteAt bytes i).toNat * 256 + (byteAt bytes (i + 1)).toNat
    let window := fun (i : Fin 8) => (if i.val < cur.lanes then
      (if (s.cageScan c).windows[i].length < 4 then (s.cageScan c).windows[i]
       else (s.cageScan c).windows[i].drop 1) ++ [word (9 + 6 * i.val)]
      else (s.cageScan c).windows[i])
    let stable := ∀ i : Fin 8, i.val < cur.lanes → (window i).length = 4 ∧
      s.conf.darkFloor ≤ (window i).sum / 4 ∧
      ∀ x ∈ window i, ∀ y ∈ window i, (x - y) * 64 ≤ (window i).sum / 4 * s.conf.tolerance
    (byteAt bytes 0).getLsbD 1 = false →
    ∃ t, exec (.chunkDone g data) s = .next t ∧ OnlyCage c s t ∧ t.events = s.events ∧
      t.penalty c = s.penalty c ∧
      (t.cageScan c).sample = some {
        time := s.startup.stationTime,
        temperature := max (-400) (min 1250
          (if word 3 < 32768 then (word 3 : Int) else (word 3 : Int) - 65536)),
        supply := word 5, lanes := cur.lanes,
        entries := (List.range cur.lanes).map (fun i =>
          ⟨word (7 + 6 * i), word (9 + 6 * i), word (11 + 6 * i), (byteAt bytes 1).getLsbD i,
           (byteAt bytes 2).getLsbD i⟩),
        draw := (s.cageScan c).history.getLast? } ∧
      (∀ i : Fin 8, (t.cageScan c).windows[i] = window i) ∧
      (t.scanner g).phase = .idle ∧ (t.scanner g).cursor = none ∧
      (t.scanner g).sampleBytes = [] ∧
      ((t.cage c).laneStable = true ↔ stable) ∧
      (stable → (s.cage c).drawSettled = true → (s.line c).link = false →
        (t.cage c).state = .train ∧ (t.cage c).trainRetries = 0 ∧
        t.claims.releasePending = s.claims.releasePending + (s.claim c).draw) ∧
      (¬ stable ∨ (s.cage c).drawSettled = false → (t.cage c).state = .lightSettle ∧
        (t.cage c).timers = (s.cage c).timers)

/-! ### The coordination bus (spec/03) -/

/-- An attempt takes the eligible frame of lowest precedence value, of equal ones the oldest; it is under
attempt from then on (R91).  A STATUS takes its content at that moment: the committed total less the d of each
CONFIRM still waiting, the open tags whose INTENT has been sent, the run state, the bus health, and the number of
cages in IN-SERVICE (R65, R87).  The order of the tags is open (log entry 1).  The first STATUS after a Restart carries
the run state of the attempt, or ADOPTING (R188): which of the two is a free value (log entry 39). -/
def Obligations.AttemptTakesMostUrgent : Prop :=
  ∀ s : State, s.startup.resetHeld = false → s.startup.runState ≠ .loading →
    (∀ f ∈ s.bus.txQueue, f.mark = .waiting) →
    (∃ f ∈ s.bus.txQueue, f.eligible s.bus.health = true) →
    ∃ t i f content, exec .txAttemptStart s = .next t ∧ s.bus.txQueue[i]? = some f ∧
      f.eligible s.bus.health = true ∧
      (∀ j e, s.bus.txQueue[j]? = some e → e.eligible s.bus.health = true →
        f.body.classNo * 1024 + f.level * 32 ≤ e.body.classNo * 1024 + e.level * 32 ∧
        (j < i → f.body.classNo * 1024 + f.level * 32 < e.body.classNo * 1024 + e.level * 32)) ∧
      content.describes s ∧
      EndsAs (s.updBus (fun b => { b with txQueue := b.txQueue.set i { f with
        mark := .attempting,
        body := if f.body.isStatus then .status content else f.body } })) t

/-- The end of an attempt with a good receipt in ACTIVE or CAUTIOUS: the frame leaves the queue, the
transmit error count falls by 1, and the health is CAUTIOUS where a count is then 64 or above and ACTIVE where
not; the queue-time test is run where it has become ACTIVE (R78, R96, R97).  After a STATUS or a CAGE-REPORT, a
STATUS marked for renewal, blank until its attempt (log entry 33), or a follow-on report takes a new place at the
queue's end (R87, R93).  After the service unit's REPLY the service unit is IDLE where no request waits, and else
takes the oldest, which it serves as it would serve one that reaches it in IDLE (R162).  After a CONFIRM or a
WITHDRAW its tag is closed and the queue-time test is run (R41, R52).  After an INTENT its claim is PENDING and its
window is open for W ms, the last of the open windows (R54), and the test is run.  A frame whose attempt was
under way at a Restart leaves the queue, and nothing else happens: no count moves, and no block hears of it (R74).  The
first STATUS sent since a Restart is marked as sent (log entry 39). -/
def Obligations.FrameSent : Prop :=
  ∀ (clocks : ClockHold) (i : Nat) (f : TxFrame) (s : State), s.startup.resetHeld = false →
    s.startup.runState ≠ .loading → s.underAttempt = some (i, f) →
    (f.mark = .detached → ∃ t, exec (.goodReceipt clocks) s = .next t ∧ EndsAs (s.dequeued i) t) ∧
    (f.mark = .attempting → s.bus.health = .active ∨ s.bus.health = .cautious →
    s.bus.txErrors ≤ 160 →
    let health : BusHealth :=
      (if 64 ≤ s.bus.txErrors - 1 ∨ 64 ≤ s.bus.rxErrors then .cautious else .active)
    let tested := fun (u : State) =>
      if s.bus.health = .cautious ∧ health = .active then dueTest u else u
    let sent := s.updBus (fun b => { b with
      txErrors := b.txErrors - 1, health := health, txQueue := b.txQueue.eraseIdx i })
    (f.body.isStatus = true ∨ f.body.isReport = true →
      ∃ t, exec (.goodReceipt clocks) s = .next t ∧
        EndsAs (tested (sent.updBus (fun b => { b with
          statusRenew := if f.body.isStatus then false else b.statusRenew,
          afterRestart := if f.body.isStatus then false else b.afterRestart,
          txQueue := b.txQueue ++
            (if f.body.isStatus then (if b.statusRenew then [newFrame 31 blankStatus] else [])
             else match f.followOn with
               | some k => [newFrame k.level (.cageReport k.report)]
               | none => []) }))) t) ∧
    (∀ code result data, f.body = .reply code result data → s.service.phase = .replying →
      (s.bus.serviceQueue = [] →
        ∃ t, exec (.goodReceipt clocks) s = .next t ∧
          EndsAs (tested { sent with
            service := { s.service with phase := .idle, request := none } }) t) ∧
      (∀ r rest, s.bus.serviceQueue = r :: rest →
        ∃ t, exec (.goodReceipt clocks) s = .next t ∧ t.bus.serviceQueue = rest ∧
          t.service.request = some r ∧ t.service.phase ≠ .idle ∧
          t.bus.txErrors = s.bus.txErrors - 1 ∧ t.bus.health = health) ∧
      (∀ j r, rowRequest j = some r → s.bus.serviceQueue = [r] →
        exec (.goodReceipt clocks) s = exec j (tested { sent.updBus (fun b => { b with
            serviceQueue := [] }) with
          service := { s.service with phase := .idle, request := none } }))) ∧
    (∀ tag, f.body.answerTag = some tag →
      ∃ t, exec (.goodReceipt clocks) s = .next t ∧ EndsAs (dueTest sent) t ∧
        ((∀ x ∈ s.claims.intents, x.tag ≠ tag) →
          (∀ j e, s.bus.txQueue[j]? = some e → j ≠ i → e.body.answerTag ≠ some tag) →
          tag ∉ sent.openTags ∧ (s.claims.lastTag + 1 ≠ tag → s.claims.lastTag + 2 ≠ tag →
            tag ∉ t.openTags)) ∧
        (s.startup.runState ≠ .running → t.claims.intents = s.claims.intents ∧
          t.bus.txQueue = s.bus.txQueue.eraseIdx i)) ∧
    (∀ (c : Cage) (tag : Tag) (d : Nat) (e : OwnIntent), f.body = .intent c tag d →
      s.intentOf tag = some e → e.cage = c →
      ∃ t, exec (.goodReceipt clocks) s = .next t ∧
        EndsAs (dueTest (setClaim c .pending (sent.updClaims (fun u => { u with
          intents := u.intents.filter (fun x => decide (x.tag ≠ tag)) ++
            [{ e with deadline := some s.conf.window }] })))) t ∧
        (t.claim c).state = .pending ∧
        t.openIntent tag = some { e with deadline := some s.conf.window } ∧
        t.bus.txErrors = s.bus.txErrors - 1 ∧
        ((∀ j x, s.bus.txQueue[j]? = some x → j ≠ i → x.body.isIntentOf tag = false) →
          s.claims.lastTag + 1 ≠ tag → ∀ x ∈ t.bus.txQueue, x.body.isIntentOf tag = false)))

/-- Where a cage moves from one state to another, a CAGE-REPORT with its cage, the new state, the cause in
FAULTED and NONE elsewhere, and its penalty goes to the transmit queue at the cage's effective level (R3, R90):
it takes the place of a waiting report of the cage, is kept as the follow-on of one under attempt, or takes a
new place at the queue's end; where the queue is full it is dropped and the report-drop count rises, at most to
65535 (R90, R92, R93).  Whatever line, timer, conversion or request moves a cage, its report waits at the end of
the event where the queue had room for it and none of the cage is under attempt.  Any other frame that finds the
queue full, here the STATUS of an announce tick, takes a new place after the waiting report of the highest
precedence value, the latest of equals, has been removed and counted (R92).  A report still under attempt since
a Restart is neither of these (log entry 35); a STATUS is blank until its attempt (log entry 33).  -/
def Obligations.CageReportHanded : Prop :=
  (∀ (i : Instr) (c : Cage) (state : CageState) (cause : FaultCause) (s : State),
    s.startup.resetHeld = false → s.claims.testDue = false →
    (i = .debounceTimerExpiry c ∧ (s.cage c).state = .debounce ∧
        (s.cage c).timers.debounce.isSome ∧ state = .identify ∧ cause = .none ∨
     i = .linkUpHoldExpiry c ∧ (s.cage c).state = .train ∧ (s.line c).linkHold.isSome ∧
        (s.line c).linkRaw = true ∧ (s.line c).link = false ∧ state = .verify ∧ cause = .none ∨
     i = .verifyTimerExpiry c ∧ (s.cage c).state = .verify ∧ (s.cage c).timers.verify.isSome ∧
        state = .inService ∧ cause = .none ∨
     i = .settleTimerExpiry c ∧ (s.cage c).state = .relight ∧ (s.cage c).timers.settle.isSome ∧
        state = .faulted ∧ cause = .noLight) →
    let report : CageReport := ⟨c, state, cause, (s.penalty c).value⟩
    let level := (s.claim c).level
    let ofCage := fun (mark : TxMark) (f : TxFrame) => f.mark = mark ∧ f.body.isReportOf c = true
    ∃ t, exec i s = .next t ∧ (t.cage c).state = state ∧ t.claims = s.claims ∧
      ((∃ f ∈ s.bus.txQueue, ofCage .waiting f) →
        t.bus = { s.bus with txQueue := s.bus.txQueue.map (fun f =>
          if f.mark = .waiting ∧ f.body.isReportOf c = true
          then { f with body := .cageReport report, level := level } else f) }) ∧
      ((∀ f ∈ s.bus.txQueue, ¬ ofCage .waiting f) → (∃ f ∈ s.bus.txQueue, ofCage .attempting f) →
        t.bus = { s.bus with txQueue := s.bus.txQueue.map (fun f =>
          if f.mark = .attempting ∧ f.body.isReportOf c = true
          then { f with followOn := some ⟨report, level⟩ } else f) }) ∧
      ((∀ f ∈ s.bus.txQueue, ¬ ofCage .waiting f ∧ ¬ ofCage .attempting f) →
        (s.bus.txQueue.length < 8 → t.bus = { s.bus with
          txQueue := s.bus.txQueue ++ [newFrame level (.cageReport report)] }) ∧
        (8 ≤ s.bus.txQueue.length → t.bus = { s.bus with
          reportDrop := min 65535 (s.bus.reportDrop + 1) }))) ∧
  (∀ (i : Nat) (f : TxFrame) (s : State), s.startup.resetHeld = false → s.bus.announce.isSome →
    s.startup.runState ≠ .running → (s.startup.runState = .listening → s.startup.listenTicks = 0) →
    8 ≤ s.bus.txQueue.length → (∀ e ∈ s.bus.txQueue, e.body.isStatus = false) →
    s.bus.txQueue[i]? = some f → f.mark = .waiting → f.body.isReport = true →
    (∀ j e, s.bus.txQueue[j]? = some e → e.mark = .waiting → e.body.isReport = true →
      e.level < f.level ∨ (e.level = f.level ∧ j ≤ i)) →
    ∃ t, exec .announceTick s = .next t ∧ t.bus = { s.bus with
      announce := some s.conf.announce, reportDrop := min 65535 (s.bus.reportDrop + 1),
      txQueue := s.bus.txQueue.eraseIdx i ++ [newFrame 31 blankStatus] }) ∧
  (∀ (i : Instr) (c : Cage) (moment : RemovalMoment) (code : BitVec 10) (tag : Tag) (s : State),
    i ∈ [Instr.presentHoldExpiry c moment, .linkUpHoldExpiry c, .debounceTimerExpiry c,
      .readyTimerExpiry c, .settleTimerExpiry c, .trainTimerExpiry c, .verifyTimerExpiry c,
      .currentSenseConversion code, .windowDeadline tag, .hold c, .unhold c, .retry c,
      .clearPenalty c] →
    s.bus.txQueue.length ≤ 3 →
    (∀ f ∈ s.bus.txQueue, f.body.isReportOf c = true → f.mark ≠ .attempting) →
    ∃ t, exec i s = .next t ∧ ((t.cage c).state ≠ (s.cage c).state →
      ∃ f ∈ t.bus.txQueue, f.mark = .waiting ∧ f.level = (t.claim c).level ∧
        f.body = .cageReport ⟨c, (t.cage c).state,
          if (t.cage c).state = .faulted then (t.cage c).cause else .none, (t.penalty c).value⟩))

/-- The good receipt of a RELEASE takes the amount it carried off the release-pending amount and off the
own committed total; what is left of the release-pending amount goes into a new RELEASE (R43, R44). -/
def Obligations.ReleaseSent : Prop :=
  ∀ (clocks : ClockHold) (i : Nat) (f : TxFrame) (amount : Nat) (s : State),
    s.startup.resetHeld = false → s.startup.runState ≠ .loading → s.underAttempt = some (i, f) →
    f.mark = .attempting → f.body = .release amount → amount ≤ s.claims.releasePending →
    s.bus.txQueue.length ≤ 8 →
    (∀ j e, s.bus.txQueue[j]? = some e → j ≠ i → e.body.isRelease = false) →
    ∃ t, exec (.goodReceipt clocks) s = .next t ∧
      t.claims.releasePending = s.claims.releasePending - amount ∧
      t.claims.committed = s.claims.committed - amount ∧
      (amount = s.claims.releasePending →
        ∀ e ∈ t.bus.txQueue, e.body.isRelease = false) ∧
      (amount < s.claims.releasePending →
        newFrame 0 (.release (s.claims.releasePending - amount)) ∈ t.bus.txQueue) ∧
      t.lines = s.lines ∧ t.penalties = s.penalties ∧ t.peers = s.peers ∧ t.events = s.events ∧
      ∀ c : Cage, t.cage c = { s.cage c with requests := (t.cage c).requests }

/-- A lost arbitration changes no count and no health: the frame waits again, a RELEASE with the whole of
the release-pending amount, and a follow-on report in the place of its report (R77, R44, R93).  An INTENT marked
during its attempt is cancelled instead: its frame and its entry go, its claim is NONE, and the queue-time test is
run (R53, R54, R52).  A frame whose attempt was under way at a Restart leaves the queue, and nothing else
happens (R74). -/
def Obligations.LostArbitration : Prop :=
  ∀ (i : Nat) (f : TxFrame) (s : State), s.startup.resetHeld = false →
    s.startup.runState ≠ .loading → s.underAttempt = some (i, f) →
    (f.mark = .detached → ∃ t, exec .lostArbitration s = .next t ∧ EndsAs (s.dequeued i) t) ∧
    (f.mark = .attempting →
    let again : TxFrame := (match f.body, f.followOn with
      | .release _, _ => { f with mark := .waiting, body := .release s.claims.releasePending }
      | .cageReport _, some k => newFrame k.level (.cageReport k.report)
      | _, _ => { f with mark := .waiting })
    let lost := s.updBus (fun b => { b with
      statusRenew := if f.body.isStatus then false else b.statusRenew,
      txQueue := b.txQueue.set i again })
    ((∀ c tag d, f.body = .intent c tag d → ∀ x, s.intentOf tag = some x →
        x.withdrawAtEnd = false) →
      ∃ t, exec .lostArbitration s = .next t ∧ EndsAs lost t) ∧
    (∀ c tag d x, f.body = .intent c tag d → s.intentOf tag = some x → x.withdrawAtEnd = true →
      ∃ t, exec .lostArbitration s = .next t ∧
        EndsAs (dueTest (setClaim x.cage .none ((lost.updClaims (fun u => { u with
          intents := u.intents.filter (fun y => decide (y.tag ≠ tag)) })).updBus (fun b => { b with
          txQueue := b.txQueue.filter (fun y =>
            !(decide (y.mark = .waiting) && y.body.isIntentOf tag)) })))) t))

/-- An attempt that ends by an error raises the transmit error count by 4, at most to 160, and records the
error; the frame waits again, a RELEASE with the whole release-pending amount, and a follow-on report in the
place of its report (R79, R96, R44, R93).  Below 64 the health is ACTIVE, and the queue-time test is run where
it becomes so; from 64 on it is CAUTIOUS; at 160 it is SILENT, where every own intent that is left is marked to
end in a WITHDRAW (R97, R64).  An INTENT marked during its attempt is cancelled instead: its frame and its
entry go, its claim is NONE, and the test is run (R53, R54, R52).  A frame whose attempt was under way at a
Restart leaves the queue and counts for nothing (R74); that the error is recorded all the same is the model's
choice (log entry 19). -/
def Obligations.TransmitErrorCounted : Prop :=
  ∀ (e : TxError) (i : Nat) (f : TxFrame) (s : State), s.startup.resetHeld = false →
    s.startup.runState ≠ .loading → s.underAttempt = some (i, f) →
    let error : BusError := (match e with | .bit => .bit | .receipt => .receipt)
    (f.mark = .detached → ∃ t, exec (.transmitError e) s = .next t ∧
      EndsAs ((s.updBus (fun b => { b with lastError := error })).dequeued i) t) ∧
    (f.mark = .attempting → s.bus.health = .active ∨ s.bus.health = .cautious →
    let health : BusHealth :=
      (if 160 ≤ s.bus.txErrors + 4 then .silent
       else if 64 ≤ s.bus.txErrors + 4 ∨ 64 ≤ s.bus.rxErrors then .cautious else .active)
    let again : TxFrame := (match f.body, f.followOn with
      | .release _, _ => { f with mark := .waiting, body := .release s.claims.releasePending }
      | .cageReport _, some k => newFrame k.level (.cageReport k.report)
      | _, _ => { f with mark := .waiting })
    let failed := s.updBus (fun b => { b with
      txErrors := min 160 (b.txErrors + 4), lastError := error, health := health,
      statusRenew := if f.body.isStatus then false else b.statusRenew,
      txQueue := b.txQueue.set i again })
    ((∀ c tag d, f.body = .intent c tag d → ∀ x, s.intentOf tag = some x →
        x.withdrawAtEnd = false) →
      ∃ t, exec (.transmitError e) s = .next t ∧
        t.bus.txErrors = min 160 (s.bus.txErrors + 4) ∧ t.bus.rxErrors = s.bus.rxErrors ∧
        t.bus.lastError = error ∧ t.bus.health = health ∧
        (health = .silent → (∀ x ∈ t.claims.intents, x.withdrawAtEnd = true) ∧
          (f.body.isIntent = false → again ∈ t.bus.txQueue)) ∧
        (health = .cautious ∨ s.bus.health = .active ∧ health = .active → EndsAs failed t) ∧
        (s.bus.health = .cautious → health = .active → EndsAs (dueTest failed) t)) ∧
    (∀ c tag d x, f.body = .intent c tag d → s.intentOf tag = some x → x.withdrawAtEnd = true →
      health ≠ .silent →
      ∃ t, exec (.transmitError e) s = .next t ∧
        EndsAs (dueTest (setClaim x.cage .none ((failed.updClaims (fun u => { u with
          intents := u.intents.filter (fun y => decide (y.tag ≠ tag)) })).updBus (fun b => { b with
          txQueue := b.txQueue.filter (fun y =>
            !(decide (y.mark = .waiting) && y.body.isIntentOf tag)) })))) t))

/-- A receive error, detected or found in a frame that does not pass its checks, raises the receive error
count by 1, at most to 127, and records the error (R79, R96).  The health is CAUTIOUS where a count is then
64 or above and ACTIVE where both are below, and nothing else follows but the queue-time test where it has
become ACTIVE (R97); in SILENT and RECOVERING the error is recorded and the count does not move (R96). -/
def Obligations.ReceiveErrorCounted : Prop :=
  ∀ (i : Instr) (e : RxError) (s : State), s.startup.resetHeld = false →
    s.startup.runState ≠ .loading →
    (i = .receiveError e ∨
      ∃ raw, i = .goodReception raw ∧ ∀ b, decodeFrame b raw = .error e) →
    let error : BusError := (match e with | .check => .check | .form => .form)
    let counted := fun (health : BusHealth) => s.updBus (fun b => { b with
      rxErrors := min 127 (b.rxErrors + 1), lastError := error, health := health })
    (s.bus.health = .active → s.bus.rxErrors < 63 → s.bus.txErrors < 64 →
      ∃ t, exec i s = .next t ∧ EndsAs (s.updBus (fun b => { b with
        rxErrors := b.rxErrors + 1, lastError := error })) t) ∧
    (s.bus.health = .active ∨ s.bus.health = .cautious → s.bus.txErrors < 160 →
      63 ≤ s.bus.rxErrors ∨ 64 ≤ s.bus.txErrors →
      ∃ t, exec i s = .next t ∧ t.bus.rxErrors = min 127 (s.bus.rxErrors + 1) ∧
        t.bus.health = .cautious ∧ t.bus.lastError = error ∧ EndsAs (counted .cautious) t) ∧
    (s.bus.health = .cautious → s.bus.rxErrors < 63 → s.bus.txErrors < 64 →
      ∃ t, exec i s = .next t ∧ EndsAs (dueTest (counted .active)) t) ∧
    (s.bus.health = .silent ∨ s.bus.health = .recovering →
      ∃ t, exec i s = .next t ∧ EndsAs (s.updBus (fun b => { b with lastError := error })) t)

/-- A good reception lowers the receive error count by 1, but in SILENT and RECOVERING; where it takes a
CAUTIOUS part back to ACTIVE the queue-time test is run (R81, R96, R97).  A budget frame from another station
enters the budget receive queue, and one that finds it full is lost: the budget-loss count rises, the station
is Blind for an announce period, and every own intent that is left is marked to end in a WITHDRAW (R95, R63).
A REQUEST for the part from a source that matches enters the service receive queue, is taken at once where the
service unit is IDLE, and is counted as an overflow where the queue holds four; from a source that does not
match it is denied and counted (R88, R162).  A REPLY, a CAGE-REPORT, a REQUEST for another station and a frame
with the part's own number as its source reach no block (R81). -/
def Obligations.GoodReceptionRouted : Prop :=
  ∀ (raw : RawFrame) (f : Frame) (s : State), s.startup.resetHeld = false →
    s.startup.runState ≠ .loading → (∀ b, decodeFrame b raw = .ok f) →
    let rx := (if s.bus.health = .silent ∨ s.bus.health = .recovering then s.bus.rxErrors
               else s.bus.rxErrors - 1)
    let budget := f.body.classNo ≤ 1
    let other := f.source ≠ s.startup.station
    let nowhere := f.source = s.startup.station ∨ f.body.isReply = true ∨ f.body.isReport = true ∨
      ∃ target code args, f.body = .request target code args ∧ target ≠ s.startup.station
    ((s.bus.health = .active ∧ s.bus.txErrors < 64 ∧ s.bus.rxErrors < 64) ∨
      (s.bus.health = .cautious ∧ s.bus.txErrors < 160 ∧
        (64 ≤ s.bus.txErrors ∨ 65 ≤ s.bus.rxErrors)) ∨
      s.bus.health = .silent ∨ s.bus.health = .recovering →
    (other → budget → s.bus.budgetQueue.length < 16 →
      ∃ t, exec (.goodReception raw) s = .next t ∧
      EndsAs (s.updBus (fun b => { b with
        rxErrors := rx, budgetQueue := b.budgetQueue ++ [f] })) t) ∧
    (other → budget → 16 ≤ s.bus.budgetQueue.length →
      ∃ t, exec (.goodReception raw) s = .next t ∧
      t.bus.budgetQueue = s.bus.budgetQueue ∧
      t.bus.budgetLoss = min 65535 (s.bus.budgetLoss + 1) ∧
      t.bus.rxErrors = rx ∧
      t.claims.blind = true ∧ t.claims.blindTimer = some s.conf.announce ∧
      (∀ x ∈ t.claims.intents, x.withdrawAtEnd = true) ∧
      t.claims.committed = s.claims.committed ∧
      t.claims.releasePending = s.claims.releasePending ∧ t.peers = s.peers ∧
      t.lines = s.lines ∧ t.penalties = s.penalties ∧ t.events = s.events) ∧
    (∀ code args, other → f.body = .request s.startup.station code args →
      (sourceMatches s.conf f.source = false → ∃ t, exec (.goodReception raw) s = .next t ∧
        EndsAs (s.updBus (fun b => { b with
          rxErrors := rx, denied := min 65535 (b.denied + 1) })) t) ∧
      (sourceMatches s.conf f.source = true → 4 ≤ s.bus.serviceQueue.length →
        ∃ t, exec (.goodReception raw) s = .next t ∧ EndsAs (s.updBus (fun b => { b with
          rxErrors := rx, serviceOverflow := min 65535 (b.serviceOverflow + 1) })) t) ∧
      (sourceMatches s.conf f.source = true → s.bus.serviceQueue.length < 4 →
        s.service.phase ≠ .idle →
        ∃ t, exec (.goodReception raw) s = .next t ∧ EndsAs (s.updBus (fun b => { b with
          rxErrors := rx, serviceQueue := b.serviceQueue ++ [⟨code, args⟩] })) t) ∧
      (sourceMatches s.conf f.source = true → s.bus.serviceQueue = [] →
        s.service.phase = .idle →
        ∃ t, exec (.goodReception raw) s = .next t ∧ t.bus.rxErrors = rx ∧
          t.bus.serviceQueue = [] ∧ t.service.phase ≠ .idle ∧
          t.service.request = some ⟨code, args⟩)) ∧
    (nowhere → ∃ t, exec (.goodReception raw) s = .next t ∧
      EndsAs (s.updBus (fun b => { b with rxErrors := rx })) t)) ∧
    (s.bus.health = .cautious → s.bus.txErrors < 64 → s.bus.rxErrors < 65 → nowhere →
      ∃ t, exec (.goodReception raw) s = .next t ∧
      EndsAs (dueTest (s.updBus (fun b => { b with rxErrors := rx, health := .active }))) t)

/-- SILENT ends in RECOVERING where the bus is seen idle, with no gap counted (R99).  Each recovery gap
counts one, and the one that brings the count to 48 ends RECOVERING in ACTIVE with both error counts at 0;
the table's row for the count reached is that same event (R100).  Log entry 15 is the model's choice for the
two rows, and that the gap count stays at 48 in ACTIVE is read by inference (log entry 27). -/
def Obligations.ReturnFromSilent : Prop :=
  ∀ s : State, s.startup.resetHeld = false → s.startup.runState ≠ .loading →
    (s.bus.health = .silent → ∃ t, exec .busSeenIdle s = .next t ∧
      EndsAs (s.updBus (fun b => { b with health := .recovering, gapCount := 0 })) t) ∧
    (s.bus.health = .recovering → s.bus.gapCount < 47 → ∃ t, exec .recoveryGap s = .next t ∧
      EndsAs (s.updBus (fun b => { b with gapCount := b.gapCount + 1 })) t) ∧
    (∀ i, i = .recoveryGap ∨ i = .recoveryGapCountReached → s.bus.health = .recovering →
      s.bus.gapCount = 47 → ∃ t, exec i s = .next t ∧ t.claims.testDue = false ∧
      SameOutsideWork (s.updBus (fun b => { b with
        health := .active, txErrors := 0, rxErrors := 0, gapCount := 48 })) t)

/-- An announce tick restarts the announce timer for P, queues a STATUS where none is in the queue and
marks one under attempt for renewal, ages every Present peer entry, and counts in LISTENING (R86, R72,
R186). -/
def Obligations.AnnounceTick : Prop :=
  ∀ s : State, s.startup.resetHeld = false → s.bus.announce.isSome →
    (s.startup.runState = .listening → s.startup.listenTicks = 0) →
    s.bus.txQueue.length < 8 → (∀ f ∈ s.bus.txQueue, f.mark ≠ .detached) →
    ∃ t, exec .announceTick s = .next t ∧ t.bus.announce = some s.conf.announce ∧
      (∀ n : Station, t.peer n =
        (match (s.peer n).status with
         | .present =>
           if 3 ≤ (s.peer n).age then { s.peer n with status := .aged, age := 4 }
           else { s.peer n with age := (s.peer n).age + 1 }
         | .aged => s.peer n
         | .unknown => s.peer n)) ∧
      (∃ f ∈ t.bus.txQueue, f.body.isStatus = true) ∧
      ((∀ f ∈ s.bus.txQueue, f.body.isStatus = true → f.mark = .attempting) →
        (∃ f ∈ s.bus.txQueue, f.body.isStatus = true) → t.bus.statusRenew = true) ∧
      (s.startup.runState = .listening →
        t.startup.runState = .listening ∧ t.startup.listenTicks = 1) ∧
      t.claims.testDue = false ∧ t.lines = s.lines ∧ t.penalties = s.penalties ∧
      t.events = s.events ∧ t.scan.cages = s.scan.cages ∧
      ∀ c : Cage, t.cage c = { s.cage c with requests := (t.cage c).requests }

/-- The listen interval ends at the second tick taken in LISTENING: RUNNING, HELD lifted from every cage,
whose named source comes into force, and the init wait started for each cage in IDENTIFY whose source
thereby becomes SEQUENCER (R186, R187, R156, R159).  The table's row for the end of the interval is that
same event (log entry 15 is the model's choice for the two rows).  The number under which an init wait starts is the model's own (log
entry 38). -/
def Obligations.ListenIntervalEnds : Prop :=
  ∀ (i : Instr) (s : State), s.startup.resetHeld = false → s.startup.runState = .listening →
    s.startup.listenTicks = 1 →
    (i = .listenIntervalEnd ∨ i = .announceTick ∧ s.bus.announce.isSome) →
    ∃ t, exec i s = .next t ∧
      t.startup = { s.startup with runState := .running, listenTicks := 2 } ∧
      (∀ c : Cage,
        t.line c = (match (s.line c).source, (s.line c).named with
          | .held, some n => { s.line c with source := n.source }
          | _, _ => s.line c) ∧
        t.cage c = { s.cage c with
          timers := (if (s.line c).source = .held ∧ (s.line c).named = some .sequencer ∧
              (s.cage c).state = .identify ∧ (s.cage c).timers.initWait = none ∧
              (s.cage c).identReads = 0
            then { (s.cage c).timers with initWait := some 2000, initStart := s.openChoices }
            else (s.cage c).timers),
          requests := (t.cage c).requests }) ∧
      t.claims.testDue = false ∧ t.penalties = s.penalties ∧ t.events = s.events ∧
      t.scan.cages = s.scan.cages

/-! ### The peer view and the claims (spec/02) -/

/-- A peer entry whose age reaches 4 becomes Aged and keeps the rest (R72; log entry 15 is the model's
choice for this row).  A pending intent that is promoted leaves its list, and its d goes into the
confirmed total, at most to 65520 (R71, R66). -/
def Obligations.PeerEntryEvents : Prop :=
  ∀ (n : Station) (s : State), s.startup.resetHeld = false →
    ((s.peer n).status = .present → (s.peer n).age = 3 →
      ∃ t, exec (.peerEntryAged n) s = .next t ∧ t.claims.testDue = false ∧
        SameOutsideWork (s.updPeer n (fun e => { e with status := .aged, age := 4 })) t) ∧
    (∀ tag i, (s.peer n).intents.find? (fun x => decide (x.tag = tag)) = some i →
      ∃ t, exec (.peerIntentPromotion n tag) s = .next t ∧
        EndsAs (s.updPeer n (fun e => { e with
          confirmed := min 65520 (e.confirmed + i.draw),
          intents := e.intents.filter (fun x => decide (x.tag ≠ tag)) })) t)

/-- The oldest frame of the budget receive queue is applied to its source's entry and leaves the queue;
no other entry changes, and where no judgement waits for it nothing else does.  The entry becomes Present
with age 0, an Unknown one with the unknown allowance as its total unless the frame is a STATUS (R67).  An
INTENT joins the end of the list, a listed one of its tag promoted first, and then the oldest of four
(R68); a CONFIRM moves its d into the total and a WITHDRAW only leaves the list (R69); a RELEASE lowers the
total, not below 0; a STATUS replaces the total, the run state and the health, and keeps only the intents
it lists (R70). -/
def Obligations.BudgetFrameApplied : Prop :=
  ∀ (f : Frame) (rest : List Frame) (s : State), s.startup.resetHeld = false →
    s.bus.budgetQueue = f :: rest →
    let e := s.peer f.source
    let ready : PeerEntry := { e with
      status := .present, age := 0,
      confirmed := if e.status = .unknown ∧ f.body.isStatus = false then s.conf.unknownAllow
                   else e.confirmed }
    let without := fun (tag : Tag) => e.intents.filter (fun i => decide (i.tag ≠ tag))
    let applied := fun (i : Instr) (entry : PeerEntry) => ∃ t, exec i s = .next t ∧
      t.peer f.source = entry ∧ (∀ n : Station, n ≠ f.source → t.peer n = s.peer n) ∧
      t.bus.budgetQueue = rest ∧ t.claims.testDue = false ∧
      ((∀ x ∈ s.claims.intents, x.noted = none) →
        SameOutsideWork ((s.updPeer f.source (fun _ => entry)).updBus
          (fun b => { b with budgetQueue := rest })) t)
    (∀ c tag d, f.body = .intent c tag d →
      ((∀ i ∈ e.intents, i.tag ≠ tag) → e.intents.length < 4 →
        applied .applyIntent { ready with intents := e.intents ++ [⟨tag, d, f.level, 0⟩] }) ∧
      (∀ i, e.intents.find? (fun i => decide (i.tag = tag)) = some i → e.intents.length ≤ 4 →
        applied .applyIntent { ready with
          confirmed := min 65520 (ready.confirmed + i.draw),
          intents := without tag ++ [⟨tag, d, f.level, 0⟩] }) ∧
      (∀ i more, e.intents = i :: more → more.length = 3 → (∀ x ∈ e.intents, x.tag ≠ tag) →
        applied .applyIntent { ready with
          confirmed := min 65520 (ready.confirmed + i.draw),
          intents := more ++ [⟨tag, d, f.level, 0⟩] })) ∧
    (∀ tag d, f.body = .confirm tag d → applied .applyConfirm { ready with
      confirmed := min 65520 (ready.confirmed + d), intents := without tag }) ∧
    (∀ tag d, f.body = .withdraw tag d →
      applied .applyWithdraw { ready with intents := without tag }) ∧
    (∀ amount, f.body = .release amount →
      applied .applyRelease { ready with confirmed := ready.confirmed - amount }) ∧
    (∀ k, f.body = .status k → applied .applyStatus { ready with
      confirmed := k.total, intents := e.intents.filter (fun i => decide (i.tag ∈ k.tags)),
      runState := some k.runState, health := some k.health })

/-- The end of a window with no budget frame waiting is its judgement; with some waiting, the judgement
comes at the application of the last of them, against the peer view as it then stands (R55).  A confirm sum of at
most B and no mark confirm: the d joins the committed total, a CONFIRM is queued, and the cage goes from
ADMIT-WAIT to POWER-UP with its poll and ready timers, off the admission list (R57, R58, R5, R20).  Otherwise a
WITHDRAW is queued, and a listed cage gets a withdraw count one higher, at most 5, its aged level and its backoff
(R59, R47, R60), while to one that is not listed nothing further happens (R59).  The confirm sum is the own
committed total, the own PENDING entries senior to this one, every peer's share, Present, Aged or Unknown, with
the intents senior to it, and its own d (R56, R57). -/
def Obligations.WindowJudged : Prop :=
  (∀ (s : State) (i : Nat) (e : OwnIntent), s.claims.intents[i]? = some e →
    (s.claims.intents.map OwnIntent.tag).Nodup → s.confirmSum e = s.confirmTotal i e) ∧
  ∀ (tag : Tag) (e : OwnIntent) (s : State), s.startup.resetHeld = false →
    s.intentOf tag = some e → s.bus.txQueue.length < 8 →
    (∀ x ∈ s.claims.intents, x.cage = e.cage → x = e) →
    let judged := fun (d : OwnIntent) (u t : State) =>
      (u.confirmSum d ≤ u.conf.budget → d.withdrawAtEnd = false →
        (u.cage d.cage).state = .admitWait → Confirmed tag d u t) ∧
      (u.conf.budget < u.confirmSum d ∨ d.withdrawAtEnd = true → Withdrawn tag d u t)
    (e.deadline.isSome → s.bus.budgetQueue = [] →
      ∃ t, exec (.windowDeadline tag) s = .next t ∧ judged e s t) ∧
    (e.deadline.isSome → s.bus.budgetQueue ≠ [] →
      ∃ t, exec (.windowDeadline tag) s = .next t ∧
        EndsAs (s.updClaims (fun k => { k with intents := k.intents.map (fun x =>
          if x.tag = tag then { x with deadline := none, noted := some s.bus.budgetQueue.length }
          else x) })) t) ∧
    (∀ i f rest, s.bus.budgetQueue = f :: rest → appliesFrame i f.body → e.noted = some 1 →
      (∀ x ∈ s.claims.intents, x.noted ≠ none → x = e) →
      let d : OwnIntent := { e with noted := some 0 }
      ∃ t, exec i s = .next t ∧ judged d { s with
        peers := t.peers,
        bus := { s.bus with budgetQueue := rest },
        claims := { s.claims with
          intents := s.claims.intents.map (fun x => if x = e then d else x) } } t)

/-- The backoff timer's expiry stops it, and the Blind timer's ends Blind (R60, R63); either way the queue-time
test is run at the event (R52).  Its candidate is the first cage of the admission list whose claim is NONE, out
of backoff and at a level below the ceiling (R46, R49; entry times across a wrap are log entry 7).  Where the
part is RUNNING, not Blind, ACTIVE or CAUTIOUS, with fewer than two open tags, and the admission sum with the
candidate's d is at most B (R50, R51), the next tag is taken, an INTENT with the claim's d and level is queued
(R42, where the transmit queue has room), and the claim is QUEUED; otherwise no claim and no frame changes.  At
the end of the event no candidate passes. -/
def Obligations.BackoffAndBlindEnd : Prop :=
  ∀ (i : Instr) (c : Cage) (s : State), s.startup.resetHeld = false →
    let ended := (if i = .blindTimerExpiry
      then s.updClaims (fun k => { k with blind := false, blindTimer := none })
      else s.updClaim c (fun k => { k with backoff := none }))
    (i = .backoffExpiry c ∧ (s.claim c).backoff.isSome ∨
      i = .blindTimerExpiry ∧ s.claims.blindTimer.isSome) →
    ∃ t, exec i s = .next t ∧ EndsAs (dueTest ended) t ∧
      (i = .backoffExpiry c → (t.claim c).backoff = none) ∧
      (i = .blindTimerExpiry → t.claims.blind = false ∧ t.claims.blindTimer = none) ∧
      (∀ k : Cage, ended.mostUrgent k → ended.admits k →
        (t.claim k).state = .queued ∧ (t.claim k).draw = (s.claim k).draw ∧
        (⟨s.claims.lastTag + 1, k, (s.claim k).draw, (s.claim k).level, none, none, false⟩ :
          OwnIntent) ∈ t.claims.intents ∧
        (s.bus.txQueue.length < 8 → newFrame (s.claim k).level
          (.intent k (s.claims.lastTag + 1) (s.claim k).draw) ∈ t.bus.txQueue)) ∧
      ((∀ k : Cage, ended.mostUrgent k → ¬ ended.admits k) →
        t.claims = { ended.claims with testDue := false } ∧ t.bus = s.bus) ∧
      (∀ k : Cage, t.mostUrgent k → ¬ t.admits k)

/-- The rules by which the claim unit keeps its records, kept by every step: the own committed total is the sum
of d over the confirmed claims plus the release-pending amount (R43), and at most 65520, or the budget where
that is the greater (log entry 40), which is at most 65535 (R183); a claim is CONFIRMED exactly in POWER-UP and
LIGHT-SETTLE (R5, R19, R45); only cages in ADMIT-WAIT are listed (R46); an own intent's claim is QUEUED or
PENDING with the intent's d (R41, R53); in ADOPT and in LOADING no claim and no intent is held (R188, R12); and
the one RELEASE carries no more than the release-pending amount (R44, R85).  So the total keeps to its sum at a
confirmation, an adoption, a release, a withdrawal, and the good receipt of a RELEASE, each of which is also
said by itself (R44, R45, R58, R59).  -/
def Obligations.CommittedTotalKept : Prop :=
  (∀ s t : State, s.claimsSound → step s = .next t → t.claimsSound) ∧
  ∀ s : State, s.totalMatches →
    (∀ c, (s.claim c).state = .confirmed → (releaseClaim c s).totalMatches ∧
      (releaseClaim c s).claims.committed = s.claims.committed) ∧
    (∀ c d, (s.claim c).state ≠ .confirmed → (adoptClaim c d s).totalMatches) ∧
    (∀ amount, amount ≤ s.claims.releasePending → (releaseSent amount s).totalMatches) ∧
    (∀ e, (s.claim e.cage).state ≠ .confirmed → (s.claim e.cage).draw = e.draw →
      (confirmIntent e s).totalMatches) ∧
    (∀ e, (s.claim e.cage).state ≠ .confirmed → (withdrawIntent e s).totalMatches)

/-! ### The penalty unit (spec/04) -/

/-- A decay tick lowers every nonzero penalty by max(1, floor(penalty / 2^s)) and leaves a penalty of 0 as
it is, whatever the cage's state; below 2^s it takes off exactly 1.  It marks the last-module records that
have outlived the reseat memory time as stale, restarts the tick timer, and moves a cage in HOLD-DOWN whose
penalty is then below R to RELIGHT; every other cage keeps its state (R107, R108, R110, R106). -/
def Obligations.DecayTick : Prop :=
  ∀ s : State, s.startup.resetHeld = false → s.penalties.decay.isSome →
    ∃ t, exec .decayTick s = .next t ∧ t.penalties.decay = some s.conf.decayPeriod ∧
      ∀ c : Cage,
        let p := (s.penalty c).value
        let q := (t.penalty c).value
        (p = 0 → q = 0) ∧
        (p ≠ 0 → q = p - max 1 (p / 2 ^ s.conf.decayShift)) ∧
        (0 < p → p < 2 ^ s.conf.decayShift → q = p - 1) ∧
        (t.penalty c).lastModule = (s.penalty c).lastModule.map (fun m => { m with
          stale := m.stale ||
            decide (100 * s.conf.reseatSeconds < (s.startup.stationTime - m.removed).toNat) }) ∧
        ((s.cage c).state = .holdDown → q < s.conf.reuse →
          (t.cage c).state = .relight ∧ (t.cage c).wantedTx = some 0 ∧
          (t.cage c).trainRetries = 0 ∧ (t.cage c).laneStable = false ∧
          (t.cage c).timers = { noTimers with settle := some s.conf.settleTimeout } ∧
          (t.cageScan c).windows = Vector.replicate 8 []) ∧
        ((s.cage c).state ≠ .holdDown ∨ s.conf.reuse ≤ q →
          t.cage c = { s.cage c with requests := (t.cage c).requests } ∧
          t.cageScan c = s.cageScan c)

/-! ### Supervisory requests (spec/08) -/

/-- The reading requests are answered DONE with the values of Table 8-3 as they stand, and change nothing
but the service unit's phase; a READ-HEALTH of part 0 also sets the last bus error to NONE (R165, R167,
R73, R101).  A READ-EVENT of an index with no record is answered DONE with no data, and one of a record with the
sequence number and four bytes of its part (R166, R177, Table 9-5).  A snapshot is taken where the capture mask
has the record's kind and the cage has a sample record, and holds its values, with each power as its band and
the sample's age, at most 65535 (R175, R176, Table 9-4). -/
def Obligations.ReadsAnswered : Prop :=
  ∀ s : State, s.serves →
    (∀ c : Cage,
      let k := s.cage c
      let d := (match k.identity with | some id => id.draw | none => 0)
      let pm := (match k.identity with | some id => id.pm | none => 0)
      let serial := fun i => (match k.identity with | some id => byteAt id.serial i | none => 0)
      let code := byteOf (c.val * 16)
      ∀ part : Byte, part.toNat ≤ 3 →
        ∃ t, exec (.readCage c part) s = .next t ∧ EndsAs ((s.replying ⟨code, [part]⟩).updBus
          (fun b => { b with txQueue := b.txQueue ++ [newFrame 16 (.reply code 0
            (if part.toNat = 0 then
               [byteOf (k.state.code * 16 + k.cause.code),
                byteOf ((s.claim c).state.code * 32 + (s.claim c).level),
                byteOf ((s.penalty c).value / 256), byteOf (s.penalty c).value,
                byteOf (d / 256), byteOf d]
             else if part.toNat = 1 then
               [byteOf (pm / 256), byteOf pm, serial 0, serial 1, serial 2, serial 3]
             else if part.toNat = 2 then
               [serial 4, serial 5, serial 6, serial 7, serial 8, serial 9]
             else [serial 10, serial 11, serial 12, serial 13, serial 14, serial 15]))] })) t) ∧
    (∀ n : Station,
      let e := (if n = s.startup.station then unknownPeer else s.peer n)
      ∃ t, exec (.readPeer (byteOf n.val)) s = .next t ∧ EndsAs (
          (s.replying ⟨2, [byteOf n.val]⟩).updBus
        (fun b => { b with txQueue := b.txQueue ++ [newFrame 16 (.reply 2 0
          [byteOf e.status.code, byteOf (e.confirmed / 256), byteOf e.confirmed,
           byteOf e.intents.length, byteOf e.age,
           byteOf ((match e.runState with | some r => r.code | none => 15) * 16 +
             (match e.health with | some h => h.code | none => 15))])] })) t) ∧
    (∃ t, exec (.readHealth 0) s = .next t ∧ EndsAs ((s.replying ⟨3, [0]⟩).updBus
      (fun b => { b with
        lastError := .none,
        txQueue := b.txQueue ++ [newFrame 16 (.reply 3 0
          [byteOf b.txErrors, byteOf b.rxErrors, byteOf b.health.code, byteOf b.lastError.code,
           byteOf (b.budgetLoss / 256), byteOf b.budgetLoss])] })) t) ∧
    (∃ t, exec (.readHealth 1) s = .next t ∧ EndsAs ((s.replying ⟨3, [1]⟩).updBus
      (fun b => { b with
        txQueue := b.txQueue ++ [newFrame 16 (.reply 3 0
          [byteOf (b.denied / 256), byteOf b.denied, byteOf (b.serviceOverflow / 256),
           byteOf b.serviceOverflow, byteOf (b.reportDrop / 256), byteOf b.reportDrop])] })) t) ∧
    (∀ (c : Cage) (index part : Byte), index.toNat ≤ 3 → part.toNat ≤ 5 →
      let code := byteOf (c.val * 16 + 1)
      let answered := fun (data : List Byte) (t : State) => EndsAs (
          (s.replying ⟨code, [index, part]⟩).updBus
        (fun b => { b with txQueue := b.txQueue ++ [newFrame 16 (.reply code 0 data)] })) t
      ∃ t, exec (.readEvent c index part) s = .next t ∧
        (s.events.histories[c][index.toNat]? = none → answered [] t) ∧
        (∀ r, s.events.histories[c][index.toNat]? = some r →
          (part.toNat = 0 → answered [byteOf (r.sequence / 256), byteOf r.sequence,
            byteOf (r.time.toNat / 16777216), byteOf (r.time.toNat / 65536),
            byteOf (r.time.toNat / 256), byteOf r.time.toNat] t) ∧
          (part.toNat = 1 → answered [byteOf (r.sequence / 256), byteOf r.sequence,
            byteOf (r.kind.code * 16 + r.before.code),
            byteOf ((match r.cause with | some q => q.code | none => 0) * 16 +
              (match r.snapshot with | some p => p.lanes | none => 0)),
            byteOf (r.penalty / 256), byteOf r.penalty] t) ∧
          (2 ≤ part.toNat → r.snapshot = none →
            answered [byteOf (r.sequence / 256), byteOf r.sequence, 0, 0, 0, 0] t) ∧
          (∀ p, r.snapshot = some p →
            let temperature := (p.temperature % 65536).toNat
            let draw := (match p.draw with
              | some d => 64 + (if d.saturated then 32 else 0) + d.value / 256
              | none => 0)
            let low := (match p.draw with | some d => d.value | none => 0)
            let lane := fun (i : Nat) => (match p.bands[i]? with
              | some b => byteOf (b.1 * 16 + b.2)
              | none => 0)
            (part.toNat = 2 → answered [byteOf (r.sequence / 256), byteOf r.sequence,
              byteOf (temperature / 256), byteOf temperature, byteOf (p.supply / 256),
              byteOf p.supply] t) ∧
            (part.toNat = 3 → answered [byteOf (r.sequence / 256), byteOf r.sequence,
              byteOf (128 + draw), byteOf low, byteOf (p.age / 256), byteOf p.age] t) ∧
            (part.toNat = 4 → answered [byteOf (r.sequence / 256), byteOf r.sequence,
              lane 0, lane 1, lane 2, lane 3] t) ∧
            (part.toNat = 5 → answered [byteOf (r.sequence / 256), byteOf r.sequence,
              lane 4, lane 5, lane 6, lane 7] t)))) ∧
    (∀ (c : Cage) (kind : EventKind) (number penalty : Nat) (before : CageState)
        (cause : Option FaultCause),
      let r := madeRecord s c number kind before cause penalty
      (s.conf.captureMask.getLsbD kind.code = false ∨ (s.cageScan c).sample = none →
        r.snapshot = none) ∧
      (∀ x, s.conf.captureMask.getLsbD kind.code = true → (s.cageScan c).sample = some x →
        ∃ p, r.snapshot = some p ∧ p.temperature = x.temperature ∧ p.supply = x.supply ∧
          p.lanes = x.lanes ∧ p.draw = x.draw ∧
          p.age = min 65535 (s.startup.stationTime - x.time).toNat ∧
          p.bands.length = x.entries.length ∧
          ∀ (i : Nat) (e : LaneEntry) (tx rx : Nat), x.entries[i]? = some e →
            p.bands[i]? = some (tx, rx) →
            (tx = 0 ↔ e.txPower < 8) ∧ (rx = 0 ↔ e.rxPower < 8) ∧
            (8 ≤ e.txPower → 2 ^ (tx + 2) ≤ e.txPower ∧ e.txPower < 2 ^ (tx + 3)) ∧
            (8 ≤ e.rxPower → 2 ^ (rx + 2) ≤ e.rxPower ∧ e.rxPower < 2 ^ (rx + 3))))

/-- A request with an unknown code, a wrong number of argument bytes or an argument out of its range is
answered BAD-ARG, and one that changes state in LISTENING NOT-READY, each with no data and no effect but the
REPLY (R163, R164); so it is for a request in a row of its own and for one in a REQUEST frame that the part
receives, whatever its code and length (R88, R162).  A request row that finds four others waiting is dropped and counted:
that a row is a REQUEST which has passed the acceptance check and reaches the service receive queue, whose full
queue R88 speaks of, is the model's choice (log entry 16). -/
def Obligations.RequestsTurnedAway : Prop :=
  ∀ (s : State),
    let turned := fun (q : Request) (result : Result) (u t : State) =>
      t.replyWaits q.code result [] ∧ EndsAs ((u.replying q).updBus (fun b => { b with
        txQueue := b.txQueue ++ [newFrame 16 (.reply q.code (byteOf result.code) [])] })) t
    (∀ i q, s.serves → rowRequest i = some q →
      (q.illFormed → ∃ t, exec i s = .next t ∧ turned q .badArg s t) ∧
      (¬ q.illFormed → q.alters → s.startup.runState = .listening →
        ∃ t, exec i s = .next t ∧ turned q .notReady s t)) ∧
    (∀ (raw : RawFrame) (f : Frame) (q : Request), s.serves →
      (∀ b, decodeFrame b raw = .ok f) → f.source ≠ s.startup.station →
      f.body = .request s.startup.station q.code q.args → sourceMatches s.conf f.source = true →
      s.bus.health = .active → s.bus.txErrors < 64 → s.bus.rxErrors < 64 →
      let heard := s.updBus (fun b => { b with rxErrors := b.rxErrors - 1 })
      (q.illFormed → ∃ t, exec (.goodReception raw) s = .next t ∧ turned q .badArg heard t) ∧
      (¬ q.illFormed → q.alters → s.startup.runState = .listening →
        ∃ t, exec (.goodReception raw) s = .next t ∧ turned q .notReady heard t)) ∧
    (s.startup.resetHeld = false → s.startup.runState ≠ .loading →
      s.bus.serviceQueue.length = 4 → ∀ i q, rowRequest i = some q →
      ∃ t, exec i s = .next t ∧
        EndsAs (s.updBus (fun b => { b with
          serviceOverflow := min 65535 (b.serviceOverflow + 1) })) t)

/-- HOLD takes a cage to MANUAL-HOLD with its lines FORCED, is DONE with no change in MANUAL-HOLD, and is
WRONG-STATE in DISABLED and ADOPT (R33).  UNHOLD takes a cage from MANUAL-HOLD to IDENTIFY where its module
is present and to VACANT where not (R34), and RETRY takes one from FAULTED to IDENTIFY (R35); in every
other state each is WRONG-STATE and changes nothing but the service unit and the transmit queue, which gets
its REPLY.  The REPLY carries the state code after it (R168).  Visit numbers: log entry 25.  The number of an init wait:
log entry 38. -/
def Obligations.HoldUnholdRetry : Prop :=
  ∀ (c : Cage) (s : State), s.serves → s.startup.runState ≠ .listening →
    s.bus.txQueue.length < 7 →
    let n := (s.cage c).state
    let hold : Request := ⟨byteOf (c.val * 16 + 4), []⟩
    let unhold : Request := ⟨byteOf (c.val * 16 + 5), []⟩
    let retry : Request := ⟨byteOf (c.val * 16 + 6), []⟩
    let only := fun (q : Request) (result : Result) (state : Nat) (t : State) =>
      t.replyWaits q.code result [byteOf state] ∧
      EndsAs ((s.replying q).updBus (fun b => { b with
        txQueue := b.txQueue ++ [newFrame 16 (.reply q.code (byteOf result.code) [byteOf state])] })) t
    (∃ t, exec (.hold c) s = .next t ∧
      (n ≠ .disabled → n ≠ .adopt → n ≠ .manualHold →
        OnlyCage c (s.replying hold) t ∧ t.replyWaits hold.code .done [byteOf 14] ∧
        t.cage c = { s.cage c with
          state := .manualHold, timers := noTimers, cause := .none, linkFails := 0,
          wantedTx := none, requests := [], visit := (s.cage c).visit + 1 } ∧
        tookSource .forced (s.line c) (t.line c) ∧ t.outputs c = ⟨true, true, false⟩ ∧
        t.penalty c = s.penalty c ∧ recorded s t c .manual n none (s.penalty c).value) ∧
      (n = .manualHold → only hold .done 14 t) ∧
      (n = .disabled ∨ n = .adopt → only hold .wrongState n.code t)) ∧
    (∃ t, exec (.unhold c) s = .next t ∧
      (n = .manualHold →
        OnlyCage c (s.replying unhold) t ∧ t.penalty c = s.penalty c ∧
        (t.cage c).trainRetries = 0 ∧ (t.cage c).linkFails = 0 ∧ (t.cage c).identity = none ∧
        (t.line c).named = some .sequencer ∧
        recorded s t c .manual .manualHold none (s.penalty c).value ∧
        ((s.line c).present = true → (t.cage c).state = .identify ∧
          (t.cage c).identReads = 0 ∧ t.replyWaits unhold.code .done [byteOf 3] ∧
          ((s.line c).source ≠ .held →
            (t.cage c).timers = { noTimers with initWait := some 2000, initStart := s.openChoices })) ∧
        ((s.line c).present = false → (t.cage c).state = .vacant ∧
          (t.cage c).timers = noTimers ∧ t.replyWaits unhold.code .done [byteOf 1])) ∧
      (n ≠ .manualHold → only unhold .wrongState n.code t)) ∧
    (∃ t, exec (.retry c) s = .next t ∧
      (n = .faulted →
        OnlyCage c (s.replying retry) t ∧ t.replyWaits retry.code .done [byteOf 3] ∧
        (t.cage c).state = .identify ∧ (t.cage c).cause = .none ∧ (t.cage c).identReads = 0 ∧
        (t.cage c).trainRetries = 0 ∧ (t.cage c).linkFails = 0 ∧ (t.cage c).identity = none ∧
        t.penalty c = s.penalty c ∧
        recorded s t c .manual .faulted none (s.penalty c).value) ∧
      (n ≠ .faulted → only retry .wrongState n.code t))

/-- CLEAR-PENALTY sets the penalty and the stored penalty to 0 in every state, keeps the rest of the
last-module record, and takes a cage in HOLD-DOWN to RELIGHT with a tx-disable write of 0 asked for (R113,
R36, R169, R8); in every other state the penalty and the REPLY are all that change.  SET-CEILING sets the
admission ceiling to the value clamped to 32 and answers with it, and the queue-time test is run for the
candidate that the new ceiling leaves: at the end of the event no candidate passes (R169, R48, R52). -/
def Obligations.PenaltyAndCeilingRequests : Prop :=
  (∀ (c : Cage) (s : State), s.serves → s.startup.runState ≠ .listening →
      s.bus.txQueue.length < 7 →
      let q : Request := ⟨byteOf (c.val * 16 + 7), []⟩
      ∃ t, exec (.clearPenalty c) s = .next t ∧ OnlyCage c (s.replying q) t ∧
        t.penalty c = ⟨0, (s.penalty c).lastModule.map (fun m => { m with stored := 0 })⟩ ∧
        t.events = s.events ∧
        ((s.cage c).state = .holdDown → (t.cage c).state = .relight ∧
          (t.cage c).wantedTx = some 0 ∧ (t.cage c).trainRetries = 0 ∧
          (t.cage c).timers = { noTimers with settle := some s.conf.settleTimeout } ∧
          ((s.line c).present = true → t.asksTx c 0) ∧
          t.replyWaits q.code .done [byteOf 11]) ∧
        ((s.cage c).state ≠ .holdDown →
          t.cage c = { s.cage c with requests := (t.cage c).requests } ∧
          t.replyWaits q.code .done [byteOf (s.cage c).state.code] ∧
          EndsAs { (s.replying q).updBus (fun b => { b with txQueue := b.txQueue ++
            [newFrame 16 (.reply q.code 0 [byteOf (s.cage c).state.code])] }) with
            penalties := t.penalties } t)) ∧
  (∀ (v : Byte) (s : State), s.serves → s.startup.runState ≠ .listening →
      ∃ t, exec (.setCeiling v) s = .next t ∧ t.claims.ceiling = min 32 v.toNat ∧
        t.replyWaits 8 .done [byteOf (min 32 v.toNat)] ∧
        EndsAs (dueTest (((s.replying ⟨8, [v]⟩).updClaims
          (fun k => { k with ceiling := min 32 v.toNat })).updBus (fun b => { b with
          txQueue := b.txQueue ++ [newFrame 16 (.reply 8 0 [byteOf (min 32 v.toNat)])] }))) t ∧
        ∀ k : Cage, t.mostUrgent k → ¬ t.admits k)

/-- A pass-through read or write in range is carried by the arbiter where the module is present, its slot
empty before, and answered ABSENT where it is not; a write that covers address 120 or 121 is answered
WRONG-STATE, where the module is present, in any state but FAULTED and MANUAL-HOLD (R170, R119, R130). -/
def Obligations.PassThroughPresented : Prop :=
  ∀ (c : Cage) (address : Byte) (s : State), s.serves → s.startup.runState ≠ .listening →
    (s.link (segOf c)).passThrough = none →
    (∀ count : Byte, 1 ≤ count.toNat → count.toNat ≤ 6 →
      address.toNat + count.toNat ≤ 256 →
      ∃ t, exec (.moduleRead c address count) s = .next t ∧
        ((s.line c).present = true →
          t.service = { s.service with
            phase := .carrying,
            request := some ⟨byteOf (c.val * 16 + 9), [address, count]⟩ } ∧
          ∃ r, (t.link (segOf c)).passThrough = some r ∧ r.cage = c ∧
            r.address = address.toNat ∧ r.length = count.toNat ∧ r.writeData = none) ∧
        ((s.line c).present = false →
          t.replyWaits (byteOf (c.val * 16 + 9)) .absent [] ∧
          SameOutsideWork (s.replying ⟨byteOf (c.val * 16 + 9), [address, count]⟩) t)) ∧
    (∀ data : List Byte, 1 ≤ data.length → data.length ≤ 4 →
      address.toNat + data.length ≤ 256 →
      let covers := address.toNat ≤ 121 ∧ 120 < address.toNat + data.length
      let free := (s.cage c).state = .faulted ∨ (s.cage c).state = .manualHold
      ∃ t, exec (.moduleWrite c address data) s = .next t ∧
        ((s.line c).present = true → (¬ covers ∨ free) →
          t.service = { s.service with
            phase := .carrying,
            request := some ⟨byteOf (c.val * 16 + 10), address :: data⟩ } ∧
          ∃ r, (t.link (segOf c)).passThrough = some r ∧ r.cage = c ∧
            r.address = address.toNat ∧ r.length = data.length ∧ r.writeData = some data) ∧
        ((s.line c).present = true → covers → ¬ free →
          t.replyWaits (byteOf (c.val * 16 + 10)) .wrongState [] ∧
          SameOutsideWork (s.replying ⟨byteOf (c.val * 16 + 10), address :: data⟩) t) ∧
        ((s.line c).present = false → ¬ covers ∨ free →
          t.replyWaits (byteOf (c.val * 16 + 10)) .absent [] ∧
          SameOutsideWork (s.replying ⟨byteOf (c.val * 16 + 10), address :: data⟩) t))

/-- A RESTART is answered DONE, with the restart timer running for 100 ms and the service unit in
RESTART-PENDING (R171).  The Restart comes at that timer's expiry or at the good receipt of its REPLY.  Every
enabled cage whose module is present and powered is in ADOPT with its lines held at the levels they carried and
one identity read counted; one whose module was in low power is in IDENTIFY and one with no module in VACANT,
each with an ADOPTED record; one that is not enabled is in DISABLED (R38, R157, R2).  Penalties, last-module
records, configuration, station time and straps stay (R188, R102); claims, peer view, samples, scanners, service
unit, last bus error and counts are cleared, and the transmit queue but for a frame under attempt, detached, and
the reports of cages that leave ADOPT, of which those without room are dropped and counted (R74, R140, R92); that
such a report takes a place of its own beside a detached one of its cage is the model's choice (log entry 35).
A segment with a chunk in progress ends it at the byte boundary, or is in RECOVERY where the clock is held or
recovery is under way; every slot is empty but for the new identity reads (R128).  The station is ADOPTING
while a cage is in ADOPT, and LISTENING else (R189).  The
number under which an init wait starts is the model's own (log entry 38), and so is the mark that no STATUS has been
sent since (log entry 39). -/
def Obligations.RestartServedAndTaken : Prop :=
  (∀ s : State, s.serves → s.startup.runState ≠ .listening →
      ∃ t, exec .restart s = .next t ∧ EndsAs { s with
        service := { phase := .restartPending, request := some ⟨11, []⟩, restartTimer := some 100 },
        bus := { s.bus with txQueue := s.bus.txQueue ++ [newFrame 16 (.reply 11 0 [])] } } t) ∧
  (∀ (i : Instr) (clocks : ClockHold) (s : State), s.startup.resetHeld = false →
      s.startup.runState ≠ .loading → s.service.phase = .restartPending →
      (i = .restartTimerExpiry clocks ∧ s.service.restartTimer.isSome ∨
        i = .goodReceipt clocks ∧ ∃ n f code result data, s.underAttempt = some (n, f) ∧
          f.mark = .attempting ∧ f.body = .reply code result data) →
      let leaves := fun (c : Cage) => (s.cageConf c).enabled = true ∧
        ((s.line c).present = false ∨ (s.outputs c).lowPower = true)
      ∃ t, exec i s = .next t ∧ t.penalties = s.penalties ∧
        t.startup.settings = s.startup.settings ∧
        t.startup.stationTime = s.startup.stationTime ∧
        t.startup.station = s.startup.station ∧ t.startup.profile = s.startup.profile ∧
        t.startup.listenTicks = 0 ∧
        t.claims.committed = 0 ∧ t.claims.releasePending = 0 ∧ t.claims.ceiling = 32 ∧
        t.claims.intents = [] ∧ t.claims.blind = false ∧ t.service = resetService ∧
        t.bus.budgetQueue = [] ∧ t.bus.serviceQueue = [] ∧ t.bus.health = .active ∧
        t.bus.txErrors = 0 ∧ t.bus.rxErrors = 0 ∧ t.bus.announce = some s.conf.announce ∧
        t.bus.lastError = .none ∧ t.bus.budgetLoss = 0 ∧ t.bus.denied = 0 ∧
        t.bus.serviceOverflow = 0 ∧ t.bus.statusRenew = false ∧ t.bus.gapCount = 0 ∧
        t.bus.afterRestart = true ∧
        (∀ f ∈ t.bus.txQueue, f.mark = .detached ∨
          (f.mark = .waiting ∧ ∃ r, f.body = .cageReport r ∧ leaves r.cage)) ∧
        (i = .restartTimerExpiry clocks → ∀ f ∈ s.bus.txQueue, f.mark ≠ .waiting →
          { f with mark := .detached, followOn := none } ∈ t.bus.txQueue) ∧
        t.bus.reportDrop + (t.bus.txQueue.filter (fun f => decide (f.mark = .waiting))).length =
          (allCages.filter (fun c => (s.cageConf c).enabled &&
            (!(s.line c).present || (s.outputs c).lowPower))).length ∧
        (∀ n : Station, t.peer n = unknownPeer) ∧
        (∀ g : Seg, t.scanner g = resetScanner ∧ (t.link g).passThrough = none ∧
          (t.link g).scanner = none ∧
          ((s.link g).state = .recovery → (t.link g).state = .recovery) ∧
          ((s.link g).state = .chunk → clockHeldOn clocks g = true →
            (t.link g).state = .recovery ∧ (t.link g).chunk = none) ∧
          ((s.link g).state = .chunk → clockHeldOn clocks g = false →
            (t.link g).state = .chunk ∧ (t.link g).stretch = none ∧
            (t.link g).chunk = (s.link g).chunk.map (fun k => { k with ending := .restart })) ∧
          ((s.link g).state = .idle ∨ (s.link g).state = .retryWait →
            (t.link g).state = .idle ∧ (t.link g).selected = none ∧ (t.link g).chunk = none ∨
            ∃ c, segOf c = g ∧ (t.cage c).state = .adopt ∧ (t.link g).selected = some c)) ∧
        (∀ c : Cage,
          (t.claim c).state = .none ∧ (t.cageScan c).sample = none ∧
          (t.cageScan c).history = [] ∧
          (∀ r, t.crsSlot c = some r → (t.cage c).state = .adopt ∧ r.address = 0 ∧
            r.length = 32) ∧
          ((s.cageConf c).enabled = false → (t.cage c).state = .disabled ∧
            t.events.histories[c] = s.events.histories[c]) ∧
          ((s.cageConf c).enabled = true → (s.line c).present = false →
            (t.cage c).state = .vacant ∧ (t.line c).source = .sequencer) ∧
          ((s.cageConf c).enabled = true → (s.line c).present = true →
            (s.outputs c).lowPower = true → (t.cage c).state = .identify ∧
            (t.cage c).timers = { noTimers with initWait := some 2000, initStart := s.openChoices } ∧
            (t.line c).source = .sequencer) ∧
          (leaves c → ∃ n, t.events.histories[c] =
            (({ sequence := n, time := s.startup.stationTime, kind := .adopted, before := .adopt,
                cause := none, penalty := (s.penalty c).value, snapshot := none } : EventRecord) ::
              s.events.histories[c]).take 4) ∧
          ((s.cageConf c).enabled = true → (s.line c).present = true →
            (s.outputs c).lowPower = false → (t.cage c).state = .adopt ∧
            (t.cage c).identReads = 1 ∧ (t.line c).source = .latched ∧ t.asksIdentity c ∧
            t.outputs c = s.outputs c ∧ t.events.histories[c] = s.events.histories[c])) ∧
        ((∃ c : Cage, (t.cage c).state = .adopt) → t.startup.runState = .adopting) ∧
        ((∀ c : Cage, (t.cage c).state ≠ .adopt) → t.startup.runState = .listening))

/-! ### Frames (spec/03) -/

/-- A receiver makes of a frame as its transmitter sends it the frame that was sent, for every kind and
every field in its range, and finds no error in it (R76, R80, Tables 3-2 and 3-3). -/
def Obligations.FrameRoundTrip : Prop :=
  ∀ (f : Frame) (b : Bool), f.sound → decodeFrame b (encodeFrame f) = .ok f

/-- The bits of a span come back from its stuffed form, which holds no seven equal bits in a row (R75). -/
def Obligations.StuffingRoundTrip : Prop :=
  ∀ bits : List Bool, unstuff (stuff bits) = some bits ∧
    ∀ (i : Nat) (v : Bool), ¬ (∀ j, j < 7 → (stuff bits)[i + j]? = some v)

/-! ### Invariants -/

/-- After every step nothing that an event ends with is left to do: no request waits behind an empty slot,
no scanner slot, grant or queue-time test is due, and ADOPTING goes on only with a cage in ADOPT (R7, R121,
R136, R51, R189). -/
def Obligations.StepKeepsSettled : Prop :=
  ∀ s t : State, s.settled = true → step s = .next t → t.settled = true

/-- Every step keeps the counts, totals and queues in the ranges the spec's tables give them (R41, R66,
R96, R102, R134, R145, R172, R174; Tables 2-3, 3-1 and 4-1). -/
def Obligations.StepKeepsRanges : Prop :=
  ∀ s t : State, s.inRange → step s = .next t → t.inRange

/-- Every step keeps each cage's record to its rules (a fault cause in FAULTED alone and always there, a
cage timer only in its states, the three counts in range, at most one waiting request of a kind) and each
filter's hold timer running exactly while its raw level is away from the taken one (R7, R9, R11, R15, R24,
R152, R153, Table 1-3). -/
def Obligations.StepKeepsCagesSound : Prop :=
  ∀ s t : State, s.cagesSound → step s = .next t → t.cagesSound

/-- Every step keeps each cage's drive state to its rules (R1, R12, R156 to R158). -/
def Obligations.StepKeepsDriven : Prop :=
  ∀ s t : State, s.drivenSound → step s = .next t → t.drivenSound

/-- Where the drive states keep to their rules, a cage's PORT_ADMIT is asserted only in IN-SERVICE, or in
ADOPT under LATCHED, and so it stays at every command (R160). -/
def Obligations.PortAdmitSafe : Prop :=
  ∀ s : State, s.drivenSound → s.admitsSafely ∧
    (∀ i t, exec i s = .next t → t.admitsSafely)

/-- The reset state keeps to all of these rules. -/
def Obligations.ResetKeepsRules : Prop :=
  State.reset.settled = true ∧ State.reset.inRange ∧ State.reset.cagesSound ∧
  State.reset.drivenSound ∧ State.reset.totalMatches ∧ State.reset.claimsSound
end

