-- ==== Sys2Proof/Laws/State.lean ====
section
/-! SUPPORT. One lemma per field per update of the state, and reading a record after it has been
changed. -/

namespace Sys2Proof.Machine

/-! ### Vectors -/

@[simp] theorem modifyAt_same {α : Type} {n : Nat} (v : Vector α n) (i : Fin n) (f : α → α) :
    (modifyAt v i f)[i] = f v[i] := by
  simp [modifyAt]

theorem modifyAt_other {α : Type} {n : Nat} (v : Vector α n) (i j : Fin n) (f : α → α)
    (h : j ≠ i) : (modifyAt v i f)[j] = v[j] := by
  simp only [modifyAt, Fin.getElem_fin]
  exact Vector.getElem_set_ne _ _ (fun e => h (Fin.ext e.symm))

/-! ### updCage -/

@[simp] theorem updCage_pending (s : State) (c : Cage) (f : CageRecord → CageRecord) :
    (s.updCage c f).pending = s.pending := rfl

@[simp] theorem updCage_startup (s : State) (c : Cage) (f : CageRecord → CageRecord) :
    (s.updCage c f).startup = s.startup := rfl

@[simp] theorem updCage_lines (s : State) (c : Cage) (f : CageRecord → CageRecord) :
    (s.updCage c f).lines = s.lines := rfl

@[simp] theorem updCage_cages (s : State) (c : Cage) (f : CageRecord → CageRecord) :
    (s.updCage c f).cages = modifyAt s.cages c f := rfl

@[simp] theorem updCage_claims (s : State) (c : Cage) (f : CageRecord → CageRecord) :
    (s.updCage c f).claims = s.claims := rfl

@[simp] theorem updCage_peers (s : State) (c : Cage) (f : CageRecord → CageRecord) :
    (s.updCage c f).peers = s.peers := rfl

@[simp] theorem updCage_bus (s : State) (c : Cage) (f : CageRecord → CageRecord) :
    (s.updCage c f).bus = s.bus := rfl

@[simp] theorem updCage_penalties (s : State) (c : Cage) (f : CageRecord → CageRecord) :
    (s.updCage c f).penalties = s.penalties := rfl

@[simp] theorem updCage_links (s : State) (c : Cage) (f : CageRecord → CageRecord) :
    (s.updCage c f).links = s.links := rfl

@[simp] theorem updCage_scan (s : State) (c : Cage) (f : CageRecord → CageRecord) :
    (s.updCage c f).scan = s.scan := rfl

@[simp] theorem updCage_service (s : State) (c : Cage) (f : CageRecord → CageRecord) :
    (s.updCage c f).service = s.service := rfl

@[simp] theorem updCage_events (s : State) (c : Cage) (f : CageRecord → CageRecord) :
    (s.updCage c f).events = s.events := rfl

@[simp] theorem updCage_openChoices (s : State) (c : Cage) (f : CageRecord → CageRecord) :
    (s.updCage c f).openChoices = s.openChoices := rfl

/-! ### updLines -/

@[simp] theorem updLines_pending (s : State) (c : Cage) (f : CageLines → CageLines) :
    (s.updLines c f).pending = s.pending := rfl

@[simp] theorem updLines_startup (s : State) (c : Cage) (f : CageLines → CageLines) :
    (s.updLines c f).startup = s.startup := rfl

@[simp] theorem updLines_lines (s : State) (c : Cage) (f : CageLines → CageLines) :
    (s.updLines c f).lines = modifyAt s.lines c f := rfl

@[simp] theorem updLines_cages (s : State) (c : Cage) (f : CageLines → CageLines) :
    (s.updLines c f).cages = s.cages := rfl

@[simp] theorem updLines_claims (s : State) (c : Cage) (f : CageLines → CageLines) :
    (s.updLines c f).claims = s.claims := rfl

@[simp] theorem updLines_peers (s : State) (c : Cage) (f : CageLines → CageLines) :
    (s.updLines c f).peers = s.peers := rfl

@[simp] theorem updLines_bus (s : State) (c : Cage) (f : CageLines → CageLines) :
    (s.updLines c f).bus = s.bus := rfl

@[simp] theorem updLines_penalties (s : State) (c : Cage) (f : CageLines → CageLines) :
    (s.updLines c f).penalties = s.penalties := rfl

@[simp] theorem updLines_links (s : State) (c : Cage) (f : CageLines → CageLines) :
    (s.updLines c f).links = s.links := rfl

@[simp] theorem updLines_scan (s : State) (c : Cage) (f : CageLines → CageLines) :
    (s.updLines c f).scan = s.scan := rfl

@[simp] theorem updLines_service (s : State) (c : Cage) (f : CageLines → CageLines) :
    (s.updLines c f).service = s.service := rfl

@[simp] theorem updLines_events (s : State) (c : Cage) (f : CageLines → CageLines) :
    (s.updLines c f).events = s.events := rfl

@[simp] theorem updLines_openChoices (s : State) (c : Cage) (f : CageLines → CageLines) :
    (s.updLines c f).openChoices = s.openChoices := rfl

/-! ### updClaim -/

@[simp] theorem updClaim_pending (s : State) (c : Cage) (f : Claim → Claim) :
    (s.updClaim c f).pending = s.pending := rfl

@[simp] theorem updClaim_startup (s : State) (c : Cage) (f : Claim → Claim) :
    (s.updClaim c f).startup = s.startup := rfl

@[simp] theorem updClaim_lines (s : State) (c : Cage) (f : Claim → Claim) :
    (s.updClaim c f).lines = s.lines := rfl

@[simp] theorem updClaim_cages (s : State) (c : Cage) (f : Claim → Claim) :
    (s.updClaim c f).cages = s.cages := rfl

@[simp] theorem updClaim_claims (s : State) (c : Cage) (f : Claim → Claim) :
    (s.updClaim c f).claims = { s.claims with claims := modifyAt s.claims.claims c f } := rfl

@[simp] theorem updClaim_peers (s : State) (c : Cage) (f : Claim → Claim) :
    (s.updClaim c f).peers = s.peers := rfl

@[simp] theorem updClaim_bus (s : State) (c : Cage) (f : Claim → Claim) :
    (s.updClaim c f).bus = s.bus := rfl

@[simp] theorem updClaim_penalties (s : State) (c : Cage) (f : Claim → Claim) :
    (s.updClaim c f).penalties = s.penalties := rfl

@[simp] theorem updClaim_links (s : State) (c : Cage) (f : Claim → Claim) :
    (s.updClaim c f).links = s.links := rfl

@[simp] theorem updClaim_scan (s : State) (c : Cage) (f : Claim → Claim) :
    (s.updClaim c f).scan = s.scan := rfl

@[simp] theorem updClaim_service (s : State) (c : Cage) (f : Claim → Claim) :
    (s.updClaim c f).service = s.service := rfl

@[simp] theorem updClaim_events (s : State) (c : Cage) (f : Claim → Claim) :
    (s.updClaim c f).events = s.events := rfl

@[simp] theorem updClaim_openChoices (s : State) (c : Cage) (f : Claim → Claim) :
    (s.updClaim c f).openChoices = s.openChoices := rfl

/-! ### updPenalty -/

@[simp] theorem updPenalty_pending (s : State) (c : Cage) (f : CagePenalty → CagePenalty) :
    (s.updPenalty c f).pending = s.pending := rfl

@[simp] theorem updPenalty_startup (s : State) (c : Cage) (f : CagePenalty → CagePenalty) :
    (s.updPenalty c f).startup = s.startup := rfl

@[simp] theorem updPenalty_lines (s : State) (c : Cage) (f : CagePenalty → CagePenalty) :
    (s.updPenalty c f).lines = s.lines := rfl

@[simp] theorem updPenalty_cages (s : State) (c : Cage) (f : CagePenalty → CagePenalty) :
    (s.updPenalty c f).cages = s.cages := rfl

@[simp] theorem updPenalty_claims (s : State) (c : Cage) (f : CagePenalty → CagePenalty) :
    (s.updPenalty c f).claims = s.claims := rfl

@[simp] theorem updPenalty_peers (s : State) (c : Cage) (f : CagePenalty → CagePenalty) :
    (s.updPenalty c f).peers = s.peers := rfl

@[simp] theorem updPenalty_bus (s : State) (c : Cage) (f : CagePenalty → CagePenalty) :
    (s.updPenalty c f).bus = s.bus := rfl

@[simp] theorem updPenalty_penalties (s : State) (c : Cage) (f : CagePenalty → CagePenalty) :
    (s.updPenalty c f).penalties = { s.penalties with cages := modifyAt s.penalties.cages c f } := rfl

@[simp] theorem updPenalty_links (s : State) (c : Cage) (f : CagePenalty → CagePenalty) :
    (s.updPenalty c f).links = s.links := rfl

@[simp] theorem updPenalty_scan (s : State) (c : Cage) (f : CagePenalty → CagePenalty) :
    (s.updPenalty c f).scan = s.scan := rfl

@[simp] theorem updPenalty_service (s : State) (c : Cage) (f : CagePenalty → CagePenalty) :
    (s.updPenalty c f).service = s.service := rfl

@[simp] theorem updPenalty_events (s : State) (c : Cage) (f : CagePenalty → CagePenalty) :
    (s.updPenalty c f).events = s.events := rfl

@[simp] theorem updPenalty_openChoices (s : State) (c : Cage) (f : CagePenalty → CagePenalty) :
    (s.updPenalty c f).openChoices = s.openChoices := rfl

/-! ### updScan -/

@[simp] theorem updScan_pending (s : State) (c : Cage) (f : CageScan → CageScan) :
    (s.updScan c f).pending = s.pending := rfl

@[simp] theorem updScan_startup (s : State) (c : Cage) (f : CageScan → CageScan) :
    (s.updScan c f).startup = s.startup := rfl

@[simp] theorem updScan_lines (s : State) (c : Cage) (f : CageScan → CageScan) :
    (s.updScan c f).lines = s.lines := rfl

@[simp] theorem updScan_cages (s : State) (c : Cage) (f : CageScan → CageScan) :
    (s.updScan c f).cages = s.cages := rfl

@[simp] theorem updScan_claims (s : State) (c : Cage) (f : CageScan → CageScan) :
    (s.updScan c f).claims = s.claims := rfl

@[simp] theorem updScan_peers (s : State) (c : Cage) (f : CageScan → CageScan) :
    (s.updScan c f).peers = s.peers := rfl

@[simp] theorem updScan_bus (s : State) (c : Cage) (f : CageScan → CageScan) :
    (s.updScan c f).bus = s.bus := rfl

@[simp] theorem updScan_penalties (s : State) (c : Cage) (f : CageScan → CageScan) :
    (s.updScan c f).penalties = s.penalties := rfl

@[simp] theorem updScan_links (s : State) (c : Cage) (f : CageScan → CageScan) :
    (s.updScan c f).links = s.links := rfl

@[simp] theorem updScan_scan (s : State) (c : Cage) (f : CageScan → CageScan) :
    (s.updScan c f).scan = { s.scan with cages := modifyAt s.scan.cages c f } := rfl

@[simp] theorem updScan_service (s : State) (c : Cage) (f : CageScan → CageScan) :
    (s.updScan c f).service = s.service := rfl

@[simp] theorem updScan_events (s : State) (c : Cage) (f : CageScan → CageScan) :
    (s.updScan c f).events = s.events := rfl

@[simp] theorem updScan_openChoices (s : State) (c : Cage) (f : CageScan → CageScan) :
    (s.updScan c f).openChoices = s.openChoices := rfl

/-! ### updScanner -/

@[simp] theorem updScanner_pending (s : State) (g : Seg) (f : Scanner → Scanner) :
    (s.updScanner g f).pending = s.pending := rfl

@[simp] theorem updScanner_startup (s : State) (g : Seg) (f : Scanner → Scanner) :
    (s.updScanner g f).startup = s.startup := rfl

@[simp] theorem updScanner_lines (s : State) (g : Seg) (f : Scanner → Scanner) :
    (s.updScanner g f).lines = s.lines := rfl

@[simp] theorem updScanner_cages (s : State) (g : Seg) (f : Scanner → Scanner) :
    (s.updScanner g f).cages = s.cages := rfl

@[simp] theorem updScanner_claims (s : State) (g : Seg) (f : Scanner → Scanner) :
    (s.updScanner g f).claims = s.claims := rfl

@[simp] theorem updScanner_peers (s : State) (g : Seg) (f : Scanner → Scanner) :
    (s.updScanner g f).peers = s.peers := rfl

@[simp] theorem updScanner_bus (s : State) (g : Seg) (f : Scanner → Scanner) :
    (s.updScanner g f).bus = s.bus := rfl

@[simp] theorem updScanner_penalties (s : State) (g : Seg) (f : Scanner → Scanner) :
    (s.updScanner g f).penalties = s.penalties := rfl

@[simp] theorem updScanner_links (s : State) (g : Seg) (f : Scanner → Scanner) :
    (s.updScanner g f).links = s.links := rfl

@[simp] theorem updScanner_scan (s : State) (g : Seg) (f : Scanner → Scanner) :
    (s.updScanner g f).scan = { s.scan with scanners := modifyAt s.scan.scanners g f } := rfl

@[simp] theorem updScanner_service (s : State) (g : Seg) (f : Scanner → Scanner) :
    (s.updScanner g f).service = s.service := rfl

@[simp] theorem updScanner_events (s : State) (g : Seg) (f : Scanner → Scanner) :
    (s.updScanner g f).events = s.events := rfl

@[simp] theorem updScanner_openChoices (s : State) (g : Seg) (f : Scanner → Scanner) :
    (s.updScanner g f).openChoices = s.openChoices := rfl

/-! ### updLink -/

@[simp] theorem updLink_pending (s : State) (g : Seg) (f : Link → Link) :
    (s.updLink g f).pending = s.pending := rfl

@[simp] theorem updLink_startup (s : State) (g : Seg) (f : Link → Link) :
    (s.updLink g f).startup = s.startup := rfl

@[simp] theorem updLink_lines (s : State) (g : Seg) (f : Link → Link) :
    (s.updLink g f).lines = s.lines := rfl

@[simp] theorem updLink_cages (s : State) (g : Seg) (f : Link → Link) :
    (s.updLink g f).cages = s.cages := rfl

@[simp] theorem updLink_claims (s : State) (g : Seg) (f : Link → Link) :
    (s.updLink g f).claims = s.claims := rfl

@[simp] theorem updLink_peers (s : State) (g : Seg) (f : Link → Link) :
    (s.updLink g f).peers = s.peers := rfl

@[simp] theorem updLink_bus (s : State) (g : Seg) (f : Link → Link) :
    (s.updLink g f).bus = s.bus := rfl

@[simp] theorem updLink_penalties (s : State) (g : Seg) (f : Link → Link) :
    (s.updLink g f).penalties = s.penalties := rfl

@[simp] theorem updLink_links (s : State) (g : Seg) (f : Link → Link) :
    (s.updLink g f).links = modifyAt s.links g f := rfl

@[simp] theorem updLink_scan (s : State) (g : Seg) (f : Link → Link) :
    (s.updLink g f).scan = s.scan := rfl

@[simp] theorem updLink_service (s : State) (g : Seg) (f : Link → Link) :
    (s.updLink g f).service = s.service := rfl

@[simp] theorem updLink_events (s : State) (g : Seg) (f : Link → Link) :
    (s.updLink g f).events = s.events := rfl

@[simp] theorem updLink_openChoices (s : State) (g : Seg) (f : Link → Link) :
    (s.updLink g f).openChoices = s.openChoices := rfl

/-! ### updPeer -/

@[simp] theorem updPeer_pending (s : State) (n : Station) (f : PeerEntry → PeerEntry) :
    (s.updPeer n f).pending = s.pending := rfl

@[simp] theorem updPeer_startup (s : State) (n : Station) (f : PeerEntry → PeerEntry) :
    (s.updPeer n f).startup = s.startup := rfl

@[simp] theorem updPeer_lines (s : State) (n : Station) (f : PeerEntry → PeerEntry) :
    (s.updPeer n f).lines = s.lines := rfl

@[simp] theorem updPeer_cages (s : State) (n : Station) (f : PeerEntry → PeerEntry) :
    (s.updPeer n f).cages = s.cages := rfl

@[simp] theorem updPeer_claims (s : State) (n : Station) (f : PeerEntry → PeerEntry) :
    (s.updPeer n f).claims = s.claims := rfl

@[simp] theorem updPeer_peers (s : State) (n : Station) (f : PeerEntry → PeerEntry) :
    (s.updPeer n f).peers = modifyAt s.peers n f := rfl

@[simp] theorem updPeer_bus (s : State) (n : Station) (f : PeerEntry → PeerEntry) :
    (s.updPeer n f).bus = s.bus := rfl

@[simp] theorem updPeer_penalties (s : State) (n : Station) (f : PeerEntry → PeerEntry) :
    (s.updPeer n f).penalties = s.penalties := rfl

@[simp] theorem updPeer_links (s : State) (n : Station) (f : PeerEntry → PeerEntry) :
    (s.updPeer n f).links = s.links := rfl

@[simp] theorem updPeer_scan (s : State) (n : Station) (f : PeerEntry → PeerEntry) :
    (s.updPeer n f).scan = s.scan := rfl

@[simp] theorem updPeer_service (s : State) (n : Station) (f : PeerEntry → PeerEntry) :
    (s.updPeer n f).service = s.service := rfl

@[simp] theorem updPeer_events (s : State) (n : Station) (f : PeerEntry → PeerEntry) :
    (s.updPeer n f).events = s.events := rfl

@[simp] theorem updPeer_openChoices (s : State) (n : Station) (f : PeerEntry → PeerEntry) :
    (s.updPeer n f).openChoices = s.openChoices := rfl

/-! ### updStartup -/

@[simp] theorem updStartup_pending (s : State) (f : Startup → Startup) :
    (s.updStartup f).pending = s.pending := rfl

@[simp] theorem updStartup_startup (s : State) (f : Startup → Startup) :
    (s.updStartup f).startup = f s.startup := rfl

@[simp] theorem updStartup_lines (s : State) (f : Startup → Startup) :
    (s.updStartup f).lines = s.lines := rfl

@[simp] theorem updStartup_cages (s : State) (f : Startup → Startup) :
    (s.updStartup f).cages = s.cages := rfl

@[simp] theorem updStartup_claims (s : State) (f : Startup → Startup) :
    (s.updStartup f).claims = s.claims := rfl

@[simp] theorem updStartup_peers (s : State) (f : Startup → Startup) :
    (s.updStartup f).peers = s.peers := rfl

@[simp] theorem updStartup_bus (s : State) (f : Startup → Startup) :
    (s.updStartup f).bus = s.bus := rfl

@[simp] theorem updStartup_penalties (s : State) (f : Startup → Startup) :
    (s.updStartup f).penalties = s.penalties := rfl

@[simp] theorem updStartup_links (s : State) (f : Startup → Startup) :
    (s.updStartup f).links = s.links := rfl

@[simp] theorem updStartup_scan (s : State) (f : Startup → Startup) :
    (s.updStartup f).scan = s.scan := rfl

@[simp] theorem updStartup_service (s : State) (f : Startup → Startup) :
    (s.updStartup f).service = s.service := rfl

@[simp] theorem updStartup_events (s : State) (f : Startup → Startup) :
    (s.updStartup f).events = s.events := rfl

@[simp] theorem updStartup_openChoices (s : State) (f : Startup → Startup) :
    (s.updStartup f).openChoices = s.openChoices := rfl

/-! ### updBus -/

@[simp] theorem updBus_pending (s : State) (f : BusUnit → BusUnit) :
    (s.updBus f).pending = s.pending := rfl

@[simp] theorem updBus_startup (s : State) (f : BusUnit → BusUnit) :
    (s.updBus f).startup = s.startup := rfl

@[simp] theorem updBus_lines (s : State) (f : BusUnit → BusUnit) :
    (s.updBus f).lines = s.lines := rfl

@[simp] theorem updBus_cages (s : State) (f : BusUnit → BusUnit) :
    (s.updBus f).cages = s.cages := rfl

@[simp] theorem updBus_claims (s : State) (f : BusUnit → BusUnit) :
    (s.updBus f).claims = s.claims := rfl

@[simp] theorem updBus_peers (s : State) (f : BusUnit → BusUnit) :
    (s.updBus f).peers = s.peers := rfl

@[simp] theorem updBus_bus (s : State) (f : BusUnit → BusUnit) :
    (s.updBus f).bus = f s.bus := rfl

@[simp] theorem updBus_penalties (s : State) (f : BusUnit → BusUnit) :
    (s.updBus f).penalties = s.penalties := rfl

@[simp] theorem updBus_links (s : State) (f : BusUnit → BusUnit) :
    (s.updBus f).links = s.links := rfl

@[simp] theorem updBus_scan (s : State) (f : BusUnit → BusUnit) :
    (s.updBus f).scan = s.scan := rfl

@[simp] theorem updBus_service (s : State) (f : BusUnit → BusUnit) :
    (s.updBus f).service = s.service := rfl

@[simp] theorem updBus_events (s : State) (f : BusUnit → BusUnit) :
    (s.updBus f).events = s.events := rfl

@[simp] theorem updBus_openChoices (s : State) (f : BusUnit → BusUnit) :
    (s.updBus f).openChoices = s.openChoices := rfl

/-! ### updClaims -/

@[simp] theorem updClaims_pending (s : State) (f : ClaimUnit → ClaimUnit) :
    (s.updClaims f).pending = s.pending := rfl

@[simp] theorem updClaims_startup (s : State) (f : ClaimUnit → ClaimUnit) :
    (s.updClaims f).startup = s.startup := rfl

@[simp] theorem updClaims_lines (s : State) (f : ClaimUnit → ClaimUnit) :
    (s.updClaims f).lines = s.lines := rfl

@[simp] theorem updClaims_cages (s : State) (f : ClaimUnit → ClaimUnit) :
    (s.updClaims f).cages = s.cages := rfl

@[simp] theorem updClaims_claims (s : State) (f : ClaimUnit → ClaimUnit) :
    (s.updClaims f).claims = f s.claims := rfl

@[simp] theorem updClaims_peers (s : State) (f : ClaimUnit → ClaimUnit) :
    (s.updClaims f).peers = s.peers := rfl

@[simp] theorem updClaims_bus (s : State) (f : ClaimUnit → ClaimUnit) :
    (s.updClaims f).bus = s.bus := rfl

@[simp] theorem updClaims_penalties (s : State) (f : ClaimUnit → ClaimUnit) :
    (s.updClaims f).penalties = s.penalties := rfl

@[simp] theorem updClaims_links (s : State) (f : ClaimUnit → ClaimUnit) :
    (s.updClaims f).links = s.links := rfl

@[simp] theorem updClaims_scan (s : State) (f : ClaimUnit → ClaimUnit) :
    (s.updClaims f).scan = s.scan := rfl

@[simp] theorem updClaims_service (s : State) (f : ClaimUnit → ClaimUnit) :
    (s.updClaims f).service = s.service := rfl

@[simp] theorem updClaims_events (s : State) (f : ClaimUnit → ClaimUnit) :
    (s.updClaims f).events = s.events := rfl

@[simp] theorem updClaims_openChoices (s : State) (f : ClaimUnit → ClaimUnit) :
    (s.updClaims f).openChoices = s.openChoices := rfl

/-! ### A record after its own update, and after another's -/

@[simp] theorem cage_updCage (s : State) (c : Cage) (f : CageRecord → CageRecord) :
    (s.updCage c f).cage c = f (s.cage c) := modifyAt_same _ _ _

theorem cage_updCage_other (s : State) (c k : Cage) (f : CageRecord → CageRecord) (h : k ≠ c) :
    (s.updCage c f).cage k = s.cage k := modifyAt_other _ _ _ _ h

@[simp] theorem line_updLines (s : State) (c : Cage) (f : CageLines → CageLines) :
    (s.updLines c f).line c = f (s.line c) := modifyAt_same _ _ _

theorem line_updLines_other (s : State) (c k : Cage) (f : CageLines → CageLines) (h : k ≠ c) :
    (s.updLines c f).line k = s.line k := modifyAt_other _ _ _ _ h

@[simp] theorem claim_updClaim (s : State) (c : Cage) (f : Claim → Claim) :
    (s.updClaim c f).claim c = f (s.claim c) := modifyAt_same _ _ _

theorem claim_updClaim_other (s : State) (c k : Cage) (f : Claim → Claim) (h : k ≠ c) :
    (s.updClaim c f).claim k = s.claim k := modifyAt_other _ _ _ _ h

@[simp] theorem penalty_updPenalty (s : State) (c : Cage) (f : CagePenalty → CagePenalty) :
    (s.updPenalty c f).penalty c = f (s.penalty c) := modifyAt_same _ _ _

theorem penalty_updPenalty_other (s : State) (c k : Cage) (f : CagePenalty → CagePenalty) (h : k ≠ c) :
    (s.updPenalty c f).penalty k = s.penalty k := modifyAt_other _ _ _ _ h

@[simp] theorem cageScan_updScan (s : State) (c : Cage) (f : CageScan → CageScan) :
    (s.updScan c f).cageScan c = f (s.cageScan c) := modifyAt_same _ _ _

theorem cageScan_updScan_other (s : State) (c k : Cage) (f : CageScan → CageScan) (h : k ≠ c) :
    (s.updScan c f).cageScan k = s.cageScan k := modifyAt_other _ _ _ _ h

@[simp] theorem scanner_updScanner (s : State) (g : Seg) (f : Scanner → Scanner) :
    (s.updScanner g f).scanner g = f (s.scanner g) := modifyAt_same _ _ _

theorem scanner_updScanner_other (s : State) (g k : Seg) (f : Scanner → Scanner) (h : k ≠ g) :
    (s.updScanner g f).scanner k = s.scanner k := modifyAt_other _ _ _ _ h

@[simp] theorem link_updLink (s : State) (g : Seg) (f : Link → Link) :
    (s.updLink g f).link g = f (s.link g) := modifyAt_same _ _ _

theorem link_updLink_other (s : State) (g k : Seg) (f : Link → Link) (h : k ≠ g) :
    (s.updLink g f).link k = s.link k := modifyAt_other _ _ _ _ h

@[simp] theorem peer_updPeer (s : State) (n : Station) (f : PeerEntry → PeerEntry) :
    (s.updPeer n f).peer n = f (s.peer n) := modifyAt_same _ _ _

theorem peer_updPeer_other (s : State) (n k : Station) (f : PeerEntry → PeerEntry) (h : k ≠ n) :
    (s.updPeer n f).peer k = s.peer k := modifyAt_other _ _ _ _ h

/-! ### A record after an update elsewhere -/

@[simp] theorem line_updCage (s : State) (c : Cage) (f : CageRecord → CageRecord) (k : Cage) :
    (s.updCage c f).line k = s.line k := rfl

@[simp] theorem claim_updCage (s : State) (c : Cage) (f : CageRecord → CageRecord) (k : Cage) :
    (s.updCage c f).claim k = s.claim k := rfl

@[simp] theorem penalty_updCage (s : State) (c : Cage) (f : CageRecord → CageRecord) (k : Cage) :
    (s.updCage c f).penalty k = s.penalty k := rfl

@[simp] theorem cageScan_updCage (s : State) (c : Cage) (f : CageRecord → CageRecord) (k : Cage) :
    (s.updCage c f).cageScan k = s.cageScan k := rfl

@[simp] theorem scanner_updCage (s : State) (c : Cage) (f : CageRecord → CageRecord) (k : Seg) :
    (s.updCage c f).scanner k = s.scanner k := rfl

@[simp] theorem link_updCage (s : State) (c : Cage) (f : CageRecord → CageRecord) (k : Seg) :
    (s.updCage c f).link k = s.link k := rfl

@[simp] theorem peer_updCage (s : State) (c : Cage) (f : CageRecord → CageRecord) (k : Station) :
    (s.updCage c f).peer k = s.peer k := rfl

@[simp] theorem cage_updLines (s : State) (c : Cage) (f : CageLines → CageLines) (k : Cage) :
    (s.updLines c f).cage k = s.cage k := rfl

@[simp] theorem claim_updLines (s : State) (c : Cage) (f : CageLines → CageLines) (k : Cage) :
    (s.updLines c f).claim k = s.claim k := rfl

@[simp] theorem penalty_updLines (s : State) (c : Cage) (f : CageLines → CageLines) (k : Cage) :
    (s.updLines c f).penalty k = s.penalty k := rfl

@[simp] theorem cageScan_updLines (s : State) (c : Cage) (f : CageLines → CageLines) (k : Cage) :
    (s.updLines c f).cageScan k = s.cageScan k := rfl

@[simp] theorem scanner_updLines (s : State) (c : Cage) (f : CageLines → CageLines) (k : Seg) :
    (s.updLines c f).scanner k = s.scanner k := rfl

@[simp] theorem link_updLines (s : State) (c : Cage) (f : CageLines → CageLines) (k : Seg) :
    (s.updLines c f).link k = s.link k := rfl

@[simp] theorem peer_updLines (s : State) (c : Cage) (f : CageLines → CageLines) (k : Station) :
    (s.updLines c f).peer k = s.peer k := rfl

@[simp] theorem cage_updClaim (s : State) (c : Cage) (f : Claim → Claim) (k : Cage) :
    (s.updClaim c f).cage k = s.cage k := rfl

@[simp] theorem line_updClaim (s : State) (c : Cage) (f : Claim → Claim) (k : Cage) :
    (s.updClaim c f).line k = s.line k := rfl

@[simp] theorem penalty_updClaim (s : State) (c : Cage) (f : Claim → Claim) (k : Cage) :
    (s.updClaim c f).penalty k = s.penalty k := rfl

@[simp] theorem cageScan_updClaim (s : State) (c : Cage) (f : Claim → Claim) (k : Cage) :
    (s.updClaim c f).cageScan k = s.cageScan k := rfl

@[simp] theorem scanner_updClaim (s : State) (c : Cage) (f : Claim → Claim) (k : Seg) :
    (s.updClaim c f).scanner k = s.scanner k := rfl

@[simp] theorem link_updClaim (s : State) (c : Cage) (f : Claim → Claim) (k : Seg) :
    (s.updClaim c f).link k = s.link k := rfl

@[simp] theorem peer_updClaim (s : State) (c : Cage) (f : Claim → Claim) (k : Station) :
    (s.updClaim c f).peer k = s.peer k := rfl

@[simp] theorem cage_updPenalty (s : State) (c : Cage) (f : CagePenalty → CagePenalty) (k : Cage) :
    (s.updPenalty c f).cage k = s.cage k := rfl

@[simp] theorem line_updPenalty (s : State) (c : Cage) (f : CagePenalty → CagePenalty) (k : Cage) :
    (s.updPenalty c f).line k = s.line k := rfl

@[simp] theorem claim_updPenalty (s : State) (c : Cage) (f : CagePenalty → CagePenalty) (k : Cage) :
    (s.updPenalty c f).claim k = s.claim k := rfl

@[simp] theorem cageScan_updPenalty (s : State) (c : Cage) (f : CagePenalty → CagePenalty) (k : Cage) :
    (s.updPenalty c f).cageScan k = s.cageScan k := rfl

@[simp] theorem scanner_updPenalty (s : State) (c : Cage) (f : CagePenalty → CagePenalty) (k : Seg) :
    (s.updPenalty c f).scanner k = s.scanner k := rfl

@[simp] theorem link_updPenalty (s : State) (c : Cage) (f : CagePenalty → CagePenalty) (k : Seg) :
    (s.updPenalty c f).link k = s.link k := rfl

@[simp] theorem peer_updPenalty (s : State) (c : Cage) (f : CagePenalty → CagePenalty) (k : Station) :
    (s.updPenalty c f).peer k = s.peer k := rfl

@[simp] theorem cage_updScan (s : State) (c : Cage) (f : CageScan → CageScan) (k : Cage) :
    (s.updScan c f).cage k = s.cage k := rfl

@[simp] theorem line_updScan (s : State) (c : Cage) (f : CageScan → CageScan) (k : Cage) :
    (s.updScan c f).line k = s.line k := rfl

@[simp] theorem claim_updScan (s : State) (c : Cage) (f : CageScan → CageScan) (k : Cage) :
    (s.updScan c f).claim k = s.claim k := rfl

@[simp] theorem penalty_updScan (s : State) (c : Cage) (f : CageScan → CageScan) (k : Cage) :
    (s.updScan c f).penalty k = s.penalty k := rfl

@[simp] theorem scanner_updScan (s : State) (c : Cage) (f : CageScan → CageScan) (k : Seg) :
    (s.updScan c f).scanner k = s.scanner k := rfl

@[simp] theorem link_updScan (s : State) (c : Cage) (f : CageScan → CageScan) (k : Seg) :
    (s.updScan c f).link k = s.link k := rfl

@[simp] theorem peer_updScan (s : State) (c : Cage) (f : CageScan → CageScan) (k : Station) :
    (s.updScan c f).peer k = s.peer k := rfl

@[simp] theorem cage_updScanner (s : State) (g : Seg) (f : Scanner → Scanner) (k : Cage) :
    (s.updScanner g f).cage k = s.cage k := rfl

@[simp] theorem line_updScanner (s : State) (g : Seg) (f : Scanner → Scanner) (k : Cage) :
    (s.updScanner g f).line k = s.line k := rfl

@[simp] theorem claim_updScanner (s : State) (g : Seg) (f : Scanner → Scanner) (k : Cage) :
    (s.updScanner g f).claim k = s.claim k := rfl

@[simp] theorem penalty_updScanner (s : State) (g : Seg) (f : Scanner → Scanner) (k : Cage) :
    (s.updScanner g f).penalty k = s.penalty k := rfl

@[simp] theorem cageScan_updScanner (s : State) (g : Seg) (f : Scanner → Scanner) (k : Cage) :
    (s.updScanner g f).cageScan k = s.cageScan k := rfl

@[simp] theorem link_updScanner (s : State) (g : Seg) (f : Scanner → Scanner) (k : Seg) :
    (s.updScanner g f).link k = s.link k := rfl

@[simp] theorem peer_updScanner (s : State) (g : Seg) (f : Scanner → Scanner) (k : Station) :
    (s.updScanner g f).peer k = s.peer k := rfl

@[simp] theorem cage_updLink (s : State) (g : Seg) (f : Link → Link) (k : Cage) :
    (s.updLink g f).cage k = s.cage k := rfl

@[simp] theorem line_updLink (s : State) (g : Seg) (f : Link → Link) (k : Cage) :
    (s.updLink g f).line k = s.line k := rfl

@[simp] theorem claim_updLink (s : State) (g : Seg) (f : Link → Link) (k : Cage) :
    (s.updLink g f).claim k = s.claim k := rfl

@[simp] theorem penalty_updLink (s : State) (g : Seg) (f : Link → Link) (k : Cage) :
    (s.updLink g f).penalty k = s.penalty k := rfl

@[simp] theorem cageScan_updLink (s : State) (g : Seg) (f : Link → Link) (k : Cage) :
    (s.updLink g f).cageScan k = s.cageScan k := rfl

@[simp] theorem scanner_updLink (s : State) (g : Seg) (f : Link → Link) (k : Seg) :
    (s.updLink g f).scanner k = s.scanner k := rfl

@[simp] theorem peer_updLink (s : State) (g : Seg) (f : Link → Link) (k : Station) :
    (s.updLink g f).peer k = s.peer k := rfl

@[simp] theorem cage_updPeer (s : State) (n : Station) (f : PeerEntry → PeerEntry) (k : Cage) :
    (s.updPeer n f).cage k = s.cage k := rfl

@[simp] theorem line_updPeer (s : State) (n : Station) (f : PeerEntry → PeerEntry) (k : Cage) :
    (s.updPeer n f).line k = s.line k := rfl

@[simp] theorem claim_updPeer (s : State) (n : Station) (f : PeerEntry → PeerEntry) (k : Cage) :
    (s.updPeer n f).claim k = s.claim k := rfl

@[simp] theorem penalty_updPeer (s : State) (n : Station) (f : PeerEntry → PeerEntry) (k : Cage) :
    (s.updPeer n f).penalty k = s.penalty k := rfl

@[simp] theorem cageScan_updPeer (s : State) (n : Station) (f : PeerEntry → PeerEntry) (k : Cage) :
    (s.updPeer n f).cageScan k = s.cageScan k := rfl

@[simp] theorem scanner_updPeer (s : State) (n : Station) (f : PeerEntry → PeerEntry) (k : Seg) :
    (s.updPeer n f).scanner k = s.scanner k := rfl

@[simp] theorem link_updPeer (s : State) (n : Station) (f : PeerEntry → PeerEntry) (k : Seg) :
    (s.updPeer n f).link k = s.link k := rfl

@[simp] theorem cage_updStartup (s : State) (f : Startup → Startup) (k : Cage) :
    (s.updStartup f).cage k = s.cage k := rfl

@[simp] theorem line_updStartup (s : State) (f : Startup → Startup) (k : Cage) :
    (s.updStartup f).line k = s.line k := rfl

@[simp] theorem claim_updStartup (s : State) (f : Startup → Startup) (k : Cage) :
    (s.updStartup f).claim k = s.claim k := rfl

@[simp] theorem penalty_updStartup (s : State) (f : Startup → Startup) (k : Cage) :
    (s.updStartup f).penalty k = s.penalty k := rfl

@[simp] theorem cageScan_updStartup (s : State) (f : Startup → Startup) (k : Cage) :
    (s.updStartup f).cageScan k = s.cageScan k := rfl

@[simp] theorem scanner_updStartup (s : State) (f : Startup → Startup) (k : Seg) :
    (s.updStartup f).scanner k = s.scanner k := rfl

@[simp] theorem link_updStartup (s : State) (f : Startup → Startup) (k : Seg) :
    (s.updStartup f).link k = s.link k := rfl

@[simp] theorem peer_updStartup (s : State) (f : Startup → Startup) (k : Station) :
    (s.updStartup f).peer k = s.peer k := rfl

@[simp] theorem cage_updBus (s : State) (f : BusUnit → BusUnit) (k : Cage) :
    (s.updBus f).cage k = s.cage k := rfl

@[simp] theorem line_updBus (s : State) (f : BusUnit → BusUnit) (k : Cage) :
    (s.updBus f).line k = s.line k := rfl

@[simp] theorem claim_updBus (s : State) (f : BusUnit → BusUnit) (k : Cage) :
    (s.updBus f).claim k = s.claim k := rfl

@[simp] theorem penalty_updBus (s : State) (f : BusUnit → BusUnit) (k : Cage) :
    (s.updBus f).penalty k = s.penalty k := rfl

@[simp] theorem cageScan_updBus (s : State) (f : BusUnit → BusUnit) (k : Cage) :
    (s.updBus f).cageScan k = s.cageScan k := rfl

@[simp] theorem scanner_updBus (s : State) (f : BusUnit → BusUnit) (k : Seg) :
    (s.updBus f).scanner k = s.scanner k := rfl

@[simp] theorem link_updBus (s : State) (f : BusUnit → BusUnit) (k : Seg) :
    (s.updBus f).link k = s.link k := rfl

@[simp] theorem peer_updBus (s : State) (f : BusUnit → BusUnit) (k : Station) :
    (s.updBus f).peer k = s.peer k := rfl

@[simp] theorem cage_updClaims (s : State) (f : ClaimUnit → ClaimUnit) (k : Cage) :
    (s.updClaims f).cage k = s.cage k := rfl

@[simp] theorem line_updClaims (s : State) (f : ClaimUnit → ClaimUnit) (k : Cage) :
    (s.updClaims f).line k = s.line k := rfl

@[simp] theorem penalty_updClaims (s : State) (f : ClaimUnit → ClaimUnit) (k : Cage) :
    (s.updClaims f).penalty k = s.penalty k := rfl

@[simp] theorem cageScan_updClaims (s : State) (f : ClaimUnit → ClaimUnit) (k : Cage) :
    (s.updClaims f).cageScan k = s.cageScan k := rfl

@[simp] theorem scanner_updClaims (s : State) (f : ClaimUnit → ClaimUnit) (k : Seg) :
    (s.updClaims f).scanner k = s.scanner k := rfl

@[simp] theorem link_updClaims (s : State) (f : ClaimUnit → ClaimUnit) (k : Seg) :
    (s.updClaims f).link k = s.link k := rfl

@[simp] theorem peer_updClaims (s : State) (f : ClaimUnit → ClaimUnit) (k : Station) :
    (s.updClaims f).peer k = s.peer k := rfl

@[simp] theorem conf_updCage (s : State) (c : Cage) (f : CageRecord → CageRecord) : (s.updCage c f).conf = s.conf := rfl

@[simp] theorem cageConf_updCage (s : State) (c : Cage) (f : CageRecord → CageRecord) (k : Cage) :
    (s.updCage c f).cageConf k = s.cageConf k := rfl

@[simp] theorem conf_updLines (s : State) (c : Cage) (f : CageLines → CageLines) : (s.updLines c f).conf = s.conf := rfl

@[simp] theorem cageConf_updLines (s : State) (c : Cage) (f : CageLines → CageLines) (k : Cage) :
    (s.updLines c f).cageConf k = s.cageConf k := rfl

@[simp] theorem conf_updClaim (s : State) (c : Cage) (f : Claim → Claim) : (s.updClaim c f).conf = s.conf := rfl

@[simp] theorem cageConf_updClaim (s : State) (c : Cage) (f : Claim → Claim) (k : Cage) :
    (s.updClaim c f).cageConf k = s.cageConf k := rfl

@[simp] theorem conf_updPenalty (s : State) (c : Cage) (f : CagePenalty → CagePenalty) : (s.updPenalty c f).conf = s.conf := rfl

@[simp] theorem cageConf_updPenalty (s : State) (c : Cage) (f : CagePenalty → CagePenalty) (k : Cage) :
    (s.updPenalty c f).cageConf k = s.cageConf k := rfl

@[simp] theorem conf_updScan (s : State) (c : Cage) (f : CageScan → CageScan) : (s.updScan c f).conf = s.conf := rfl

@[simp] theorem cageConf_updScan (s : State) (c : Cage) (f : CageScan → CageScan) (k : Cage) :
    (s.updScan c f).cageConf k = s.cageConf k := rfl

@[simp] theorem conf_updScanner (s : State) (g : Seg) (f : Scanner → Scanner) : (s.updScanner g f).conf = s.conf := rfl

@[simp] theorem cageConf_updScanner (s : State) (g : Seg) (f : Scanner → Scanner) (k : Cage) :
    (s.updScanner g f).cageConf k = s.cageConf k := rfl

@[simp] theorem conf_updLink (s : State) (g : Seg) (f : Link → Link) : (s.updLink g f).conf = s.conf := rfl

@[simp] theorem cageConf_updLink (s : State) (g : Seg) (f : Link → Link) (k : Cage) :
    (s.updLink g f).cageConf k = s.cageConf k := rfl

@[simp] theorem conf_updPeer (s : State) (n : Station) (f : PeerEntry → PeerEntry) : (s.updPeer n f).conf = s.conf := rfl

@[simp] theorem cageConf_updPeer (s : State) (n : Station) (f : PeerEntry → PeerEntry) (k : Cage) :
    (s.updPeer n f).cageConf k = s.cageConf k := rfl

@[simp] theorem conf_updBus (s : State) (f : BusUnit → BusUnit) : (s.updBus f).conf = s.conf := rfl

@[simp] theorem cageConf_updBus (s : State) (f : BusUnit → BusUnit) (k : Cage) :
    (s.updBus f).cageConf k = s.cageConf k := rfl

@[simp] theorem conf_updClaims (s : State) (f : ClaimUnit → ClaimUnit) : (s.updClaims f).conf = s.conf := rfl

@[simp] theorem cageConf_updClaims (s : State) (f : ClaimUnit → ClaimUnit) (k : Cage) :
    (s.updClaims f).cageConf k = s.cageConf k := rfl

/-! ### The configuration memory's lines (R181) -/

@[simp] theorem imageRead_sent : imageRead.sent = [0x03, 0x00, 0x00] := rfl

@[simp] theorem imageRead_clocks : imageRead.clocks = 792 := rfl

/-- A read is under way in READ-1 and READ-2 alone, and it is always the read of the image. -/
theorem spiRead_eq_some (s : State) (r : SpiRead) :
    s.spiRead = some r ↔
      r = imageRead ∧ (s.startup.loadPhase = .read1 ∨ s.startup.loadPhase = .read2) := by
  unfold State.spiRead
  cases s.startup.loadPhase <;> simp [eq_comm]

/-- The memory is selected in READ-1 and READ-2 alone. -/
theorem memorySelected_iff (s : State) :
    s.memorySelected = true ↔ s.startup.loadPhase = .read1 ∨ s.startup.loadPhase = .read2 := by
  unfold State.memorySelected State.spiRead
  cases s.startup.loadPhase <;> simp

/-- The memory's lines depend on the start-up block alone. -/
theorem spiRead_congr {s t : State} (h : t.startup.loadPhase = s.startup.loadPhase) :
    t.spiRead = s.spiRead ∧ t.memorySelected = s.memorySelected := by
  unfold State.memorySelected State.spiRead
  rw [h]; exact ⟨rfl, rfl⟩

/-! ### The try on a segment (R117) -/

/-- The data bytes of a read: the last alone meets a NAK. -/
@[simp] theorem takenBytes_succ (n : Nat) :
    takenBytes (n + 1) = List.replicate n (.takes true) ++ [.takes false] := by
  simp only [takenBytes, List.range_succ, List.map_append, List.map_cons, List.map_nil, Nat.lt_irrefl,
    decide_false, List.append_cancel_right_eq]
  refine List.eq_replicate_iff.2 ⟨by simp, fun x hx => ?_⟩
  obtain ⟨i, hi, rfl⟩ := List.mem_map.1 hx
  simpa using List.mem_range.1 hi

/-- The length of a try of a write (the table of R117). -/
@[simp] theorem tryClocks_writeTry (address : Byte) (data : List Byte) :
    tryClocks (writeTry address data) = 20 + 9 * data.length := by
  have : (data.map (WireItem.clocks ∘ WireItem.sends)).sum = 9 * data.length := by
    induction data with
    | nil => rfl
    | cons b bs ih => simp only [List.map_cons, List.sum_cons, ih, List.length_cons, Function.comp_apply,
        WireItem.clocks]; omega
  simp only [tryClocks, writeTry, List.map_append, List.map_map, List.sum_append, this, List.map_cons,
    List.map_nil, List.sum_cons, List.sum_nil, WireItem.clocks]
  omega

/-- The length of a try of a read (the table of R117). -/
@[simp] theorem tryClocks_readTry (address : Byte) (n : Nat) :
    tryClocks (readTry address n) = 30 + 9 * n := by
  have : ((List.range n).map (WireItem.clocks ∘ fun i => WireItem.takes (decide (i + 1 < n)))).sum =
      9 * n := by
    have : (WireItem.clocks ∘ fun i => WireItem.takes (decide (i + 1 < n))) = fun _ : Nat => 9 := rfl
    simp [this, Nat.mul_comm]
  simp only [tryClocks, readTry, takenBytes, List.map_append, List.map_map, List.sum_append, this,
    List.map_cons, List.map_nil, List.sum_cons, List.sum_nil, WireItem.clocks]
  omega

@[simp] theorem wire_chunk (slot : Slot) (r : LinkRequest) :
    (r.chunk slot).wire =
      match r.writeData with
      | some data => writeTry (byteOf (r.address + 8 * r.nextChunk)) ((data.drop (8 * r.nextChunk)).take 8)
      | none => readTry (byteOf (r.address + 8 * r.nextChunk)) (min 8 (r.length - 8 * r.nextChunk)) := by
  cases h : r.writeData <;> simp [Chunk.wire, LinkRequest.chunk, h]

/-- The try is the same whatever its number and however the chunk is to end. -/
@[simp] theorem wire_retried (k : Chunk) (n : Nat) : { k with tryNo := n }.wire = k.wire := rfl

@[simp] theorem wire_ended (k : Chunk) (e : ChunkEnd) : { k with ending := e }.wire = k.wire := rfl

/-- A try is on a segment in CHUNK alone, and it is that of the chunk in progress. -/
theorem segmentTry_eq_some (s : State) (g : Seg) (w : List WireItem) :
    s.segmentTry g = some w ↔
      (s.link g).state = .chunk ∧ ∃ k, (s.link g).chunk = some k ∧ k.wire = w := by
  unfold State.segmentTry
  cases (s.link g).state <;> simp

/-- The try depends on the segment alone. -/
theorem segmentTry_congr {s t : State} {g : Seg} (h : t.link g = s.link g) :
    t.segmentTry g = s.segmentTry g := by
  unfold State.segmentTry
  rw [h]

end Sys2Proof.Machine
end

