-- ==== Sys2Proof/Laws/Frames.lean ====
section
/-! SUPPORT. What each shared operation leaves alone: one lemma per operation, with one equation for
each part of the state that the operation does not change. -/

namespace Sys2Proof.Machine

@[simp] theorem handRecord_frame (c : Cage) (k : EventKind) (b : CageState) (q : Option FaultCause) (s : State) :
    (handRecord c k b q s).pending = s.pending ∧ (handRecord c k b q s).startup = s.startup ∧
    (handRecord c k b q s).lines = s.lines ∧ (handRecord c k b q s).cages = s.cages ∧
    (handRecord c k b q s).claims = s.claims ∧ (handRecord c k b q s).peers = s.peers ∧
    (handRecord c k b q s).bus = s.bus ∧ (handRecord c k b q s).penalties = s.penalties ∧
    (handRecord c k b q s).links = s.links ∧ (handRecord c k b q s).scan = s.scan ∧
    (handRecord c k b q s).service = s.service ∧
    (handRecord c k b q s).openChoices = s.openChoices := by
  simp [handRecord]

@[simp] theorem nameSource_frame (c : Cage) (st : CageState) (s : State) :
    (nameSource c st s).pending = s.pending ∧ (nameSource c st s).startup = s.startup ∧
    (nameSource c st s).cages = s.cages ∧ (nameSource c st s).claims = s.claims ∧
    (nameSource c st s).peers = s.peers ∧ (nameSource c st s).bus = s.bus ∧
    (nameSource c st s).penalties = s.penalties ∧ (nameSource c st s).links = s.links ∧
    (nameSource c st s).scan = s.scan ∧ (nameSource c st s).service = s.service ∧
    (nameSource c st s).events = s.events ∧ (nameSource c st s).openChoices = s.openChoices := by
  unfold nameSource; (repeat' split) <;> simp

@[simp] theorem latchLines_frame (c : Cage) (s : State) :
    (latchLines c s).pending = s.pending ∧ (latchLines c s).startup = s.startup ∧
    (latchLines c s).cages = s.cages ∧ (latchLines c s).claims = s.claims ∧
    (latchLines c s).peers = s.peers ∧ (latchLines c s).bus = s.bus ∧
    (latchLines c s).penalties = s.penalties ∧ (latchLines c s).links = s.links ∧
    (latchLines c s).scan = s.scan ∧ (latchLines c s).service = s.service ∧
    (latchLines c s).events = s.events ∧ (latchLines c s).openChoices = s.openChoices := by
  simp [latchLines]

@[simp] theorem flapPenalty_frame (c : Cage) (s : State) :
    (flapPenalty c s).pending = s.pending ∧ (flapPenalty c s).startup = s.startup ∧
    (flapPenalty c s).lines = s.lines ∧ (flapPenalty c s).cages = s.cages ∧
    (flapPenalty c s).claims = s.claims ∧ (flapPenalty c s).peers = s.peers ∧
    (flapPenalty c s).bus = s.bus ∧ (flapPenalty c s).links = s.links ∧
    (flapPenalty c s).scan = s.scan ∧ (flapPenalty c s).service = s.service ∧
    (flapPenalty c s).events = s.events ∧ (flapPenalty c s).openChoices = s.openChoices := by
  simp [flapPenalty]

@[simp] theorem storeRemoval_frame (c : Cage) (x : List Byte) (s : State) :
    (storeRemoval c x s).pending = s.pending ∧ (storeRemoval c x s).startup = s.startup ∧
    (storeRemoval c x s).lines = s.lines ∧ (storeRemoval c x s).cages = s.cages ∧
    (storeRemoval c x s).claims = s.claims ∧ (storeRemoval c x s).peers = s.peers ∧
    (storeRemoval c x s).bus = s.bus ∧ (storeRemoval c x s).links = s.links ∧
    (storeRemoval c x s).scan = s.scan ∧ (storeRemoval c x s).service = s.service ∧
    (storeRemoval c x s).events = s.events ∧ (storeRemoval c x s).openChoices = s.openChoices := by
  simp [storeRemoval]

@[simp] theorem applyReseat_frame (c : Cage) (x : List Byte) (s : State) :
    (applyReseat c x s).pending = s.pending ∧ (applyReseat c x s).startup = s.startup ∧
    (applyReseat c x s).lines = s.lines ∧ (applyReseat c x s).cages = s.cages ∧
    (applyReseat c x s).claims = s.claims ∧ (applyReseat c x s).peers = s.peers ∧
    (applyReseat c x s).bus = s.bus ∧ (applyReseat c x s).links = s.links ∧
    (applyReseat c x s).scan = s.scan ∧ (applyReseat c x s).service = s.service ∧
    (applyReseat c x s).events = s.events ∧ (applyReseat c x s).openChoices = s.openChoices := by
  simp [applyReseat]

@[simp] theorem zeroPenalty_frame (c : Cage) (s : State) :
    (zeroPenalty c s).pending = s.pending ∧ (zeroPenalty c s).startup = s.startup ∧
    (zeroPenalty c s).lines = s.lines ∧ (zeroPenalty c s).cages = s.cages ∧
    (zeroPenalty c s).claims = s.claims ∧ (zeroPenalty c s).peers = s.peers ∧
    (zeroPenalty c s).bus = s.bus ∧ (zeroPenalty c s).links = s.links ∧
    (zeroPenalty c s).scan = s.scan ∧ (zeroPenalty c s).service = s.service ∧
    (zeroPenalty c s).events = s.events ∧ (zeroPenalty c s).openChoices = s.openChoices := by
  simp [zeroPenalty]

@[simp] theorem decayPenalties_frame (s : State) :
    (decayPenalties s).pending = s.pending ∧ (decayPenalties s).startup = s.startup ∧
    (decayPenalties s).lines = s.lines ∧ (decayPenalties s).cages = s.cages ∧
    (decayPenalties s).claims = s.claims ∧ (decayPenalties s).peers = s.peers ∧
    (decayPenalties s).bus = s.bus ∧ (decayPenalties s).links = s.links ∧
    (decayPenalties s).scan = s.scan ∧ (decayPenalties s).service = s.service ∧
    (decayPenalties s).events = s.events ∧ (decayPenalties s).openChoices = s.openChoices := by
  simp [decayPenalties]

@[simp] theorem queueFrame_frame (l : Nat) (b : FrameBody) (s : State) :
    (queueFrame l b s).pending = s.pending ∧ (queueFrame l b s).startup = s.startup ∧
    (queueFrame l b s).lines = s.lines ∧ (queueFrame l b s).cages = s.cages ∧
    (queueFrame l b s).claims = s.claims ∧ (queueFrame l b s).peers = s.peers ∧
    (queueFrame l b s).penalties = s.penalties ∧ (queueFrame l b s).links = s.links ∧
    (queueFrame l b s).scan = s.scan ∧ (queueFrame l b s).service = s.service ∧
    (queueFrame l b s).events = s.events ∧ (queueFrame l b s).openChoices = s.openChoices := by
  simp [queueFrame]

@[simp] theorem handReport_frame (c : Cage) (s : State) :
    (handReport c s).pending = s.pending ∧ (handReport c s).startup = s.startup ∧
    (handReport c s).lines = s.lines ∧ (handReport c s).cages = s.cages ∧
    (handReport c s).claims = s.claims ∧ (handReport c s).peers = s.peers ∧
    (handReport c s).penalties = s.penalties ∧ (handReport c s).links = s.links ∧
    (handReport c s).scan = s.scan ∧ (handReport c s).service = s.service ∧
    (handReport c s).events = s.events ∧ (handReport c s).openChoices = s.openChoices := by
  simp [handReport]

@[simp] theorem dueTest_frame (s : State) :
    (dueTest s).pending = s.pending ∧ (dueTest s).startup = s.startup ∧
    (dueTest s).lines = s.lines ∧ (dueTest s).cages = s.cages ∧ (dueTest s).peers = s.peers ∧
    (dueTest s).bus = s.bus ∧ (dueTest s).penalties = s.penalties ∧ (dueTest s).links = s.links ∧
    (dueTest s).scan = s.scan ∧ (dueTest s).service = s.service ∧ (dueTest s).events = s.events ∧
    (dueTest s).openChoices = s.openChoices := by
  simp [dueTest]

@[simp] theorem updIntent_frame (t : Tag) (f : OwnIntent → OwnIntent) (s : State) :
    (updIntent t f s).pending = s.pending ∧ (updIntent t f s).startup = s.startup ∧
    (updIntent t f s).lines = s.lines ∧ (updIntent t f s).cages = s.cages ∧
    (updIntent t f s).peers = s.peers ∧ (updIntent t f s).bus = s.bus ∧
    (updIntent t f s).penalties = s.penalties ∧ (updIntent t f s).links = s.links ∧
    (updIntent t f s).scan = s.scan ∧ (updIntent t f s).service = s.service ∧
    (updIntent t f s).events = s.events ∧ (updIntent t f s).openChoices = s.openChoices := by
  simp [updIntent]

@[simp] theorem dropIntent_frame (t : Tag) (s : State) :
    (dropIntent t s).pending = s.pending ∧ (dropIntent t s).startup = s.startup ∧
    (dropIntent t s).lines = s.lines ∧ (dropIntent t s).cages = s.cages ∧
    (dropIntent t s).peers = s.peers ∧ (dropIntent t s).bus = s.bus ∧
    (dropIntent t s).penalties = s.penalties ∧ (dropIntent t s).links = s.links ∧
    (dropIntent t s).scan = s.scan ∧ (dropIntent t s).service = s.service ∧
    (dropIntent t s).events = s.events ∧ (dropIntent t s).openChoices = s.openChoices := by
  simp [dropIntent]

@[simp] theorem setClaim_frame (c : Cage) (st : ClaimState) (s : State) :
    (setClaim c st s).pending = s.pending ∧ (setClaim c st s).startup = s.startup ∧
    (setClaim c st s).lines = s.lines ∧ (setClaim c st s).cages = s.cages ∧
    (setClaim c st s).peers = s.peers ∧ (setClaim c st s).bus = s.bus ∧
    (setClaim c st s).penalties = s.penalties ∧ (setClaim c st s).links = s.links ∧
    (setClaim c st s).scan = s.scan ∧ (setClaim c st s).service = s.service ∧
    (setClaim c st s).events = s.events ∧ (setClaim c st s).openChoices = s.openChoices := by
  simp [setClaim]

@[simp] theorem releaseClaim_frame (c : Cage) (s : State) :
    (releaseClaim c s).pending = s.pending ∧ (releaseClaim c s).startup = s.startup ∧
    (releaseClaim c s).lines = s.lines ∧ (releaseClaim c s).cages = s.cages ∧
    (releaseClaim c s).peers = s.peers ∧ (releaseClaim c s).penalties = s.penalties ∧
    (releaseClaim c s).links = s.links ∧ (releaseClaim c s).scan = s.scan ∧
    (releaseClaim c s).service = s.service ∧ (releaseClaim c s).events = s.events ∧
    (releaseClaim c s).openChoices = s.openChoices := by
  simp [releaseClaim]

@[simp] theorem releaseSent_frame (n : Nat) (s : State) :
    (releaseSent n s).pending = s.pending ∧ (releaseSent n s).startup = s.startup ∧
    (releaseSent n s).lines = s.lines ∧ (releaseSent n s).cages = s.cages ∧
    (releaseSent n s).peers = s.peers ∧ (releaseSent n s).penalties = s.penalties ∧
    (releaseSent n s).links = s.links ∧ (releaseSent n s).scan = s.scan ∧
    (releaseSent n s).service = s.service ∧ (releaseSent n s).events = s.events ∧
    (releaseSent n s).openChoices = s.openChoices := by
  unfold releaseSent; dsimp only; (repeat' split) <;> simp

@[simp] theorem adoptClaim_frame (c : Cage) (d : Nat) (s : State) :
    (adoptClaim c d s).pending = s.pending ∧ (adoptClaim c d s).startup = s.startup ∧
    (adoptClaim c d s).lines = s.lines ∧ (adoptClaim c d s).cages = s.cages ∧
    (adoptClaim c d s).peers = s.peers ∧ (adoptClaim c d s).bus = s.bus ∧
    (adoptClaim c d s).penalties = s.penalties ∧ (adoptClaim c d s).links = s.links ∧
    (adoptClaim c d s).scan = s.scan ∧ (adoptClaim c d s).service = s.service ∧
    (adoptClaim c d s).events = s.events ∧ (adoptClaim c d s).openChoices = s.openChoices := by
  simp [adoptClaim]

@[simp] theorem joinList_frame (c : Cage) (d : Nat) (s : State) :
    (joinList c d s).pending = s.pending ∧ (joinList c d s).startup = s.startup ∧
    (joinList c d s).lines = s.lines ∧ (joinList c d s).cages = s.cages ∧
    (joinList c d s).peers = s.peers ∧ (joinList c d s).bus = s.bus ∧
    (joinList c d s).penalties = s.penalties ∧ (joinList c d s).links = s.links ∧
    (joinList c d s).scan = s.scan ∧ (joinList c d s).service = s.service ∧
    (joinList c d s).events = s.events ∧ (joinList c d s).openChoices = s.openChoices := by
  simp [joinList]

@[simp] theorem leaveList_frame (c : Cage) (s : State) :
    (leaveList c s).pending = s.pending ∧ (leaveList c s).startup = s.startup ∧
    (leaveList c s).lines = s.lines ∧ (leaveList c s).cages = s.cages ∧
    (leaveList c s).peers = s.peers ∧ (leaveList c s).bus = s.bus ∧
    (leaveList c s).penalties = s.penalties ∧ (leaveList c s).links = s.links ∧
    (leaveList c s).scan = s.scan ∧ (leaveList c s).service = s.service ∧
    (leaveList c s).events = s.events ∧ (leaveList c s).openChoices = s.openChoices := by
  simp [leaveList]

@[simp] theorem queueIntent_frame (c : Cage) (s : State) :
    (queueIntent c s).pending = s.pending ∧ (queueIntent c s).startup = s.startup ∧
    (queueIntent c s).lines = s.lines ∧ (queueIntent c s).cages = s.cages ∧
    (queueIntent c s).peers = s.peers ∧ (queueIntent c s).penalties = s.penalties ∧
    (queueIntent c s).links = s.links ∧ (queueIntent c s).scan = s.scan ∧
    (queueIntent c s).service = s.service ∧ (queueIntent c s).events = s.events ∧
    (queueIntent c s).openChoices = s.openChoices := by
  simp [queueIntent]

@[simp] theorem cancelIntent_frame (e : OwnIntent) (s : State) :
    (cancelIntent e s).pending = s.pending ∧ (cancelIntent e s).startup = s.startup ∧
    (cancelIntent e s).lines = s.lines ∧ (cancelIntent e s).cages = s.cages ∧
    (cancelIntent e s).peers = s.peers ∧ (cancelIntent e s).penalties = s.penalties ∧
    (cancelIntent e s).links = s.links ∧ (cancelIntent e s).scan = s.scan ∧
    (cancelIntent e s).service = s.service ∧ (cancelIntent e s).events = s.events ∧
    (cancelIntent e s).openChoices = s.openChoices := by
  simp [cancelIntent]

@[simp] theorem abandonIntent_frame (e : OwnIntent) (s : State) :
    (abandonIntent e s).pending = s.pending ∧ (abandonIntent e s).startup = s.startup ∧
    (abandonIntent e s).lines = s.lines ∧ (abandonIntent e s).cages = s.cages ∧
    (abandonIntent e s).peers = s.peers ∧ (abandonIntent e s).penalties = s.penalties ∧
    (abandonIntent e s).links = s.links ∧ (abandonIntent e s).scan = s.scan ∧
    (abandonIntent e s).service = s.service ∧ (abandonIntent e s).events = s.events ∧
    (abandonIntent e s).openChoices = s.openChoices := by
  unfold abandonIntent; (repeat' split) <;> simp

@[simp] theorem disposeClaim_frame (c : Cage) (s : State) :
    (disposeClaim c s).pending = s.pending ∧ (disposeClaim c s).startup = s.startup ∧
    (disposeClaim c s).lines = s.lines ∧ (disposeClaim c s).cages = s.cages ∧
    (disposeClaim c s).peers = s.peers ∧ (disposeClaim c s).penalties = s.penalties ∧
    (disposeClaim c s).links = s.links ∧ (disposeClaim c s).scan = s.scan ∧
    (disposeClaim c s).service = s.service ∧ (disposeClaim c s).events = s.events ∧
    (disposeClaim c s).openChoices = s.openChoices := by
  unfold disposeClaim; (repeat' split) <;> simp

@[simp] theorem claimHandOff_frame (c : Cage) (a b : CageState) (s : State) :
    (claimHandOff c a b s).pending = s.pending ∧ (claimHandOff c a b s).startup = s.startup ∧
    (claimHandOff c a b s).lines = s.lines ∧ (claimHandOff c a b s).cages = s.cages ∧
    (claimHandOff c a b s).peers = s.peers ∧ (claimHandOff c a b s).penalties = s.penalties ∧
    (claimHandOff c a b s).links = s.links ∧ (claimHandOff c a b s).scan = s.scan ∧
    (claimHandOff c a b s).service = s.service ∧ (claimHandOff c a b s).events = s.events ∧
    (claimHandOff c a b s).openChoices = s.openChoices := by
  unfold claimHandOff; (repeat' split) <;> simp

@[simp] theorem tickPeers_frame (s : State) :
    (tickPeers s).pending = s.pending ∧ (tickPeers s).startup = s.startup ∧
    (tickPeers s).lines = s.lines ∧ (tickPeers s).cages = s.cages ∧
    (tickPeers s).claims = s.claims ∧ (tickPeers s).bus = s.bus ∧
    (tickPeers s).penalties = s.penalties ∧ (tickPeers s).links = s.links ∧
    (tickPeers s).scan = s.scan ∧ (tickPeers s).service = s.service ∧
    (tickPeers s).events = s.events ∧ (tickPeers s).openChoices = s.openChoices := by
  simp [tickPeers]

@[simp] theorem applyFrame_frame (f : Frame) (s : State) :
    (applyFrame f s).pending = s.pending ∧ (applyFrame f s).startup = s.startup ∧
    (applyFrame f s).lines = s.lines ∧ (applyFrame f s).cages = s.cages ∧
    (applyFrame f s).bus = s.bus ∧ (applyFrame f s).penalties = s.penalties ∧
    (applyFrame f s).links = s.links ∧ (applyFrame f s).scan = s.scan ∧
    (applyFrame f s).service = s.service ∧ (applyFrame f s).events = s.events ∧
    (applyFrame f s).openChoices = s.openChoices := by
  simp [applyFrame]

@[simp] theorem putRequest_frame (g : Seg) (x : Slot) (r : LinkRequest) (s : State) :
    (putRequest g x r s).pending = s.pending ∧ (putRequest g x r s).startup = s.startup ∧
    (putRequest g x r s).lines = s.lines ∧ (putRequest g x r s).cages = s.cages ∧
    (putRequest g x r s).claims = s.claims ∧ (putRequest g x r s).peers = s.peers ∧
    (putRequest g x r s).bus = s.bus ∧ (putRequest g x r s).penalties = s.penalties ∧
    (putRequest g x r s).scan = s.scan ∧ (putRequest g x r s).service = s.service ∧
    (putRequest g x r s).events = s.events ∧ (putRequest g x r s).openChoices = s.openChoices := by
  simp [putRequest]

@[simp] theorem clearSlot_frame (g : Seg) (x : Slot) (s : State) :
    (clearSlot g x s).pending = s.pending ∧ (clearSlot g x s).startup = s.startup ∧
    (clearSlot g x s).lines = s.lines ∧ (clearSlot g x s).cages = s.cages ∧
    (clearSlot g x s).claims = s.claims ∧ (clearSlot g x s).peers = s.peers ∧
    (clearSlot g x s).bus = s.bus ∧ (clearSlot g x s).penalties = s.penalties ∧
    (clearSlot g x s).scan = s.scan ∧ (clearSlot g x s).service = s.service ∧
    (clearSlot g x s).events = s.events ∧ (clearSlot g x s).openChoices = s.openChoices := by
  simp [clearSlot]

@[simp] theorem withdrawCrs_frame (c : Cage) (s : State) :
    (withdrawCrs c s).pending = s.pending ∧ (withdrawCrs c s).startup = s.startup ∧
    (withdrawCrs c s).lines = s.lines ∧ (withdrawCrs c s).cages = s.cages ∧
    (withdrawCrs c s).claims = s.claims ∧ (withdrawCrs c s).peers = s.peers ∧
    (withdrawCrs c s).bus = s.bus ∧ (withdrawCrs c s).penalties = s.penalties ∧
    (withdrawCrs c s).scan = s.scan ∧ (withdrawCrs c s).service = s.service ∧
    (withdrawCrs c s).events = s.events ∧ (withdrawCrs c s).openChoices = s.openChoices := by
  unfold withdrawCrs; (repeat' split) <;> simp

@[simp] theorem grantSegment_frame (g : Seg) (s : State) :
    (grantSegment g s).pending = s.pending ∧ (grantSegment g s).startup = s.startup ∧
    (grantSegment g s).lines = s.lines ∧ (grantSegment g s).cages = s.cages ∧
    (grantSegment g s).claims = s.claims ∧ (grantSegment g s).peers = s.peers ∧
    (grantSegment g s).bus = s.bus ∧ (grantSegment g s).penalties = s.penalties ∧
    (grantSegment g s).scan = s.scan ∧ (grantSegment g s).service = s.service ∧
    (grantSegment g s).events = s.events ∧ (grantSegment g s).openChoices = s.openChoices := by
  unfold grantSegment; dsimp only; (repeat' split) <;> simp

@[simp] theorem presentScan_frame (g : Seg) (cur : Cursor) (s : State) :
    (presentScan g cur s).pending = s.pending ∧ (presentScan g cur s).startup = s.startup ∧
    (presentScan g cur s).lines = s.lines ∧ (presentScan g cur s).cages = s.cages ∧
    (presentScan g cur s).claims = s.claims ∧ (presentScan g cur s).peers = s.peers ∧
    (presentScan g cur s).bus = s.bus ∧ (presentScan g cur s).penalties = s.penalties ∧
    (presentScan g cur s).service = s.service ∧ (presentScan g cur s).events = s.events ∧
    (presentScan g cur s).openChoices = s.openChoices := by
  unfold presentScan; (repeat' split) <;> simp

@[simp] theorem startSlot_frame (g : Seg) (s : State) :
    (startSlot g s).pending = s.pending ∧ (startSlot g s).startup = s.startup ∧
    (startSlot g s).lines = s.lines ∧ (startSlot g s).cages = s.cages ∧
    (startSlot g s).claims = s.claims ∧ (startSlot g s).peers = s.peers ∧
    (startSlot g s).bus = s.bus ∧ (startSlot g s).penalties = s.penalties ∧
    (startSlot g s).service = s.service ∧ (startSlot g s).events = s.events ∧
    (startSlot g s).openChoices = s.openChoices := by
  unfold startSlot; dsimp only; (repeat' split) <;> simp

@[simp] theorem discardScan_frame (g : Seg) (s : State) :
    (discardScan g s).pending = s.pending ∧ (discardScan g s).startup = s.startup ∧
    (discardScan g s).lines = s.lines ∧ (discardScan g s).cages = s.cages ∧
    (discardScan g s).claims = s.claims ∧ (discardScan g s).peers = s.peers ∧
    (discardScan g s).bus = s.bus ∧ (discardScan g s).penalties = s.penalties ∧
    (discardScan g s).service = s.service ∧ (discardScan g s).events = s.events ∧
    (discardScan g s).openChoices = s.openChoices := by
  unfold discardScan; (repeat' split) <;> simp

@[simp] theorem dropScanOf_frame (c : Cage) (s : State) :
    (dropScanOf c s).pending = s.pending ∧ (dropScanOf c s).startup = s.startup ∧
    (dropScanOf c s).lines = s.lines ∧ (dropScanOf c s).cages = s.cages ∧
    (dropScanOf c s).claims = s.claims ∧ (dropScanOf c s).peers = s.peers ∧
    (dropScanOf c s).bus = s.bus ∧ (dropScanOf c s).penalties = s.penalties ∧
    (dropScanOf c s).service = s.service ∧ (dropScanOf c s).events = s.events ∧
    (dropScanOf c s).openChoices = s.openChoices := by
  unfold dropScanOf; (repeat' split) <;> simp

@[simp] theorem clearWindows_frame (c : Cage) (s : State) :
    (clearWindows c s).pending = s.pending ∧ (clearWindows c s).startup = s.startup ∧
    (clearWindows c s).lines = s.lines ∧ (clearWindows c s).cages = s.cages ∧
    (clearWindows c s).claims = s.claims ∧ (clearWindows c s).peers = s.peers ∧
    (clearWindows c s).bus = s.bus ∧ (clearWindows c s).penalties = s.penalties ∧
    (clearWindows c s).service = s.service ∧ (clearWindows c s).events = s.events ∧
    (clearWindows c s).openChoices = s.openChoices := by
  simp [clearWindows]

@[simp] theorem dropSample_frame (c : Cage) (s : State) :
    (dropSample c s).pending = s.pending ∧ (dropSample c s).startup = s.startup ∧
    (dropSample c s).lines = s.lines ∧ (dropSample c s).cages = s.cages ∧
    (dropSample c s).claims = s.claims ∧ (dropSample c s).peers = s.peers ∧
    (dropSample c s).bus = s.bus ∧ (dropSample c s).penalties = s.penalties ∧
    (dropSample c s).links = s.links ∧ (dropSample c s).service = s.service ∧
    (dropSample c s).events = s.events ∧ (dropSample c s).openChoices = s.openChoices := by
  simp [dropSample]

@[simp] theorem keepSample_frame (c : Cage) (n : Nat) (b : List Byte) (s : State) :
    (keepSample c n b s).pending = s.pending ∧ (keepSample c n b s).startup = s.startup ∧
    (keepSample c n b s).lines = s.lines ∧ (keepSample c n b s).cages = s.cages ∧
    (keepSample c n b s).claims = s.claims ∧ (keepSample c n b s).peers = s.peers ∧
    (keepSample c n b s).bus = s.bus ∧ (keepSample c n b s).penalties = s.penalties ∧
    (keepSample c n b s).links = s.links ∧ (keepSample c n b s).service = s.service ∧
    (keepSample c n b s).events = s.events ∧ (keepSample c n b s).openChoices = s.openChoices := by
  simp [keepSample]

@[simp] theorem fillWindows_frame (c : Cage) (n : Nat) (b : List Byte) (s : State) :
    (fillWindows c n b s).pending = s.pending ∧ (fillWindows c n b s).startup = s.startup ∧
    (fillWindows c n b s).lines = s.lines ∧ (fillWindows c n b s).cages = s.cages ∧
    (fillWindows c n b s).claims = s.claims ∧ (fillWindows c n b s).peers = s.peers ∧
    (fillWindows c n b s).bus = s.bus ∧ (fillWindows c n b s).penalties = s.penalties ∧
    (fillWindows c n b s).links = s.links ∧ (fillWindows c n b s).service = s.service ∧
    (fillWindows c n b s).events = s.events ∧
    (fillWindows c n b s).openChoices = s.openChoices := by
  simp [fillWindows]

@[simp] theorem convertChannel_frame (c : Cage) (x : BitVec 10) (s : State) :
    (convertChannel c x s).pending = s.pending ∧ (convertChannel c x s).startup = s.startup ∧
    (convertChannel c x s).lines = s.lines ∧ (convertChannel c x s).cages = s.cages ∧
    (convertChannel c x s).claims = s.claims ∧ (convertChannel c x s).peers = s.peers ∧
    (convertChannel c x s).bus = s.bus ∧ (convertChannel c x s).penalties = s.penalties ∧
    (convertChannel c x s).links = s.links ∧ (convertChannel c x s).service = s.service ∧
    (convertChannel c x s).events = s.events ∧
    (convertChannel c x s).openChoices = s.openChoices := by
  simp [convertChannel]

@[simp] theorem ask_frame (c : Cage) (k : CrsKind) (v : Byte) (s : State) :
    (ask c k v s).pending = s.pending ∧ (ask c k v s).startup = s.startup ∧
    (ask c k v s).lines = s.lines ∧ (ask c k v s).claims = s.claims ∧
    (ask c k v s).peers = s.peers ∧ (ask c k v s).bus = s.bus ∧
    (ask c k v s).penalties = s.penalties ∧ (ask c k v s).links = s.links ∧
    (ask c k v s).scan = s.scan ∧ (ask c k v s).service = s.service ∧
    (ask c k v s).events = s.events ∧ (ask c k v s).openChoices = s.openChoices := by
  simp [ask]

@[simp] theorem askPoll_frame (c : Cage) (s : State) :
    (askPoll c s).pending = s.pending ∧ (askPoll c s).startup = s.startup ∧
    (askPoll c s).lines = s.lines ∧ (askPoll c s).claims = s.claims ∧
    (askPoll c s).peers = s.peers ∧ (askPoll c s).bus = s.bus ∧
    (askPoll c s).penalties = s.penalties ∧ (askPoll c s).links = s.links ∧
    (askPoll c s).scan = s.scan ∧ (askPoll c s).service = s.service ∧
    (askPoll c s).events = s.events ∧ (askPoll c s).openChoices = s.openChoices := by
  unfold askPoll; (repeat' split) <;> simp

@[simp] theorem emptyRequests_frame (c : Cage) (s : State) :
    (emptyRequests c s).pending = s.pending ∧ (emptyRequests c s).startup = s.startup ∧
    (emptyRequests c s).lines = s.lines ∧ (emptyRequests c s).claims = s.claims ∧
    (emptyRequests c s).peers = s.peers ∧ (emptyRequests c s).bus = s.bus ∧
    (emptyRequests c s).penalties = s.penalties ∧ (emptyRequests c s).scan = s.scan ∧
    (emptyRequests c s).service = s.service ∧ (emptyRequests c s).events = s.events ∧
    (emptyRequests c s).openChoices = s.openChoices := by
  simp [emptyRequests]

@[simp] theorem wantTx_frame (c : Cage) (v : Byte) (s : State) :
    (wantTx c v s).pending = s.pending ∧ (wantTx c v s).startup = s.startup ∧
    (wantTx c v s).lines = s.lines ∧ (wantTx c v s).claims = s.claims ∧
    (wantTx c v s).peers = s.peers ∧ (wantTx c v s).bus = s.bus ∧
    (wantTx c v s).penalties = s.penalties ∧ (wantTx c v s).links = s.links ∧
    (wantTx c v s).scan = s.scan ∧ (wantTx c v s).service = s.service ∧
    (wantTx c v s).events = s.events ∧ (wantTx c v s).openChoices = s.openChoices := by
  simp [wantTx]

@[simp] theorem moveCage_frame (c : Cage) (st : CageState) (q : FaultCause) (s : State) :
    (moveCage c st q s).pending = s.pending ∧ (moveCage c st q s).startup = s.startup ∧
    (moveCage c st q s).peers = s.peers ∧ (moveCage c st q s).penalties = s.penalties ∧
    (moveCage c st q s).service = s.service ∧ (moveCage c st q s).events = s.events ∧
    (moveCage c st q s).openChoices = s.openChoices := by
  unfold moveCage; dsimp only; (repeat' split) <;> simp

@[simp] theorem enterIdentify_frame (c : Cage) (s : State) :
    (enterIdentify c s).pending = s.pending ∧ (enterIdentify c s).startup = s.startup ∧
    (enterIdentify c s).peers = s.peers ∧ (enterIdentify c s).penalties = s.penalties ∧
    (enterIdentify c s).service = s.service ∧ (enterIdentify c s).events = s.events ∧
    (enterIdentify c s).openChoices = s.openChoices := by
  simp [enterIdentify]

@[simp] theorem enterFaulted_frame (c : Cage) (q : FaultCause) (s : State) :
    (enterFaulted c q s).pending = s.pending ∧ (enterFaulted c q s).startup = s.startup ∧
    (enterFaulted c q s).peers = s.peers ∧ (enterFaulted c q s).penalties = s.penalties ∧
    (enterFaulted c q s).service = s.service ∧
    (enterFaulted c q s).openChoices = s.openChoices := by
  simp [enterFaulted]

@[simp] theorem startSettling_frame (c : Cage) (s : State) :
    (startSettling c s).pending = s.pending ∧ (startSettling c s).startup = s.startup ∧
    (startSettling c s).lines = s.lines ∧ (startSettling c s).claims = s.claims ∧
    (startSettling c s).peers = s.peers ∧ (startSettling c s).bus = s.bus ∧
    (startSettling c s).penalties = s.penalties ∧ (startSettling c s).service = s.service ∧
    (startSettling c s).events = s.events ∧ (startSettling c s).openChoices = s.openChoices := by
  simp [startSettling]

@[simp] theorem enterLightSettle_frame (c : Cage) (s : State) :
    (enterLightSettle c s).pending = s.pending ∧ (enterLightSettle c s).startup = s.startup ∧
    (enterLightSettle c s).peers = s.peers ∧ (enterLightSettle c s).penalties = s.penalties ∧
    (enterLightSettle c s).service = s.service ∧ (enterLightSettle c s).events = s.events ∧
    (enterLightSettle c s).openChoices = s.openChoices := by
  simp [enterLightSettle]

@[simp] theorem zeroRetries_frame (c : Cage) (s : State) :
    (zeroRetries c s).pending = s.pending ∧ (zeroRetries c s).startup = s.startup ∧
    (zeroRetries c s).lines = s.lines ∧ (zeroRetries c s).claims = s.claims ∧
    (zeroRetries c s).peers = s.peers ∧ (zeroRetries c s).bus = s.bus ∧
    (zeroRetries c s).penalties = s.penalties ∧ (zeroRetries c s).links = s.links ∧
    (zeroRetries c s).scan = s.scan ∧ (zeroRetries c s).service = s.service ∧
    (zeroRetries c s).events = s.events ∧ (zeroRetries c s).openChoices = s.openChoices := by
  simp [zeroRetries]

@[simp] theorem enterRelight_frame (c : Cage) (s : State) :
    (enterRelight c s).pending = s.pending ∧ (enterRelight c s).startup = s.startup ∧
    (enterRelight c s).peers = s.peers ∧ (enterRelight c s).penalties = s.penalties ∧
    (enterRelight c s).service = s.service ∧ (enterRelight c s).events = s.events ∧
    (enterRelight c s).openChoices = s.openChoices := by
  simp [enterRelight]

@[simp] theorem enterHoldDown_frame (c : Cage) (s : State) :
    (enterHoldDown c s).pending = s.pending ∧ (enterHoldDown c s).startup = s.startup ∧
    (enterHoldDown c s).peers = s.peers ∧ (enterHoldDown c s).penalties = s.penalties ∧
    (enterHoldDown c s).service = s.service ∧ (enterHoldDown c s).events = s.events ∧
    (enterHoldDown c s).openChoices = s.openChoices := by
  simp [enterHoldDown]

@[simp] theorem enterTrain_frame (c : Cage) (r : Bool) (s : State) :
    (enterTrain c r s).pending = s.pending ∧ (enterTrain c r s).startup = s.startup ∧
    (enterTrain c r s).peers = s.peers ∧ (enterTrain c r s).penalties = s.penalties ∧
    (enterTrain c r s).service = s.service ∧ (enterTrain c r s).events = s.events ∧
    (enterTrain c r s).openChoices = s.openChoices := by
  unfold enterTrain; dsimp only; (repeat' split) <;> simp

@[simp] theorem enterTrainAfresh_frame (c : Cage) (s : State) :
    (enterTrainAfresh c s).pending = s.pending ∧ (enterTrainAfresh c s).startup = s.startup ∧
    (enterTrainAfresh c s).peers = s.peers ∧ (enterTrainAfresh c s).penalties = s.penalties ∧
    (enterTrainAfresh c s).service = s.service ∧ (enterTrainAfresh c s).events = s.events ∧
    (enterTrainAfresh c s).openChoices = s.openChoices := by
  simp [enterTrainAfresh]

@[simp] theorem trainingRetry_frame (c : Cage) (r : Bool) (s : State) :
    (trainingRetry c r s).pending = s.pending ∧ (trainingRetry c r s).startup = s.startup ∧
    (trainingRetry c r s).peers = s.peers ∧ (trainingRetry c r s).penalties = s.penalties ∧
    (trainingRetry c r s).service = s.service ∧
    (trainingRetry c r s).openChoices = s.openChoices := by
  unfold trainingRetry; dsimp only; (repeat' split) <;> simp

@[simp] theorem takeFlap_frame (c : Cage) (s : State) :
    (takeFlap c s).pending = s.pending ∧ (takeFlap c s).startup = s.startup ∧
    (takeFlap c s).peers = s.peers ∧ (takeFlap c s).service = s.service ∧
    (takeFlap c s).openChoices = s.openChoices := by
  unfold takeFlap; dsimp only; (repeat' split) <;> simp

@[simp] theorem observe_frame (c : Cage) (o : Observation) (s : State) :
    (observe c o s).pending = s.pending ∧ (observe c o s).startup = s.startup ∧
    (observe c o s).peers = s.peers ∧ (observe c o s).service = s.service ∧
    (observe c o s).openChoices = s.openChoices := by
  unfold observe; dsimp only; (repeat' split) <;> simp

@[simp] theorem settlePair_frame (c : Cage) (s : State) :
    (settlePair c s).pending = s.pending ∧ (settlePair c s).startup = s.startup ∧
    (settlePair c s).peers = s.peers ∧ (settlePair c s).penalties = s.penalties ∧
    (settlePair c s).service = s.service ∧ (settlePair c s).events = s.events ∧
    (settlePair c s).openChoices = s.openChoices := by
  unfold settlePair; dsimp only; (repeat' split) <;> simp

@[simp] theorem takeLaneVerdict_frame (c : Cage) (v : Bool) (s : State) :
    (takeLaneVerdict c v s).pending = s.pending ∧ (takeLaneVerdict c v s).startup = s.startup ∧
    (takeLaneVerdict c v s).peers = s.peers ∧ (takeLaneVerdict c v s).penalties = s.penalties ∧
    (takeLaneVerdict c v s).service = s.service ∧ (takeLaneVerdict c v s).events = s.events ∧
    (takeLaneVerdict c v s).openChoices = s.openChoices := by
  unfold takeLaneVerdict; (repeat' split) <;> simp

@[simp] theorem takeSettledVerdict_frame (c : Cage) (v : Bool) (s : State) :
    (takeSettledVerdict c v s).pending = s.pending ∧
    (takeSettledVerdict c v s).startup = s.startup ∧ (takeSettledVerdict c v s).peers = s.peers ∧
    (takeSettledVerdict c v s).penalties = s.penalties ∧
    (takeSettledVerdict c v s).service = s.service ∧
    (takeSettledVerdict c v s).events = s.events ∧
    (takeSettledVerdict c v s).openChoices = s.openChoices := by
  unfold takeSettledVerdict; (repeat' split) <;> simp

@[simp] theorem takeOverdraw_frame (c : Cage) (s : State) :
    (takeOverdraw c s).pending = s.pending ∧ (takeOverdraw c s).startup = s.startup ∧
    (takeOverdraw c s).peers = s.peers ∧ (takeOverdraw c s).penalties = s.penalties ∧
    (takeOverdraw c s).service = s.service ∧ (takeOverdraw c s).openChoices = s.openChoices := by
  unfold takeOverdraw; (repeat' split) <;> simp

@[simp] theorem takeReuse_frame (c : Cage) (s : State) :
    (takeReuse c s).pending = s.pending ∧ (takeReuse c s).startup = s.startup ∧
    (takeReuse c s).peers = s.peers ∧ (takeReuse c s).penalties = s.penalties ∧
    (takeReuse c s).service = s.service ∧ (takeReuse c s).events = s.events ∧
    (takeReuse c s).openChoices = s.openChoices := by
  unfold takeReuse; (repeat' split) <;> simp

@[simp] theorem presentAsserted_frame (c : Cage) (s : State) :
    (presentAsserted c s).pending = s.pending ∧ (presentAsserted c s).startup = s.startup ∧
    (presentAsserted c s).peers = s.peers ∧ (presentAsserted c s).penalties = s.penalties ∧
    (presentAsserted c s).service = s.service ∧ (presentAsserted c s).events = s.events ∧
    (presentAsserted c s).openChoices = s.openChoices := by
  unfold presentAsserted; (repeat' split) <;> simp

@[simp] theorem handSerial_frame (c : Cage) (s : State) :
    (handSerial c s).pending = s.pending ∧ (handSerial c s).startup = s.startup ∧
    (handSerial c s).lines = s.lines ∧ (handSerial c s).cages = s.cages ∧
    (handSerial c s).claims = s.claims ∧ (handSerial c s).peers = s.peers ∧
    (handSerial c s).bus = s.bus ∧ (handSerial c s).links = s.links ∧
    (handSerial c s).scan = s.scan ∧ (handSerial c s).service = s.service ∧
    (handSerial c s).events = s.events ∧ (handSerial c s).openChoices = s.openChoices := by
  unfold handSerial; (repeat' split) <;> simp

@[simp] theorem removeModule_frame (c : Cage) (s : State) :
    (removeModule c s).pending = s.pending ∧ (removeModule c s).startup = s.startup ∧
    (removeModule c s).peers = s.peers ∧ (removeModule c s).service = s.service ∧
    (removeModule c s).openChoices = s.openChoices := by
  unfold removeModule; dsimp only; (repeat' split) <;> simp

@[simp] theorem removeHeld_frame (c : Cage) (s : State) :
    (removeHeld c s).pending = s.pending ∧ (removeHeld c s).startup = s.startup ∧
    (removeHeld c s).lines = s.lines ∧ (removeHeld c s).claims = s.claims ∧
    (removeHeld c s).peers = s.peers ∧ (removeHeld c s).bus = s.bus ∧
    (removeHeld c s).links = s.links ∧ (removeHeld c s).service = s.service ∧
    (removeHeld c s).openChoices = s.openChoices := by
  simp [removeHeld]

@[simp] theorem presentDeasserted_frame (c : Cage) (s : State) :
    (presentDeasserted c s).pending = s.pending ∧ (presentDeasserted c s).startup = s.startup ∧
    (presentDeasserted c s).peers = s.peers ∧ (presentDeasserted c s).service = s.service ∧
    (presentDeasserted c s).openChoices = s.openChoices := by
  unfold presentDeasserted; (repeat' split) <;> simp

@[simp] theorem linkAsserted_frame (c : Cage) (s : State) :
    (linkAsserted c s).pending = s.pending ∧ (linkAsserted c s).startup = s.startup ∧
    (linkAsserted c s).peers = s.peers ∧ (linkAsserted c s).penalties = s.penalties ∧
    (linkAsserted c s).service = s.service ∧ (linkAsserted c s).events = s.events ∧
    (linkAsserted c s).openChoices = s.openChoices := by
  unfold linkAsserted; (repeat' split) <;> simp

@[simp] theorem linkDeasserted_frame (c : Cage) (s : State) :
    (linkDeasserted c s).pending = s.pending ∧ (linkDeasserted c s).startup = s.startup ∧
    (linkDeasserted c s).peers = s.peers ∧ (linkDeasserted c s).service = s.service ∧
    (linkDeasserted c s).openChoices = s.openChoices := by
  unfold linkDeasserted; (repeat' split) <;> simp

@[simp] theorem takeAlert_frame (c : Cage) (s : State) :
    (takeAlert c s).pending = s.pending ∧ (takeAlert c s).startup = s.startup ∧
    (takeAlert c s).lines = s.lines ∧ (takeAlert c s).claims = s.claims ∧
    (takeAlert c s).peers = s.peers ∧ (takeAlert c s).bus = s.bus ∧
    (takeAlert c s).penalties = s.penalties ∧ (takeAlert c s).links = s.links ∧
    (takeAlert c s).scan = s.scan ∧ (takeAlert c s).service = s.service ∧
    (takeAlert c s).events = s.events ∧ (takeAlert c s).openChoices = s.openChoices := by
  unfold takeAlert; (repeat' split) <;> simp

@[simp] theorem sequencerReport_frame (c : Cage) (s : State) :
    (sequencerReport c s).pending = s.pending ∧ (sequencerReport c s).startup = s.startup ∧
    (sequencerReport c s).lines = s.lines ∧ (sequencerReport c s).claims = s.claims ∧
    (sequencerReport c s).peers = s.peers ∧ (sequencerReport c s).bus = s.bus ∧
    (sequencerReport c s).penalties = s.penalties ∧ (sequencerReport c s).links = s.links ∧
    (sequencerReport c s).scan = s.scan ∧ (sequencerReport c s).service = s.service ∧
    (sequencerReport c s).events = s.events ∧
    (sequencerReport c s).openChoices = s.openChoices := by
  unfold sequencerReport; dsimp only; (repeat' split) <;> simp

@[simp] theorem readIdentity_frame (c : Cage) (s : State) :
    (readIdentity c s).pending = s.pending ∧ (readIdentity c s).startup = s.startup ∧
    (readIdentity c s).lines = s.lines ∧ (readIdentity c s).claims = s.claims ∧
    (readIdentity c s).peers = s.peers ∧ (readIdentity c s).bus = s.bus ∧
    (readIdentity c s).penalties = s.penalties ∧ (readIdentity c s).links = s.links ∧
    (readIdentity c s).scan = s.scan ∧ (readIdentity c s).service = s.service ∧
    (readIdentity c s).events = s.events ∧ (readIdentity c s).openChoices = s.openChoices := by
  simp [readIdentity]

@[simp] theorem keepIdentity_frame (c : Cage) (x : Identity) (s : State) :
    (keepIdentity c x s).pending = s.pending ∧ (keepIdentity c x s).startup = s.startup ∧
    (keepIdentity c x s).lines = s.lines ∧ (keepIdentity c x s).claims = s.claims ∧
    (keepIdentity c x s).peers = s.peers ∧ (keepIdentity c x s).bus = s.bus ∧
    (keepIdentity c x s).penalties = s.penalties ∧ (keepIdentity c x s).links = s.links ∧
    (keepIdentity c x s).scan = s.scan ∧ (keepIdentity c x s).service = s.service ∧
    (keepIdentity c x s).events = s.events ∧ (keepIdentity c x s).openChoices = s.openChoices := by
  simp [keepIdentity]

@[simp] theorem judgeContent_frame (c : Cage) (b : List Byte) (s : State) :
    (judgeContent c b s).pending = s.pending ∧ (judgeContent c b s).startup = s.startup ∧
    (judgeContent c b s).peers = s.peers ∧ (judgeContent c b s).service = s.service ∧
    (judgeContent c b s).openChoices = s.openChoices := by
  unfold judgeContent; dsimp only; (repeat' split) <;> simp

@[simp] theorem identityFailed_frame (c : Cage) (q : FaultCause) (s : State) :
    (identityFailed c q s).pending = s.pending ∧ (identityFailed c q s).startup = s.startup ∧
    (identityFailed c q s).peers = s.peers ∧ (identityFailed c q s).penalties = s.penalties ∧
    (identityFailed c q s).service = s.service ∧
    (identityFailed c q s).openChoices = s.openChoices := by
  unfold identityFailed; (repeat' split) <;> simp

@[simp] theorem identityEnds_frame (c : Cage) (x : LinkOutcome) (s : State) :
    (identityEnds c x s).pending = s.pending ∧ (identityEnds c x s).startup = s.startup ∧
    (identityEnds c x s).peers = s.peers ∧ (identityEnds c x s).service = s.service ∧
    (identityEnds c x s).openChoices = s.openChoices := by
  unfold identityEnds; (repeat' split) <;> simp

@[simp] theorem handAdopted_frame (c : Cage) (s : State) :
    (handAdopted c s).pending = s.pending ∧ (handAdopted c s).startup = s.startup ∧
    (handAdopted c s).lines = s.lines ∧ (handAdopted c s).cages = s.cages ∧
    (handAdopted c s).claims = s.claims ∧ (handAdopted c s).peers = s.peers ∧
    (handAdopted c s).bus = s.bus ∧ (handAdopted c s).penalties = s.penalties ∧
    (handAdopted c s).links = s.links ∧ (handAdopted c s).scan = s.scan ∧
    (handAdopted c s).service = s.service ∧ (handAdopted c s).openChoices = s.openChoices := by
  simp [handAdopted]

@[simp] theorem placeAdopted_frame (c : Cage) (b : List Byte) (s : State) :
    (placeAdopted c b s).pending = s.pending ∧ (placeAdopted c b s).startup = s.startup ∧
    (placeAdopted c b s).peers = s.peers ∧ (placeAdopted c b s).penalties = s.penalties ∧
    (placeAdopted c b s).service = s.service ∧
    (placeAdopted c b s).openChoices = s.openChoices := by
  unfold placeAdopted; dsimp only; (repeat' split) <;> simp

@[simp] theorem adoptionFailed_frame (c : Cage) (s : State) :
    (adoptionFailed c s).pending = s.pending ∧ (adoptionFailed c s).startup = s.startup ∧
    (adoptionFailed c s).peers = s.peers ∧ (adoptionFailed c s).penalties = s.penalties ∧
    (adoptionFailed c s).service = s.service ∧
    (adoptionFailed c s).openChoices = s.openChoices := by
  unfold adoptionFailed; (repeat' split) <;> simp

@[simp] theorem adoptionEnds_frame (c : Cage) (x : LinkOutcome) (s : State) :
    (adoptionEnds c x s).pending = s.pending ∧ (adoptionEnds c x s).startup = s.startup ∧
    (adoptionEnds c x s).peers = s.peers ∧ (adoptionEnds c x s).penalties = s.penalties ∧
    (adoptionEnds c x s).service = s.service ∧
    (adoptionEnds c x s).openChoices = s.openChoices := by
  unfold adoptionEnds; (repeat' split) <;> simp

@[simp] theorem examineAdopted_frame (c : Cage) (s : State) :
    (examineAdopted c s).pending = s.pending ∧ (examineAdopted c s).startup = s.startup ∧
    (examineAdopted c s).peers = s.peers ∧ (examineAdopted c s).penalties = s.penalties ∧
    (examineAdopted c s).service = s.service ∧
    (examineAdopted c s).openChoices = s.openChoices := by
  unfold examineAdopted; (repeat' split) <;> simp

@[simp] theorem countFailure_frame (c : Cage) (g : Bool) (s : State) :
    (countFailure c g s).pending = s.pending ∧ (countFailure c g s).startup = s.startup ∧
    (countFailure c g s).peers = s.peers ∧ (countFailure c g s).penalties = s.penalties ∧
    (countFailure c g s).service = s.service ∧
    (countFailure c g s).openChoices = s.openChoices := by
  unfold countFailure; dsimp only; (repeat' split) <;> simp

@[simp] theorem actOnIdentity_frame (c : Cage) (x : LinkOutcome) (s : State) :
    (actOnIdentity c x s).pending = s.pending ∧ (actOnIdentity c x s).startup = s.startup ∧
    (actOnIdentity c x s).peers = s.peers ∧ (actOnIdentity c x s).service = s.service ∧
    (actOnIdentity c x s).openChoices = s.openChoices := by
  unfold actOnIdentity; (repeat' split) <;> simp

@[simp] theorem actOnStatus_frame (c : Cage) (x : LinkOutcome) (s : State) :
    (actOnStatus c x s).pending = s.pending ∧ (actOnStatus c x s).startup = s.startup ∧
    (actOnStatus c x s).peers = s.peers ∧ (actOnStatus c x s).service = s.service ∧
    (actOnStatus c x s).openChoices = s.openChoices := by
  unfold actOnStatus; (repeat' split) <;> simp

@[simp] theorem retryTx_frame (c : Cage) (v : Byte) (s : State) :
    (retryTx c v s).pending = s.pending ∧ (retryTx c v s).startup = s.startup ∧
    (retryTx c v s).lines = s.lines ∧ (retryTx c v s).claims = s.claims ∧
    (retryTx c v s).peers = s.peers ∧ (retryTx c v s).bus = s.bus ∧
    (retryTx c v s).penalties = s.penalties ∧ (retryTx c v s).links = s.links ∧
    (retryTx c v s).scan = s.scan ∧ (retryTx c v s).service = s.service ∧
    (retryTx c v s).events = s.events ∧ (retryTx c v s).openChoices = s.openChoices := by
  unfold retryTx; dsimp only; (repeat' split) <;> simp

@[simp] theorem retryRestart_frame (c : Cage) (q : CrsRequest) (s : State) :
    (retryRestart c q s).pending = s.pending ∧ (retryRestart c q s).startup = s.startup ∧
    (retryRestart c q s).lines = s.lines ∧ (retryRestart c q s).claims = s.claims ∧
    (retryRestart c q s).peers = s.peers ∧ (retryRestart c q s).bus = s.bus ∧
    (retryRestart c q s).penalties = s.penalties ∧ (retryRestart c q s).links = s.links ∧
    (retryRestart c q s).scan = s.scan ∧ (retryRestart c q s).service = s.service ∧
    (retryRestart c q s).events = s.events ∧ (retryRestart c q s).openChoices = s.openChoices := by
  unfold retryRestart; dsimp only; (repeat' split) <;> simp

@[simp] theorem actOnOutcome_frame (c : Cage) (q : CrsRequest) (x : LinkOutcome) (s : State) :
    (actOnOutcome c q x s).pending = s.pending ∧ (actOnOutcome c q x s).startup = s.startup ∧
    (actOnOutcome c q x s).peers = s.peers ∧ (actOnOutcome c q x s).service = s.service ∧
    (actOnOutcome c q x s).openChoices = s.openChoices := by
  unfold actOnOutcome; dsimp only; (repeat' split) <;> simp

@[simp] theorem crsOutcome_frame (c : Cage) (q : CrsRequest) (d : Bool) (x : LinkOutcome) (s : State) :
    (crsOutcome c q d x s).pending = s.pending ∧ (crsOutcome c q d x s).startup = s.startup ∧
    (crsOutcome c q d x s).peers = s.peers ∧ (crsOutcome c q d x s).service = s.service ∧
    (crsOutcome c q d x s).openChoices = s.openChoices := by
  unfold crsOutcome; (repeat' split) <;> simp

@[simp] theorem clearPenaltyOf_frame (c : Cage) (s : State) :
    (clearPenaltyOf c s).pending = s.pending ∧ (clearPenaltyOf c s).startup = s.startup ∧
    (clearPenaltyOf c s).peers = s.peers ∧ (clearPenaltyOf c s).service = s.service ∧
    (clearPenaltyOf c s).events = s.events ∧ (clearPenaltyOf c s).openChoices = s.openChoices := by
  unfold clearPenaltyOf; dsimp only; (repeat' split) <;> simp

@[simp] theorem debounceEnds_frame (c : Cage) (s : State) :
    (debounceEnds c s).pending = s.pending ∧ (debounceEnds c s).startup = s.startup ∧
    (debounceEnds c s).peers = s.peers ∧ (debounceEnds c s).penalties = s.penalties ∧
    (debounceEnds c s).service = s.service ∧ (debounceEnds c s).openChoices = s.openChoices := by
  simp [debounceEnds]

@[simp] theorem initWaitEnds_frame (s : State) (c : Cage) :
    (initWaitEnds s c).pending = s.pending ∧ (initWaitEnds s c).startup = s.startup ∧
    (initWaitEnds s c).lines = s.lines ∧ (initWaitEnds s c).claims = s.claims ∧
    (initWaitEnds s c).peers = s.peers ∧ (initWaitEnds s c).bus = s.bus ∧
    (initWaitEnds s c).penalties = s.penalties ∧ (initWaitEnds s c).links = s.links ∧
    (initWaitEnds s c).scan = s.scan ∧ (initWaitEnds s c).service = s.service ∧
    (initWaitEnds s c).events = s.events ∧ (initWaitEnds s c).openChoices = s.openChoices := by
  simp [initWaitEnds]

@[simp] theorem pollDue_frame (c : Cage) (s : State) :
    (pollDue c s).pending = s.pending ∧ (pollDue c s).startup = s.startup ∧
    (pollDue c s).lines = s.lines ∧ (pollDue c s).claims = s.claims ∧
    (pollDue c s).peers = s.peers ∧ (pollDue c s).bus = s.bus ∧
    (pollDue c s).penalties = s.penalties ∧ (pollDue c s).links = s.links ∧
    (pollDue c s).scan = s.scan ∧ (pollDue c s).service = s.service ∧
    (pollDue c s).events = s.events ∧ (pollDue c s).openChoices = s.openChoices := by
  simp [pollDue]

@[simp] theorem trainEnds_frame (c : Cage) (s : State) :
    (trainEnds c s).pending = s.pending ∧ (trainEnds c s).startup = s.startup ∧
    (trainEnds c s).peers = s.peers ∧ (trainEnds c s).penalties = s.penalties ∧
    (trainEnds c s).service = s.service ∧ (trainEnds c s).openChoices = s.openChoices := by
  unfold trainEnds; (repeat' split) <;> simp

@[simp] theorem verifyEnds_frame (c : Cage) (s : State) :
    (verifyEnds c s).pending = s.pending ∧ (verifyEnds c s).startup = s.startup ∧
    (verifyEnds c s).peers = s.peers ∧ (verifyEnds c s).penalties = s.penalties ∧
    (verifyEnds c s).service = s.service ∧ (verifyEnds c s).openChoices = s.openChoices := by
  simp [verifyEnds]

@[simp] theorem openWindow_frame (e : OwnIntent) (s : State) :
    (openWindow e s).pending = s.pending ∧ (openWindow e s).startup = s.startup ∧
    (openWindow e s).lines = s.lines ∧ (openWindow e s).cages = s.cages ∧
    (openWindow e s).peers = s.peers ∧ (openWindow e s).bus = s.bus ∧
    (openWindow e s).penalties = s.penalties ∧ (openWindow e s).links = s.links ∧
    (openWindow e s).scan = s.scan ∧ (openWindow e s).service = s.service ∧
    (openWindow e s).events = s.events ∧ (openWindow e s).openChoices = s.openChoices := by
  simp [openWindow]

@[simp] theorem confirmIntent_frame (e : OwnIntent) (s : State) :
    (confirmIntent e s).pending = s.pending ∧ (confirmIntent e s).startup = s.startup ∧
    (confirmIntent e s).peers = s.peers ∧ (confirmIntent e s).penalties = s.penalties ∧
    (confirmIntent e s).service = s.service ∧ (confirmIntent e s).events = s.events ∧
    (confirmIntent e s).openChoices = s.openChoices := by
  unfold confirmIntent; dsimp only; (repeat' split) <;> simp

@[simp] theorem withdrawIntent_frame (e : OwnIntent) (s : State) :
    (withdrawIntent e s).pending = s.pending ∧ (withdrawIntent e s).startup = s.startup ∧
    (withdrawIntent e s).lines = s.lines ∧ (withdrawIntent e s).cages = s.cages ∧
    (withdrawIntent e s).peers = s.peers ∧ (withdrawIntent e s).penalties = s.penalties ∧
    (withdrawIntent e s).links = s.links ∧ (withdrawIntent e s).scan = s.scan ∧
    (withdrawIntent e s).service = s.service ∧ (withdrawIntent e s).events = s.events ∧
    (withdrawIntent e s).openChoices = s.openChoices := by
  unfold withdrawIntent; dsimp only; (repeat' split) <;> simp

@[simp] theorem judgeIntent_frame (e : OwnIntent) (s : State) :
    (judgeIntent e s).pending = s.pending ∧ (judgeIntent e s).startup = s.startup ∧
    (judgeIntent e s).peers = s.peers ∧ (judgeIntent e s).penalties = s.penalties ∧
    (judgeIntent e s).service = s.service ∧ (judgeIntent e s).events = s.events ∧
    (judgeIntent e s).openChoices = s.openChoices := by
  unfold judgeIntent; (repeat' split) <;> simp

@[simp] theorem windowEnds_frame (e : OwnIntent) (s : State) :
    (windowEnds e s).pending = s.pending ∧ (windowEnds e s).startup = s.startup ∧
    (windowEnds e s).peers = s.peers ∧ (windowEnds e s).penalties = s.penalties ∧
    (windowEnds e s).service = s.service ∧ (windowEnds e s).events = s.events ∧
    (windowEnds e s).openChoices = s.openChoices := by
  unfold windowEnds; (repeat' split) <;> simp

@[simp] theorem setService_frame (p : ServicePhase) (r : Option Request) (s : State) :
    (setService p r s).pending = s.pending ∧ (setService p r s).startup = s.startup ∧
    (setService p r s).lines = s.lines ∧ (setService p r s).cages = s.cages ∧
    (setService p r s).claims = s.claims ∧ (setService p r s).peers = s.peers ∧
    (setService p r s).bus = s.bus ∧ (setService p r s).penalties = s.penalties ∧
    (setService p r s).links = s.links ∧ (setService p r s).scan = s.scan ∧
    (setService p r s).events = s.events ∧ (setService p r s).openChoices = s.openChoices := by
  simp [setService]

@[simp] theorem answer_frame (r : Request) (x : Result) (d : List Byte) (s : State) :
    (answer r x d s).pending = s.pending ∧ (answer r x d s).startup = s.startup ∧
    (answer r x d s).lines = s.lines ∧ (answer r x d s).cages = s.cages ∧
    (answer r x d s).claims = s.claims ∧ (answer r x d s).peers = s.peers ∧
    (answer r x d s).penalties = s.penalties ∧ (answer r x d s).links = s.links ∧
    (answer r x d s).scan = s.scan ∧ (answer r x d s).events = s.events ∧
    (answer r x d s).openChoices = s.openChoices := by
  simp [answer]

@[simp] theorem handLanes_frame (cur : Cursor) (b : List Byte) (s : State) :
    (handLanes cur b s).pending = s.pending ∧ (handLanes cur b s).startup = s.startup ∧
    (handLanes cur b s).peers = s.peers ∧ (handLanes cur b s).service = s.service ∧
    (handLanes cur b s).openChoices = s.openChoices := by
  simp [handLanes]

@[simp] theorem completeScan_frame (g : Seg) (cur : Cursor) (b : List Byte) (s : State) :
    (completeScan g cur b s).pending = s.pending ∧ (completeScan g cur b s).startup = s.startup ∧
    (completeScan g cur b s).peers = s.peers ∧ (completeScan g cur b s).service = s.service ∧
    (completeScan g cur b s).openChoices = s.openChoices := by
  unfold completeScan; dsimp only; split <;> simp

@[simp] theorem advanceScan_frame (g : Seg) (cur : Cursor) (b : List Byte) (s : State) :
    (advanceScan g cur b s).pending = s.pending ∧ (advanceScan g cur b s).startup = s.startup ∧
    (advanceScan g cur b s).peers = s.peers ∧ (advanceScan g cur b s).service = s.service ∧
    (advanceScan g cur b s).openChoices = s.openChoices := by
  unfold advanceScan; (repeat' split) <;> simp

@[simp] theorem scanOutcome_frame (g : Seg) (x : LinkOutcome) (s : State) :
    (scanOutcome g x s).pending = s.pending ∧ (scanOutcome g x s).startup = s.startup ∧
    (scanOutcome g x s).peers = s.peers ∧ (scanOutcome g x s).service = s.service ∧
    (scanOutcome g x s).openChoices = s.openChoices := by
  unfold scanOutcome; (repeat' split) <;> simp

@[simp] theorem passOutcome_frame (x : LinkOutcome) (s : State) :
    (passOutcome x s).pending = s.pending ∧ (passOutcome x s).startup = s.startup ∧
    (passOutcome x s).lines = s.lines ∧ (passOutcome x s).cages = s.cages ∧
    (passOutcome x s).claims = s.claims ∧ (passOutcome x s).peers = s.peers ∧
    (passOutcome x s).penalties = s.penalties ∧ (passOutcome x s).links = s.links ∧
    (passOutcome x s).scan = s.scan ∧ (passOutcome x s).events = s.events ∧
    (passOutcome x s).openChoices = s.openChoices := by
  unfold passOutcome; (repeat' split) <;> simp

@[simp] theorem endAdopting_frame (s : State) :
    (endAdopting s).pending = s.pending ∧ (endAdopting s).lines = s.lines ∧
    (endAdopting s).cages = s.cages ∧ (endAdopting s).claims = s.claims ∧
    (endAdopting s).peers = s.peers ∧ (endAdopting s).bus = s.bus ∧
    (endAdopting s).penalties = s.penalties ∧ (endAdopting s).links = s.links ∧
    (endAdopting s).scan = s.scan ∧ (endAdopting s).service = s.service ∧
    (endAdopting s).events = s.events ∧ (endAdopting s).openChoices = s.openChoices := by
  unfold endAdopting; (repeat' split) <;> simp

/-! ### A removal at a chunk's end, and the run state of a STATUS (R126, R188) -/

theorem justGranted_iff (k : Chunk) (l : Link) :
    l.justGranted k = true ↔ k.tryNo = 1 ∧ k.ending = .none ∧ l.stretch = none := by
  simp [Link.justGranted]

/-- A removal together with the end of a chunk takes the chunk granted at that end back (R126, R127). -/
theorem linkRemoval_takes_back {c : Cage} {k : Chunk} {s : State}
    (state : (s.link (segOf c)).state = .chunk) (chunk : (s.link (segOf c)).chunk = some k)
    (cage : k.cage = c) (granted : (s.link (segOf c)).justGranted k = true) :
    linkRemoval c .atChunkEnd s =
      answerAbsent (segOf c) ((s.link (segOf c)).slotsOf c)
        (s.updLink (segOf c) (Link.endChunk .idle true)) := by
  simp [linkRemoval, state, chunk, cage, granted]

/-- Of a chunk that has been tried before, stretched or ended, a removal at a chunk's end does what one within
the try does. -/
theorem linkRemoval_at_end_eq {c : Cage} {s : State}
    (begun : ∀ k, (s.link (segOf c)).chunk = some k → (s.link (segOf c)).justGranted k = false) :
    linkRemoval c .atChunkEnd s = linkRemoval c .inTry s := by
  unfold linkRemoval
  dsimp only
  split
  · next k _ h => rw [begun k h]; simp
  all_goals rfl

/-- A STATUS carries the run state of its attempt, or ADOPTING where none has been sent since a Restart. -/
theorem statusRunState_cases (s : State) :
    s.statusRunState = s.startup.runState ∨
      (s.bus.afterRestart = true ∧ s.statusRunState = .adopting) := by
  unfold State.statusRunState
  split
  · exact .inr ⟨by simp_all, rfl⟩
  · exact .inl rfl

@[simp] theorem afterRestart_atRestart (period : Nat) (b : BusUnit) :
    (b.atRestart period).afterRestart = true := rfl

@[simp] theorem afterRestart_sent (i : Nat) (f : TxFrame) (b : BusUnit) :
    (b.sent i f).afterRestart = if f.body.isStatus then false else b.afterRestart := rfl

end Sys2Proof.Machine
end

