-- ==== Sys2Proof/Laws/Finish.lean ====
section
/-! SUPPORT. What every event ends with: what `finish` leaves alone, that it does nothing where nothing
is due, and the two ways an event can go. -/

namespace Sys2Proof.Machine

/-! ### Folds -/

/-- A fold whose every step keeps a part of the state keeps it. -/
theorem foldl_keeps {σ α β : Type} (p : σ → β) (f : σ → α → σ) (h : ∀ s a, p (f s a) = p s)
    (l : List α) (s : σ) : p (l.foldl f s) = p s := by
  induction l generalizing s with
  | nil => rfl
  | cons a l ih => rw [List.foldl_cons, ih, h]

/-- A fold whose every step does nothing in a state does nothing in it. -/
theorem foldl_fixed {σ α : Type} (f : σ → α → σ) (l : List α) (s : σ) (h : ∀ a ∈ l, f s a = s) :
    l.foldl f s = s := by
  induction l with
  | nil => rfl
  | cons a l ih =>
    rw [List.foldl_cons, h a (by simp), ih (fun b hb => h b (by simp [hb]))]

/-- A fold whose every step keeps a property keeps it. -/
theorem foldl_invariant {σ α : Type} (P : σ → Prop) (f : σ → α → σ)
    (h : ∀ s a, P s → P (f s a)) (l : List α) (s : σ) (hs : P s) : P (l.foldl f s) := by
  induction l generalizing s with
  | nil => exact hs
  | cons a l ih => exact ih _ (h s a hs)

/-! ### The work that is due -/

theorem SameOutsideWork.refl (s : State) : SameOutsideWork s s where
  pending := rfl
  startup := rfl
  runState := .inl rfl
  lines := rfl
  cages _ := rfl
  claims _ := rfl
  queued _ := .inl rfl
  claimUnit := rfl
  bus := rfl
  peers := rfl
  penalties := rfl
  scan := rfl
  service := rfl
  events := rfl

theorem SameOutsideWork.trans {s t u : State} (h : SameOutsideWork s t) (k : SameOutsideWork t u) :
    SameOutsideWork s u where
  pending := k.pending.trans h.pending
  startup := by rw [k.startup, h.startup]
  runState := by
    rcases h.runState with a | ⟨a, b⟩ <;> rcases k.runState with c | ⟨c, d⟩ <;> simp_all
  lines := k.lines.trans h.lines
  cages c := by rw [k.cages c, h.cages c]
  claims c := by rw [k.claims c, h.claims c]
  queued c := by
    rcases h.queued c with a | ⟨a, b⟩ <;> rcases k.queued c with c | ⟨c, d⟩ <;> simp_all
  claimUnit := by rw [k.claimUnit, h.claimUnit]
  bus := by rw [k.bus, h.bus]
  peers := k.peers.trans h.peers
  penalties := k.penalties.trans h.penalties
  scan := by rw [k.scan, h.scan]
  service := k.service.trans h.service
  events := k.events.trans h.events

/-- A change of the arbiters and the scanners alone is work. -/
theorem sameOutsideWork_linksScanners (s : State) (l : Vector Link 2) (n : Vector Scanner 2) :
    SameOutsideWork s { s with links := l, scan := { s.scan with scanners := n } } := by
  constructor <;> intros <;> first | rfl | exact .inl rfl

/-! ### The parts of `finish` -/

theorem endAdopting_work (s : State) : SameOutsideWork s (endAdopting s) := by
  unfold endAdopting
  split
  · next h =>
    exact { (SameOutsideWork.refl s) with
      startup := rfl, runState := .inr ⟨h.1, rfl⟩, lines := rfl, pending := rfl, cages := fun _ => rfl,
      claims := fun _ => rfl, queued := fun _ => .inl rfl, claimUnit := rfl, bus := rfl, peers := rfl,
      penalties := rfl, scan := rfl, service := rfl, events := rfl }
  · exact .refl s

theorem updLink_work (s : State) (g : Seg) (f : Link → Link) : SameOutsideWork s (s.updLink g f) := by
  constructor <;> intros <;> first | rfl | exact .inl rfl

theorem updScanner_work (s : State) (g : Seg) (f : Scanner → Scanner) :
    SameOutsideWork s (s.updScanner g f) := by
  constructor <;> intros <;> first | rfl | exact .inl rfl

theorem putRequest_work (g : Seg) (x : Slot) (r : LinkRequest) (s : State) :
    SameOutsideWork s (putRequest g x r s) := updLink_work ..

theorem requests_work (s : State) (c : Cage) (q : List CrsRequest) :
    SameOutsideWork s (s.updCage c (fun k => { k with requests := q })) := by
  constructor <;> intros <;> first | rfl | exact .inl rfl | skip
  rename_i d
  by_cases h : d = c
  · subst h; simp
  · simp [h, cage_updCage_other]

theorem pumpCage_work (s : State) (c : Cage) : SameOutsideWork s (pumpCage s c) := by
  unfold pumpCage
  split
  · split
    · exact (requests_work s c _).trans (putRequest_work ..)
    · exact requests_work s c _
  · exact .refl s

theorem presentScan_work (g : Seg) (cur : Cursor) (s : State) :
    SameOutsideWork s (presentScan g cur s) := by
  unfold presentScan
  split
  · split
    · exact (updScanner_work s g _).trans (putRequest_work ..)
    · exact updScanner_work s g _
  · exact updScanner_work s g _

theorem startSlot_work (g : Seg) (s : State) : SameOutsideWork s (startSlot g s) := by
  unfold startSlot
  dsimp only
  split
  · split
    · exact (updScanner_work s g _).trans (presentScan_work ..)
    · exact .refl s
  · exact .refl s

theorem grantSegment_work (g : Seg) (s : State) : SameOutsideWork s (grantSegment g s) := by
  unfold grantSegment
  dsimp only
  repeat' split
  all_goals first | exact .refl s | exact updLink_work s g _

theorem place_bus (b : BusUnit) (f : TxFrame) :
    b.place f = { b with txQueue := (b.place f).txQueue, reportDrop := (b.place f).reportDrop } := by
  unfold BusUnit.place BusUnit.countDrop
  repeat' split
  all_goals rfl

theorem queueFrame_work (level : Nat) (body : FrameBody) (s : State) :
    SameOutsideWork s (queueFrame level body s) := by
  constructor <;> intros <;> first | rfl | exact .inl rfl | exact place_bus _ _

theorem candidate_none {s : State} {c : Cage} (h : s.candidate = some c) :
    (s.claim c).state = .none := by
  have := List.find?_some h
  simp_all

theorem setClaim_work (c : Cage) (s : State) (h : (s.claim c).state = .none) :
    SameOutsideWork s (setClaim c .queued s) := by
  constructor <;> intros <;> first | rfl | exact .inl rfl | skip
  all_goals
    rename_i d
    by_cases e : d = c
    · subst e; simp [setClaim, h]
    · simp [setClaim, e, claim_updClaim_other]

theorem intents_work (s : State) (tag : Tag) (l : List OwnIntent) :
    SameOutsideWork s (s.updClaims (fun u => { u with lastTag := tag, intents := u.intents ++ l })) := by
  constructor <;> intros <;> first | rfl | exact .inl rfl

theorem queueIntent_work (c : Cage) (s : State) (h : (s.claim c).state = .none) :
    SameOutsideWork s (queueIntent c s) :=
  ((setClaim_work c s h).trans (intents_work ..)).trans (queueFrame_work ..)

theorem queueTests_work (n : Nat) (s : State) : SameOutsideWork s (queueTests n s) := by
  induction n generalizing s with
  | zero => exact .refl s
  | succ n ih =>
    unfold queueTests
    split
    · next c h =>
      split
      · exact (queueIntent_work c s (candidate_none h)).trans (ih _)
      · exact .refl s
    · exact .refl s

theorem testDue_work (s : State) (b : Bool) :
    SameOutsideWork s (s.updClaims (fun k => { k with testDue := b })) := by
  constructor <;> intros <;> first | rfl | exact .inl rfl

theorem runDueTest_work (s : State) : SameOutsideWork s (runDueTest s) := by
  unfold runDueTest
  split
  · exact (testDue_work s false).trans (queueTests_work ..)
  · exact .refl s

/-- The end of an event moves only the work that is due. -/
theorem finish_work (s : State) : SameOutsideWork s (finish s) := by
  have fold : ∀ (cs : List Cage) (u : State), SameOutsideWork u (cs.foldl pumpCage u) := by
    intro cs
    induction cs with
    | nil => exact SameOutsideWork.refl
    | cons c cs ih => exact fun u => (pumpCage_work u c).trans (ih _)
  unfold finish
  dsimp only
  refine SameOutsideWork.trans ?_ (runDueTest_work _)
  refine SameOutsideWork.trans ?_ (grantSegment_work 1 _)
  refine SameOutsideWork.trans ?_ (grantSegment_work 0 _)
  refine SameOutsideWork.trans ?_ (startSlot_work 1 _)
  refine SameOutsideWork.trans ?_ (startSlot_work 0 _)
  exact (endAdopting_work s).trans (fold _ _)

/-! ### Where nothing is due -/

theorem mem_allCages (c : Cage) : c ∈ allCages := List.mem_ofFn.2 ⟨c, rfl⟩

theorem pumpCage_of_pumped {s : State} (h : s.pumped = true) (c : Cage) : pumpCage s c = s := by
  have hc : ((s.crsSlot c).isSome || (s.cage c).requests.isEmpty) = true := by
    unfold State.pumped at h
    exact List.all_eq_true.1 h c (mem_allCages c)
  unfold pumpCage
  split
  · next a b => simp [a, b] at hc
  · rfl

theorem slotChoice_of_rota {s : State} {g : Seg} (h : s.rota g = []) : s.slotChoice g = none := by
  have : ∀ t, s.rotaClass g t = [] := fun t => by simp [State.rotaClass, h]
  have k : ∀ last, nextAfter last [] = none := fun last => by cases last <;> rfl
  simp [State.slotChoice, this, k]

theorem startSlot_of_taken {s : State} {g : Seg} (h : s.slotTaken g = true) : startSlot g s = s := by
  unfold startSlot
  dsimp only
  split
  · next a =>
    split
    · next b =>
      have : s.rota g = [] := by simpa [State.slotTaken, a.1, a.2] using h
      simp [slotChoice_of_rota this] at b
    · rfl
  · rfl

theorem grantSegment_of_granted {s : State} {g : Seg} (h : s.granted g = true) :
    grantSegment g s = s := by
  unfold grantSegment
  dsimp only
  split
  · next a =>
    have : s.chooseSlot g = none := by simpa [State.granted, a] using h
    simp [this]
  all_goals rfl

/-- Where nothing is due, the end of an event does nothing. -/
theorem finish_of_settled {s : State} (h : s.settled = true) : finish s = s := by
  simp only [State.settled, Bool.and_eq_true] at h
  obtain ⟨⟨⟨⟨⟨⟨a, p⟩, t0⟩, t1⟩, g0⟩, g1⟩, d⟩ := h
  have ha : endAdopting s = s := by
    unfold endAdopting
    rw [if_neg]
    rintro ⟨x, y⟩
    simp [x, y] at a
  have hf : allCages.foldl pumpCage s = s := foldl_fixed _ _ _ (fun c _ => pumpCage_of_pumped p c)
  have hd : runDueTest s = s := by
    unfold runDueTest
    rw [if_neg (by simpa using d)]
  simp only [finish, ha, hf, startSlot_of_taken t0, startSlot_of_taken t1,
    grantSegment_of_granted g0, grantSegment_of_granted g1, hd]

/-! ### What the work does to requests and segments -/

theorem slotIx_inj {c d : Cage} (g : segOf c = segOf d) (h : slotIx c = slotIx d) : c = d := by
  revert c d; decide +kernel

theorem crsSlot_congr {s t : State} (h : t.links = s.links) (c : Cage) : t.crsSlot c = s.crsSlot c := by
  simp [State.crsSlot, State.link, h]

@[simp] theorem crsSlot_updCage (s : State) (c d : Cage) (f : CageRecord → CageRecord) :
    (s.updCage c f).crsSlot d = s.crsSlot d := rfl

/-- The arbiter's slot and the request list of a cage after its requests have been handed over. -/
def handedOver (c : Cage) (present : Bool) (slot : Option LinkRequest) (list : List CrsRequest) :
    Option LinkRequest × List CrsRequest :=
  match slot, list with
  | none, q :: rest => if present then (some (crsTransaction c q), rest) else (none, [])
  | x, l => (x, l)

/-- The slot and the list of a cage of a state after its requests have been handed over. -/
def State.handedOver (s : State) (c : Cage) : Option LinkRequest × List CrsRequest :=
  Machine.handedOver c (s.line c).present (s.crsSlot c) (s.cage c).requests

theorem crsSlot_putRequest (c d : Cage) (r : LinkRequest) (s : State) :
    (putRequest (segOf c) (.crs c) r s).crsSlot d = if d = c then some r else s.crsSlot d := by
  by_cases e : d = c
  · subst e; simp [State.crsSlot, putRequest, Link.inSlot, Link.setSlot]
  · rw [if_neg e]
    by_cases g : segOf d = segOf c
    · have : slotIx d ≠ slotIx c := fun h => e (slotIx_inj g h)
      simp only [State.crsSlot, putRequest, Link.inSlot, Link.setSlot, g, link_updLink,
        Fin.getElem_fin]
      exact Vector.getElem_set_ne _ _ (fun h => this (Fin.ext h.symm))
    · simp [State.crsSlot, putRequest, link_updLink_other _ _ _ _ g]

/-- What handing over the requests of one cage does to the slots and the lists. -/
theorem pumpCage_handed (s : State) (c d : Cage) :
    (pumpCage s c).crsSlot d = (if d = c then (s.handedOver c).1 else s.crsSlot d) ∧
    ((pumpCage s c).cage d).requests =
      (if d = c then (s.handedOver c).2 else (s.cage d).requests) := by
  unfold State.handedOver pumpCage handedOver
  by_cases e : d = c
  · subst e
    simp only [if_true]
    cases h : s.crsSlot d with
    | some r => simp [h]
    | none =>
      cases k : (s.cage d).requests with
      | nil => simp [h, k]
      | cons q rest =>
        by_cases p : (s.line d).present = true
        · simp only [p, if_true]; rw [crsSlot_putRequest]; simp [putRequest]
        · simp [p, h]
  · simp only [e, if_false]
    (repeat' split) <;>
      (simp [e, cage_updCage_other, crsSlot_putRequest]; try simp [putRequest, e, cage_updCage_other])

theorem pumpCage_lines (s : State) (c : Cage) : (pumpCage s c).lines = s.lines := (pumpCage_work s c).lines

theorem handedOver_congr {s t : State} {c : Cage} (a : t.crsSlot c = s.crsSlot c)
    (b : (t.cage c).requests = (s.cage c).requests) (d : t.lines = s.lines) :
    t.handedOver c = s.handedOver c := by
  simp only [State.handedOver, a, b, State.line, d]

/-- What handing over the requests of a list of cages does to the slots and the lists. -/
theorem pumpAll_handed (cs : List Cage) (s : State) (h : cs.Nodup) (d : Cage) :
    (cs.foldl pumpCage s).crsSlot d = (if d ∈ cs then (s.handedOver d).1 else s.crsSlot d) ∧
    ((cs.foldl pumpCage s).cage d).requests =
      (if d ∈ cs then (s.handedOver d).2 else (s.cage d).requests) := by
  induction cs generalizing s with
  | nil => simp
  | cons c cs ih =>
    obtain ⟨a, b⟩ := List.nodup_cons.1 h
    obtain ⟨x, y⟩ := ih (pumpCage s c) b
    obtain ⟨z, w⟩ := pumpCage_handed s c d
    rw [List.foldl_cons, x, y]
    by_cases e : d = c
    · subst e; simp [a, z, w]
    · have k : (pumpCage s c).handedOver d = s.handedOver d :=
        handedOver_congr (by simp [z, e]) (by simp [w, e]) (pumpCage_lines s c)
      simp [e, k, z, w]

theorem pumpCage_link (s : State) (c : Cage) (g : Seg) :
    (pumpCage s c).link g = { s.link g with crsSlots := ((pumpCage s c).link g).crsSlots } := by
  unfold pumpCage
  split
  · split
    · by_cases e : g = segOf c
      · subst e; simp [putRequest, Link.setSlot]
      · simp [putRequest, link_updLink_other _ _ _ _ e]
    · simp
  · rfl

theorem pumpAll_link (cs : List Cage) (s : State) (g : Seg) :
    (cs.foldl pumpCage s).link g =
      { s.link g with crsSlots := ((cs.foldl pumpCage s).link g).crsSlots } := by
  induction cs generalizing s with
  | nil => rfl
  | cons c cs ih => rw [List.foldl_cons, ih, pumpCage_link]

theorem pumpAll_scan (cs : List Cage) (s : State) : (cs.foldl pumpCage s).scan = s.scan :=
  foldl_keeps State.scan pumpCage
    (fun s c => by unfold pumpCage; (repeat' split) <;> simp) cs s

theorem presentScan_links (g : Seg) (cur : Cursor) (s : State) (h : Seg) :
    ((presentScan g cur s).link h =
      { s.link h with scanner := ((presentScan g cur s).link h).scanner }) ∧
    (h ≠ g → (presentScan g cur s).link h = s.link h) ∧
    ((presentScan g cur s).scanner g).slotTimer = (s.scanner g).slotTimer ∧
    (h ≠ g → (presentScan g cur s).scanner h = s.scanner h) := by
  unfold presentScan
  by_cases e : h = g
  · subst e
    (repeat' split) <;> simp [putRequest, Link.setSlot, Scanner.ended]
  · (repeat' split) <;>
      simp [putRequest, e, link_updLink_other _ _ _ _ e, scanner_updScanner_other _ _ _ _ e,
        Scanner.ended]

/-- What a slot of a scanner does to the segments: only where the scanner is IDLE with its slot timer
stopped, and then to its own scanner and scanner slot alone, with the slot timer started. -/
theorem startSlot_links (g : Seg) (s : State) (h : Seg) :
    ((startSlot g s).link h = { s.link h with scanner := ((startSlot g s).link h).scanner }) ∧
    (((startSlot g s).scanner h = s.scanner h ∧ (startSlot g s).link h = s.link h) ∨
      (h = g ∧ (s.scanner g).phase = .idle ∧ (s.scanner g).slotTimer = none ∧
        ((startSlot g s).scanner g).slotTimer = some 10)) := by
  unfold startSlot
  dsimp only
  split
  · next a =>
    split
    · next t c _ =>
      generalize hu : s.updScanner g (fun n => { n.visited t c with
        slotTimer := some 10, sampleBytes := [] }) = u
      have hl : ∀ h, u.link h = s.link h := fun h => by subst hu; simp
      have hn : ∀ h, h ≠ g → u.scanner h = s.scanner h := fun h e => by
        subst hu; exact scanner_updScanner_other _ _ _ _ e
      have ht : (u.scanner g).slotTimer = some 10 := by subst hu; simp
      obtain ⟨x, y, z, w⟩ := presentScan_links g ⟨c, u.lanesOf c, 0⟩ u h
      refine ⟨by rw [x, hl], ?_⟩
      by_cases e : h = g
      · exact .inr ⟨e, a.1, a.2, by rw [z, ht]⟩
      · exact .inl ⟨by rw [w e, hn h e], by rw [y e, hl]⟩
    · exact ⟨rfl, .inl ⟨rfl, rfl⟩⟩
  · exact ⟨rfl, .inl ⟨rfl, rfl⟩⟩

theorem startSlot_cages (g : Seg) (s : State) : (startSlot g s).cages = s.cages := by
  unfold startSlot presentScan; dsimp only; (repeat' split) <;> simp [putRequest]

theorem startSlot_crsSlot (g : Seg) (s : State) (c : Cage) :
    (startSlot g s).crsSlot c = s.crsSlot c := by
  unfold State.crsSlot
  rw [(startSlot_links g s (segOf c)).1]
  rfl

/-- What the choice of a segment does: nothing, or the grant of a request of one of its slots, where it is
IDLE. -/
theorem grantSegment_links (g : Seg) (s : State) :
    grantSegment g s = s ∨
    ((s.link g).state = .idle ∧ ∃ slot r, s.chooseSlot g = some slot ∧
      (s.link g).inSlot slot = some r ∧ grantSegment g s = s.updLink g (Link.grant slot r)) := by
  unfold grantSegment
  dsimp only
  (repeat' split) <;> simp_all

theorem chooseSlot_crs {s : State} {g : Seg} {c : Cage} (h : s.chooseSlot g = some (.crs c)) :
    segOf c = g := by
  have mem : ∀ (l : List Cage) (key : Cage → Nat) (c : Cage), c ∈ sortByKey key l → c ∈ l := by
    have ins : ∀ (l : List Cage) (key : Cage → Nat) (x c : Cage),
        c ∈ insertByKey key x l → c = x ∨ c ∈ l := by
      intro l key x c
      induction l with
      | nil => simp [insertByKey]
      | cons y l ih =>
        unfold insertByKey
        split
        · simp
        · simp only [List.mem_cons]; rintro (rfl | k)
          · simp
          · rcases ih k with rfl | k <;> simp_all
    intro l key c
    induction l with
    | nil => simp [sortByKey]
    | cons x l ih =>
      unfold sortByKey
      intro k
      rcases ins _ _ _ _ k with rfl | k
      · simp
      · simp [ih k]
  unfold State.chooseSlot at h
  split at h
  · next d e =>
    cases h
    have := mem _ _ _ (List.mem_of_mem_head? e)
    simp only [State.crsWaiting, segCages, List.mem_filter] at this
    simpa using this.1.2
  · (repeat' split at h) <;> simp at h

theorem runDueTest_frame (s : State) :
    (runDueTest s).links = s.links ∧ (runDueTest s).cages = s.cages ∧ (runDueTest s).scan = s.scan := by
  have tests : ∀ n (u : State), (queueTests n u).links = u.links ∧ (queueTests n u).cages = u.cages ∧
      (queueTests n u).scan = u.scan := by
    intro n
    induction n with
    | zero => intro u; exact ⟨rfl, rfl, rfl⟩
    | succ n ih =>
      intro u
      unfold queueTests
      repeat' split
      · simp [ih]
      · exact ⟨rfl, rfl, rfl⟩
      · exact ⟨rfl, rfl, rfl⟩
  unfold runDueTest
  split <;> simp [tests]

/-! ### The queue-time test runs to its end -/

/-- The report that makes room is a waiting report of the queue. -/
theorem worstReport_spec (l : List TxFrame) (i : Nat) (best : Option (Nat × Nat)) (j : Nat)
    (h : worstReport i best l = some j) :
    (∃ b, best = some b ∧ b.1 = j) ∨
      ∃ k f, j = i + k ∧ l[k]? = some f ∧ f.mark = .waiting ∧ f.body.isReport = true := by
  induction l generalizing i best with
  | nil =>
    left
    cases best with
    | none => simp [worstReport] at h
    | some b => exact ⟨b, rfl, by simpa [worstReport] using h⟩
  | cons f l ih =>
    have later : ∀ best', worstReport (i + 1) best' l = some j →
        (∃ b, best' = some b ∧ b.1 = j) ∨
        ∃ k e, j = i + k ∧ (f :: l)[k]? = some e ∧ e.mark = .waiting ∧ e.body.isReport = true := by
      intro best' h
      rcases ih (i + 1) best' h with a | ⟨k, e, a, b⟩
      · exact .inl a
      · exact .inr ⟨k + 1, e, by omega, by simpa using b⟩
    unfold worstReport at h
    split at h
    · next w =>
      have here : ∀ v, worstReport (i + 1) (some (i, v)) l = some j →
          (∃ b, best = some b ∧ b.1 = j) ∨
          ∃ k e, j = i + k ∧ (f :: l)[k]? = some e ∧ e.mark = .waiting ∧ e.body.isReport = true := by
        intro v h
        rcases later _ h with ⟨b, x, y⟩ | a
        · cases x; exact .inr ⟨0, f, y.symm, rfl, w⟩
        · exact .inr a
      split at h
      · split at h
        · exact here _ h
        · exact later _ h
      · exact here _ h
    · exact later _ h

theorem filterMap_eraseIdx {α β : Type} (f : α → Option β) (l : List α) (i : Nat) (x : α)
    (h : l[i]? = some x) (n : f x = none) : (l.eraseIdx i).filterMap f = l.filterMap f := by
  induction l generalizing i with
  | nil => simp at h
  | cons a l ih =>
    cases i with
    | zero => simp at h; subst h; simp [n]
    | succ i => simp at h; simp [List.filterMap_cons, ih i h]

/-- An INTENT that is queued changes no answer's tag. -/
theorem answerTags_queueIntent (c : Cage) (s : State) :
    (queueIntent c s).answerTags = s.answerTags := by
  have place : ∀ (b : BusUnit) (level : Nat) (tag : Tag) (d : Nat) (g : TxFrame → Option Tag)
      (_ : g (newFrame level (.intent c tag d)) = none)
      (_ : ∀ f, f.body.isReport = true → g f = none),
      (b.place (newFrame level (.intent c tag d))).txQueue.filterMap g = b.txQueue.filterMap g := by
    intro b level tag d g hn hr
    unfold BusUnit.place
    split
    · simp [hn]
    · split
      · next i h =>
        rcases worstReport_spec _ _ _ _ h with ⟨_, a, _⟩ | ⟨k, f, a, e, _, r⟩
        · cases a
        · obtain rfl : i = k := by omega
          simp only [List.filterMap_append, filterMap_eraseIdx g _ _ _ e (hr f r)]
          simp [hn]
      · rfl
  unfold State.answerTags queueIntent queueFrame
  simp only [updBus_bus, updClaims_bus, setClaim_frame]
  refine place _ _ _ _ _ (by simp [newFrame, FrameBody.answerTag]) ?_
  intro f h
  cases f with
  | mk level body mark follow =>
    cases body <;> simp_all [FrameBody.isReport, FrameBody.answerTag]

theorem openTags_queueIntent (c : Cage) (s : State) :
    (queueIntent c s).openTags.length = s.openTags.length + 1 := by
  unfold State.openTags
  rw [answerTags_queueIntent]
  simp [queueIntent, setClaim]
  omega

/-- Enough runs of the queue-time test reach its end. -/
theorem queueTests_tested (n : Nat) (s : State) (h : 2 - s.openTags.length < n) :
    Tested s (queueTests n s) := by
  induction n generalizing s with
  | zero => omega
  | succ n ih =>
    unfold queueTests
    split
    · next c hc =>
      split
      · next p =>
        refine .queues c s _ hc p (ih _ ?_)
        have : s.openTags.length < 2 := by
          simp only [State.testPasses, Bool.and_eq_true, decide_eq_true_eq] at p
          exact p.1.2
        rw [openTags_queueIntent]
        omega
      · next p => exact .stops s (fun d e => by rw [hc] at e; cases e; simpa using p)
    · next hc => exact .stops s (fun d e => by rw [hc] at e; cases e)

/-! ### The two ways of an event: what it ends with -/

/-! ### The two ways of an event -/

@[simp] theorem nextChoice_same (s : State) : SameOutsideWork s s.nextChoice := by
  constructor <;> intros <;> first | rfl | exact .inl rfl

theorem finish_openChoices (s : State) : (finish s).openChoices = s.openChoices := by
  have tests : ∀ n (u : State), (queueTests n u).openChoices = u.openChoices := by
    intro n
    induction n with
    | zero => intro u; rfl
    | succ n ih =>
      intro u
      unfold queueTests
      repeat' split
      all_goals simp [ih]
  have due : ∀ u : State, (runDueTest u).openChoices = u.openChoices := by
    intro u
    unfold runDueTest
    split <;> simp [tests]
  have pump := foldl_keeps State.openChoices pumpCage
    (fun s c => by unfold pumpCage; (repeat' split) <;> simp) allCages
  simp [finish, due, pump]

/-- The state in which the queue-time test of an event is run. -/
def beforeTest (s : State) : State :=
  grantSegment 1 (grantSegment 0 (startSlot 1 (startSlot 0
    (allCages.foldl pumpCage (endAdopting s)))))

theorem finish_eq (s : State) : finish s = runDueTest (beforeTest s) := rfl

theorem pumpAll_work (cs : List Cage) (s : State) : SameOutsideWork s (cs.foldl pumpCage s) := by
  induction cs generalizing s with
  | nil => exact .refl s
  | cons c cs ih => exact (pumpCage_work s c).trans (ih _)

theorem beforeTest_work (s : State) : SameOutsideWork s (beforeTest s) :=
  ((((((endAdopting_work s).trans (pumpAll_work _ _)).trans (startSlot_work 0 _)).trans
    (startSlot_work 1 _)).trans (grantSegment_work 0 _)).trans (grantSegment_work 1 _))

theorem pumpCage_units (s : State) (c : Cage) :
    ((pumpCage s c).claims, (pumpCage s c).bus) = (s.claims, s.bus) := by
  unfold pumpCage; (repeat' split) <;> simp [putRequest]

theorem startSlot_units (g : Seg) (s : State) :
    (startSlot g s).claims = s.claims ∧ (startSlot g s).bus = s.bus := by
  unfold startSlot presentScan; dsimp only; (repeat' split) <;> simp [putRequest]

theorem grantSegment_units (g : Seg) (s : State) :
    (grantSegment g s).claims = s.claims ∧ (grantSegment g s).bus = s.bus ∧
    (grantSegment g s).cages = s.cages ∧ (grantSegment g s).scan = s.scan := by
  rcases grantSegment_links g s with h | ⟨_, slot, r, _, _, h⟩ <;> simp [h]

theorem beforeTest_units (s : State) :
    (beforeTest s).claims = s.claims ∧ (beforeTest s).bus = s.bus := by
  have h := foldl_keeps (fun s : State => (s.claims, s.bus)) pumpCage pumpCage_units allCages
    (endAdopting s)
  simp only [Prod.mk.injEq] at h
  simp [beforeTest, h]

/-- Where no test is due the claims and the bus stay, and a test that is due is run to its end. -/
theorem finish_tested (s : State) :
    (s.claims.testDue = false → (finish s).claims = s.claims ∧ (finish s).bus = s.bus) ∧
    (s.claims.testDue = true → ∃ v w, SameOutsideWork s v ∧
      v.claims = { s.claims with testDue := false } ∧ v.bus = s.bus ∧ Tested v w ∧
      (finish s).claims = w.claims ∧ (finish s).bus = w.bus) := by
  obtain ⟨a, b⟩ := beforeTest_units s
  rw [finish_eq]
  unfold runDueTest
  rw [a]
  constructor
  · intro d; simp [d, a, b]
  · intro d
    refine ⟨_, _, (beforeTest_work s).trans (testDue_work _ false), by simp [a], by simp [b],
      queueTests_tested 3 _ (by omega), by simp [d], by simp [d]⟩

/-- What the work at the end of an event does to the requests of a cage. -/
theorem beforeTest_requests (s : State) (c : Cage) :
    ((beforeTest s).cage c).requests = (s.handedOver c).2 ∧
    ((beforeTest s).crsSlot c = (s.handedOver c).1 ∨
      (beforeTest s).crsSlot c = ((s.handedOver c).1).map LinkRequest.grant) := by
  obtain ⟨x, y⟩ := pumpAll_handed allCages (endAdopting s) (List.nodup_finRange 16) c
  have e : (endAdopting s).handedOver c = s.handedOver c :=
    handedOver_congr (crsSlot_congr (by simp) c) (by simp [State.cage]) (by simp)
  simp only [mem_allCages, if_true, e] at x y
  have grant : ∀ (g : Seg) (u : State), (grantSegment g u).crsSlot c = u.crsSlot c ∨
      ((grantSegment g u).crsSlot c = (u.crsSlot c).map LinkRequest.grant ∧ segOf c = g) := by
    intro g u
    rcases grantSegment_links g u with h | ⟨i, slot, r, k, l, h⟩
    · exact .inl (by rw [h])
    · rw [h]
      by_cases n : segOf c = g
      · subst n
        cases slot with
        | crs d =>
          by_cases f : c = d
          · subst f
            refine .inr ⟨?_, rfl⟩
            simp only [State.crsSlot, link_updLink, l]
            simp [Link.inSlot, Link.setSlot, Link.grant]
          · have q : slotIx c ≠ slotIx d := fun z => f (slotIx_inj (chooseSlot_crs k).symm z)
            refine .inl ?_
            simp only [State.crsSlot, link_updLink, Link.inSlot, Link.setSlot, Link.grant, Fin.getElem_fin]
            exact Vector.getElem_set_ne _ _ (fun z => q (Fin.ext z.symm))
        | passThrough => exact .inl (by simp [State.crsSlot, Link.inSlot, Link.setSlot, Link.grant])
        | scanner => exact .inl (by simp [State.crsSlot, Link.inSlot, Link.setSlot, Link.grant])
      · exact .inl (by simp [State.crsSlot, link_updLink_other _ _ _ _ n])
  constructor
  · rw [← y]
    simp [beforeTest, State.cage]
  · unfold beforeTest
    generalize hu : startSlot 1 (startSlot 0 (allCages.foldl pumpCage (endAdopting s))) = u
    have k : u.crsSlot c = (s.handedOver c).1 := by
      subst hu; rw [startSlot_crsSlot, startSlot_crsSlot, x]
    rcases grant 1 (grantSegment 0 u) with a | ⟨a, m⟩ <;> rcases grant 0 u with b | ⟨b, n⟩
    · left; rw [a, b, k]
    · right; rw [a, b, k]
    · right; rw [a, b, k]
    · rw [m] at n; cases n

theorem finish_requests (s : State) (c : Cage) : RequestsHanded s (finish s) c := by
  obtain ⟨x, y⟩ := beforeTest_requests s c
  obtain ⟨p, q, _⟩ := runDueTest_frame (beforeTest s)
  rw [← crsSlot_congr p c, ← finish_eq] at y
  have x : ((finish s).cage c).requests = (s.handedOver c).2 := by
    rw [← x, finish_eq]; simp [State.cage, q]
  unfold State.handedOver handedOver at x y
  refine ⟨?_, ?_, ?_, ?_⟩
  · intro r h; rw [h] at x y; exact ⟨x, y⟩
  · intro h k; rw [h, k] at x y; exact ⟨x, by simpa using y⟩
  · intro r rest h k l; rw [h, k, l] at x y; exact ⟨x, by simpa using y⟩
  · intro h l
    rw [h, l] at x y
    cases k : (s.cage c).requests <;> rw [k] at x y <;> exact ⟨x, by simpa using y⟩

/-- What the slots of both scanners do to a segment. -/
theorem startSlots_segments (w : State) (g : Seg) :
    (startSlot 1 (startSlot 0 w)).link g =
      { w.link g with scanner := ((startSlot 1 (startSlot 0 w)).link g).scanner } ∧
    (((startSlot 1 (startSlot 0 w)).scanner g = w.scanner g ∧
        ((startSlot 1 (startSlot 0 w)).link g).scanner = (w.link g).scanner) ∨
      ((startSlot 1 (startSlot 0 w)).scanner g ≠ w.scanner g ∧ (w.scanner g).phase = .idle ∧
        (w.scanner g).slotTimer = none)) := by
  obtain ⟨a0, b0⟩ := startSlot_links 0 w g
  obtain ⟨a1, b1⟩ := startSlot_links 1 (startSlot 0 w) g
  refine ⟨by rw [a1, a0], ?_⟩
  rcases b0 with ⟨c0, d0⟩ | ⟨rfl, c0, d0, e0⟩ <;> rcases b1 with ⟨c1, d1⟩ | ⟨f1, c1, d1, e1⟩
  · exact .inl ⟨by rw [c1, c0], by rw [d1, d0]⟩
  · subst f1
    rw [c0] at c1 d1
    exact .inr ⟨fun h => (by rw [h, d1] at e1; cases e1), c1, d1⟩
  · exact .inr ⟨fun h => (by rw [← c1, h, d0] at e0; cases e0), c0, d0⟩
  · cases f1

/-- What the requests handed over and the slots of the scanners do to a segment. -/
theorem beforeGrants_segments (s : State) (g : Seg) :
    ∃ v, beforeTest s = grantSegment 1 (grantSegment 0 v) ∧
    v.link g = { s.link g with crsSlots := (v.link g).crsSlots, scanner := (v.link g).scanner } ∧
    ((v.scanner g = s.scanner g ∧ (v.link g).scanner = (s.link g).scanner) ∨
      (v.scanner g ≠ s.scanner g ∧ (s.scanner g).phase = .idle ∧
        (s.scanner g).slotTimer = none)) := by
  refine ⟨_, rfl, ?_⟩
  have l : (endAdopting s).link g = s.link g := by simp [State.link]
  generalize hw : allCages.foldl pumpCage (endAdopting s) = w
  have p : w.link g = { s.link g with crsSlots := (w.link g).crsSlots } := by
    subst hw; rw [pumpAll_link, l]
  have q : w.scanner g = s.scanner g := by
    subst hw; simp [State.scanner, pumpAll_scan]
  obtain ⟨a, b⟩ := startSlots_segments w g
  have hs : (w.link g).scanner = (s.link g).scanner := by rw [p]
  rw [q, hs] at b
  exact ⟨by rw [a, p], b⟩

theorem seg_cases (g : Seg) : g = 0 ∨ g = 1 := by revert g; decide

theorem finish_segments (s : State) (g : Seg) : SegmentWorked s (finish s) g := by
  obtain ⟨p, _, q⟩ := runDueTest_frame (beforeTest s)
  have hl : (finish s).link g = (beforeTest s).link g := by rw [finish_eq]; simp [State.link, p]
  have hn : (finish s).scanner g = (beforeTest s).scanner g := by rw [finish_eq]; simp [State.scanner, q]
  obtain ⟨v, hv, a, b⟩ := beforeGrants_segments s g
  have one : ∀ h, h ≠ g → ∀ u : State, (grantSegment h u).link g = u.link g := by
    intro h n u
    rcases grantSegment_links h u with e | ⟨_, slot, r, _, _, e⟩
    · rw [e]
    · rw [e]; exact link_updLink_other _ _ _ _ (fun z => n z.symm)
  have cases_g : (∃ u, u.link g = v.link g ∧ (beforeTest s).link g = (grantSegment g u).link g) := by
    rw [hv]
    rcases seg_cases g with rfl | rfl
    · exact ⟨v, rfl, one 1 (by decide) _⟩
    · exact ⟨grantSegment 0 v, one 0 (by decide) _, rfl⟩
  have sc : (beforeTest s).scanner g = v.scanner g := by
    rw [hv]; simp [State.scanner]
  have st : (v.link g).state = (s.link g).state := by rw [a]
  have ps : (v.link g).passThrough = (s.link g).passThrough := by rw [a]
  rw [sc] at hn
  obtain ⟨u, e, f⟩ := cases_g
  rw [f] at hl
  have scan : (finish s).scanner g = s.scanner g ∨
      ((s.scanner g).phase = .idle ∧ (s.scanner g).slotTimer = none) := by
    rcases b with ⟨x, _⟩ | ⟨_, x⟩
    · exact .inl (by rw [hn, x])
    · exact .inr x
  rcases grantSegment_links g u with h | ⟨i, slot, r, _, k, h⟩
  · rw [h, e] at hl
    refine ⟨fun _ => by rw [hl]; exact a, fun i j => ?_, .inl (by rw [hl, ps]), scan, ?_⟩
    · rw [hl, st] at j; exact absurd i j
    · intro z
      rcases b with ⟨_, x⟩ | ⟨x, _⟩
      · exact .inl (by rw [hl, x])
      · rw [hn] at z; exact absurd z x
  · rw [e] at k i
    rw [st] at i
    rw [h, link_updLink, e] at hl
    have go : ((finish s).link g).state = .chunk := by rw [hl]; rfl
    refine ⟨?_, ?_, ?_, scan, ?_⟩
    · rintro (z | z)
      · exact absurd i z
      · rw [go] at z; cases z
    · intro _ _
      refine ⟨slot, r, ?_, go, by rw [hl]; rfl, by rw [hl]; rfl, by rw [hl]; rfl, by rw [hl]; rfl⟩
      rw [hl]
      cases slot <;> simp [Link.grant, Link.inSlot, Link.setSlot]
    · rw [hl]
      cases slot with
      | crs c => exact .inl (by rw [← ps]; rfl)
      | scanner => exact .inl (by rw [← ps]; rfl)
      | passThrough =>
        refine .inr ⟨i, ?_⟩
        have k : (v.link g).passThrough = some r := k
        rw [← ps, k]; rfl
    · intro z
      rcases b with ⟨_, x⟩ | ⟨x, _⟩
      · rw [hl]
        cases slot with
        | crs c => exact .inl (by rw [← x]; rfl)
        | passThrough => exact .inl (by rw [← x]; rfl)
        | scanner =>
          refine .inr ⟨i, ?_⟩
          have k : (v.link g).scanner = some r := k
          rw [← x, k]; rfl
      · rw [hn] at z; exact absurd z x

theorem RequestsHanded.next {u t : State} {c : Cage} (h : RequestsHanded u t c) :
    RequestsHanded u t.nextChoice c where
  full := h.full
  empty := h.empty
  handed := h.handed
  absent := h.absent

theorem SegmentWorked.next {u t : State} {g : Seg} (h : SegmentWorked u t g) :
    SegmentWorked u t.nextChoice g where
  busy := h.busy
  granted := h.granted
  pass := h.pass
  scanner := h.scanner
  scan := h.scan

/-- The end of an event, with a choice more made, is what an event ends with. -/
theorem finish_endsAs (s : State) : EndsAs s (finish s).nextChoice := by
  have exact := finish_of_settled (s := s)
  have same := finish_work s
  have choices := finish_openChoices s
  have tested := finish_tested s
  have requests := finish_requests s
  have segments := finish_segments s
  generalize finish s = t at *
  exact
    { same := same.trans (nextChoice_same _)
      choices := by simp [State.nextChoice, choices]
      exact := fun k => by rw [exact k]
      untested := tested.1
      tested := tested.2
      requests := fun c => (requests c).next
      segments := fun g => (segments g).next }

/-- An event that occurs where no reset holds the part: its effect, and then the work that is due. -/
theorem eventNext_occurs {occurs : Bool} {effect : State → State} {s : State}
    (h : s.startup.resetHeld = false) (o : occurs = true) :
    ∃ t, eventNext occurs effect s = .next t ∧ EndsAs (effect s) t :=
  ⟨(finish (effect s)).nextChoice, by simp [eventNext, event, h, o], finish_endsAs _⟩

/-- An event that does not occur, or comes while a reset holds the part, leaves the state as it is. -/
theorem eventNext_idle {occurs : Bool} {effect : State → State} {s : State}
    (h : s.startup.resetHeld = true ∨ occurs = false) :
    eventNext occurs effect s = .next s := by
  rcases h with h | h <;> simp [eventNext, event, h]

/-- Every event answers a next state: the state itself, or its effect with the end of an event. -/
theorem eventNext_cases {occurs : Bool} {effect : State → State} {s : State}
    {o : Host.Outcome State Fault Refusal} (h : eventNext occurs effect s = o) :
    o = .next s ∨
    (s.startup.resetHeld = false ∧ occurs = true ∧ o = .next (finish (effect s)).nextChoice) := by
  subst h
  unfold eventNext event
  split
  · next a => exact .inr ⟨a.1, a.2, rfl⟩
  · exact .inl rfl

end Sys2Proof.Machine
end

