-- ==== Sys2Proof/Laws/Cage.lean ====
section
/-! SUPPORT. What the operations of the sequencer do: which state they leave their cage in, and that they
leave every other cage alone. -/

namespace Sys2Proof.Machine

/-! ### Records after the frames -/

theorem cage_congr {s t : State} (h : t.cages = s.cages) (k : Cage) : t.cage k = s.cage k := by
  simp [State.cage, h]

theorem line_congr {s t : State} (h : t.lines = s.lines) (k : Cage) : t.line k = s.line k := by
  simp [State.line, h]

theorem penalty_congr {s t : State} (h : t.penalties = s.penalties) (k : Cage) :
    t.penalty k = s.penalty k := by
  simp [State.penalty, h]

theorem claim_congr {s t : State} (h : t.claims = s.claims) (k : Cage) : t.claim k = s.claim k := by
  simp [State.claim, h]

theorem cageScan_congr {s t : State} (h : t.scan.cages = s.scan.cages) (k : Cage) :
    t.cageScan k = s.cageScan k := by
  simp [State.cageScan, h]

/-! ### One cage alone -/

theorem OnlyCage.refl (c : Cage) (s : State) : OnlyCage c s s := by
  constructor <;> intros <;> first | rfl | exact ⟨rfl, rfl⟩ | exact ⟨rfl, rfl, rfl⟩

theorem OnlyCage.trans {c : Cage} {s t u : State} (h : OnlyCage c s t) (k : OnlyCage c t u) :
    OnlyCage c s u where
  pending := k.pending.trans h.pending
  startup := by rw [k.startup, h.startup]
  lines j n := (k.lines j n).trans (h.lines j n)
  cages j n := by rw [k.cages j n, h.cages j n]
  claims j n := by rw [k.claims j n, h.claims j n]
  claimUnit := by
    obtain ⟨a, b, d⟩ := h.claimUnit
    obtain ⟨a', b', d'⟩ := k.claimUnit
    exact ⟨a'.trans a, b'.trans b, d'.trans d⟩
  bus := by rw [k.bus, h.bus]
  peers := k.peers.trans h.peers
  penalties j n := (k.penalties j n).trans (h.penalties j n)
  decay := k.decay.trans h.decay
  scans j n := (k.scans j n).trans (h.scans j n)
  converter := ⟨k.converter.1.trans h.converter.1, k.converter.2.trans h.converter.2⟩
  service := k.service.trans h.service
  histories j n := (k.histories j n).trans (h.histories j n)

/-- The work at the end of an event touches no cage but in its requests and its claim's QUEUED state. -/
theorem SameOutsideWork.onlyCage {s t : State} (h : SameOutsideWork s t) (c : Cage) :
    OnlyCage c s t where
  pending := h.pending
  startup := h.startup
  lines k _ := line_congr h.lines k
  cages k _ := h.cages k
  claims k _ := h.claims k
  claimUnit := by rw [h.claimUnit]; exact ⟨rfl, rfl, rfl⟩
  bus := h.bus
  peers := h.peers
  penalties k _ := penalty_congr h.penalties k
  decay := by rw [h.penalties]
  scans k _ := cageScan_congr (by rw [h.scan]) k
  converter := by rw [h.scan]; exact ⟨rfl, rfl⟩
  service := h.service
  histories k _ := by simp [h.events]

theorem updCage_onlyCage (c : Cage) (f : CageRecord → CageRecord) (s : State) :
    OnlyCage c s (s.updCage c f) := by
  constructor <;> intros <;> first | rfl | exact ⟨rfl, rfl⟩ | exact ⟨rfl, rfl, rfl⟩ | skip
  rename_i k n
  simp [cage_updCage_other _ _ _ _ n]

theorem updLines_onlyCage (c : Cage) (f : CageLines → CageLines) (s : State) :
    OnlyCage c s (s.updLines c f) := by
  constructor <;> intros <;> first | rfl | exact ⟨rfl, rfl⟩ | exact ⟨rfl, rfl, rfl⟩ | skip
  rename_i k n
  simp [line_updLines_other _ _ _ _ n]

theorem updClaim_onlyCage (c : Cage) (f : Claim → Claim) (s : State) :
    OnlyCage c s (s.updClaim c f) := by
  constructor <;> intros <;> first | rfl | exact ⟨rfl, rfl⟩ | exact ⟨rfl, rfl, rfl⟩ | skip
  rename_i k n
  simp [claim_updClaim_other _ _ _ _ n]

theorem updPenalty_onlyCage (c : Cage) (f : CagePenalty → CagePenalty) (s : State) :
    OnlyCage c s (s.updPenalty c f) := by
  constructor <;> intros <;> first | rfl | exact ⟨rfl, rfl⟩ | exact ⟨rfl, rfl, rfl⟩ | skip
  rename_i k n
  simp [penalty_updPenalty_other _ _ _ _ n]

theorem updScan_onlyCage (c : Cage) (f : CageScan → CageScan) (s : State) :
    OnlyCage c s (s.updScan c f) := by
  constructor <;> intros <;> first | rfl | exact ⟨rfl, rfl⟩ | exact ⟨rfl, rfl, rfl⟩ | skip
  rename_i k n
  simp [cageScan_updScan_other _ _ _ _ n]

/-- A change of the claim unit that keeps the claims, the ceiling and Blind. -/
theorem updClaims_onlyCage (c : Cage) (f : ClaimUnit → ClaimUnit) (s : State)
    (h : (f s.claims).claims = s.claims.claims ∧ (f s.claims).ceiling = s.claims.ceiling ∧
      (f s.claims).blind = s.claims.blind ∧ (f s.claims).blindTimer = s.claims.blindTimer) :
    OnlyCage c s (s.updClaims f) := by
  obtain ⟨a, b, d, e⟩ := h
  constructor <;> intros <;> first | rfl | exact ⟨rfl, rfl⟩ | exact ⟨b, d, e⟩ | skip
  rename_i k n
  simp [State.claim, State.updClaims, a]

/-- A change of the transmit queue and the report-drop count alone. -/
theorem updBus_onlyCage (c : Cage) (f : BusUnit → BusUnit) (s : State)
    (h : f s.bus = { s.bus with txQueue := (f s.bus).txQueue,
                                reportDrop := (f s.bus).reportDrop }) :
    OnlyCage c s (s.updBus f) := by
  constructor <;> intros <;> first | rfl | exact ⟨rfl, rfl⟩ | exact ⟨rfl, rfl, rfl⟩ | exact h

theorem report_bus (b : BusUnit) (r : CageReport) (level : Nat) :
    b.report r level = { b with txQueue := (b.report r level).txQueue,
                                reportDrop := (b.report r level).reportDrop } := by
  unfold BusUnit.report BusUnit.countDrop
  repeat' split
  all_goals rfl

theorem releaseUp_bus (b : BusUnit) (amount : Nat) :
    b.releaseUp amount = { b with txQueue := (b.releaseUp amount).txQueue,
                                  reportDrop := (b.releaseUp amount).reportDrop } := by
  unfold BusUnit.releaseUp
  repeat' split
  · rfl
  · rfl
  · exact place_bus _ _

theorem handReport_onlyCage (c d : Cage) (s : State) : OnlyCage c s (handReport d s) := by
  unfold handReport
  exact updBus_onlyCage _ _ _ (report_bus _ _ _)

theorem setClaim_onlyCage (c : Cage) (st : ClaimState) (s : State) :
    OnlyCage c s (setClaim c st s) := updClaim_onlyCage ..

theorem dueTest_onlyCage (c : Cage) (s : State) : OnlyCage c s (dueTest s) :=
  updClaims_onlyCage _ _ _ ⟨rfl, rfl, rfl, rfl⟩

theorem releaseClaim_onlyCage (c : Cage) (s : State) : OnlyCage c s (releaseClaim c s) := by
  unfold releaseClaim
  dsimp only
  refine OnlyCage.trans ?_ (updBus_onlyCage c _ _ (releaseUp_bus _ _))
  exact (setClaim_onlyCage c .none s).trans (updClaims_onlyCage c _ _ ⟨rfl, rfl, rfl, rfl⟩)

theorem leaveList_onlyCage (c : Cage) (s : State) : OnlyCage c s (leaveList c s) :=
  (updClaim_onlyCage c _ s).trans (dueTest_onlyCage c _)

theorem joinList_onlyCage (c : Cage) (draw : Nat) (s : State) :
    OnlyCage c s (joinList c draw s) := (updClaim_onlyCage c _ s).trans (dueTest_onlyCage c _)

theorem abandonIntent_onlyCage (c : Cage) (e : OwnIntent) (s : State) (h : e.cage = c) :
    OnlyCage c s (abandonIntent e s) := by
  unfold abandonIntent
  split
  · exact updClaims_onlyCage _ _ _ ⟨rfl, rfl, rfl, rfl⟩
  · unfold cancelIntent
    rw [h]
    refine OnlyCage.trans ?_ (dueTest_onlyCage c _)
    refine OnlyCage.trans ?_ (setClaim_onlyCage c _ _)
    exact (updBus_onlyCage c _ s rfl).trans (updClaims_onlyCage c _ _ ⟨rfl, rfl, rfl, rfl⟩)

theorem disposeClaim_onlyCage (c : Cage) (s : State) : OnlyCage c s (disposeClaim c s) := by
  unfold disposeClaim
  split
  · exact .refl c s
  · exact releaseClaim_onlyCage c s
  all_goals
    split
    · next e h => exact abandonIntent_onlyCage c e s (by simpa using List.find?_some h)
    · exact .refl c s

theorem claimHandOff_onlyCage (c : Cage) (old new : CageState) (s : State) :
    OnlyCage c s (claimHandOff c old new s) := by
  unfold claimHandOff
  split
  · exact .refl c s
  · exact .refl c s
  · exact (leaveList_onlyCage c s).trans (disposeClaim_onlyCage c _)
  · exact releaseClaim_onlyCage c s
  · exact .refl c s
  · exact disposeClaim_onlyCage c s
  · exact disposeClaim_onlyCage c s
  · split
    · exact joinList_onlyCage c _ s
    · exact .refl c s
  · exact .refl c s

/-- A change of the arbiters and the scanners alone. -/
theorem updLink_onlyCage (c : Cage) (g : Seg) (f : Link → Link) (s : State) :
    OnlyCage c s (s.updLink g f) := (updLink_work s g f).onlyCage c

theorem updScanner_onlyCage (c : Cage) (g : Seg) (f : Scanner → Scanner) (s : State) :
    OnlyCage c s (s.updScanner g f) := (updScanner_work s g f).onlyCage c

theorem discardScan_onlyCage (c : Cage) (g : Seg) (s : State) :
    OnlyCage c s (discardScan g s) := by
  unfold discardScan
  repeat' split
  · exact updScanner_onlyCage c g _ s
  · exact (updScanner_onlyCage c g _ s).trans (updLink_onlyCage c g _ _)
  · exact updScanner_onlyCage c g _ s

theorem dropScanOf_onlyCage (c d : Cage) (s : State) : OnlyCage c s (dropScanOf d s) := by
  unfold dropScanOf
  split
  · exact discardScan_onlyCage c _ s
  · exact .refl c s

theorem withdrawCrs_onlyCage (c d : Cage) (s : State) : OnlyCage c s (withdrawCrs d s) := by
  unfold withdrawCrs
  repeat' split
  · exact updLink_onlyCage c _ _ s
  · exact updLink_onlyCage c _ _ s
  · exact .refl c s

theorem emptyRequests_onlyCage (c : Cage) (s : State) : OnlyCage c s (emptyRequests c s) :=
  (updCage_onlyCage c _ s).trans (withdrawCrs_onlyCage c c _)

theorem nameSource_onlyCage (c : Cage) (st : CageState) (s : State) :
    OnlyCage c s (nameSource c st s) := by
  unfold nameSource
  split
  · exact updLines_onlyCage c _ s
  · exact .refl c s

theorem moveCage_onlyCage (c : Cage) (new : CageState) (cause : FaultCause) (s : State) :
    OnlyCage c s (moveCage c new cause s) := by
  unfold moveCage
  dsimp only
  have ite : ∀ (p : Prop) [Decidable p] (u v : State), OnlyCage c s u → OnlyCage c s v →
      OnlyCage c s (if p then u else v) := by
    intro p _ u v a b
    split <;> assumption
  have h1 := claimHandOff_onlyCage c (s.cage c).state new s
  have h2 := ite (new.powered) _ _ h1 (h1.trans (dropScanOf_onlyCage c c _))
  have h3 := ite (new.emptiesList) _ _ (h2.trans (emptyRequests_onlyCage c _)) h2
  have h4 := h3.trans (nameSource_onlyCage c new _)
  have h5 := fun k => h4.trans (updCage_onlyCage c (CageRecord.move new cause k) _)
  have h6 := fun k =>
    ite (new = .vacant) _ _ ((h5 k).trans (updScan_onlyCage c CageScan.vacated _)) (h5 k)
  exact ite _ _ _ (h6 _) ((h6 _).trans (handReport_onlyCage c c _))

theorem handRecord_onlyCage (c : Cage) (kind : EventKind) (before : CageState)
    (cause : Option FaultCause) (s : State) : OnlyCage c s (handRecord c kind before cause s) := by
  constructor <;> intros <;> first | rfl | exact ⟨rfl, rfl⟩ | exact ⟨rfl, rfl, rfl⟩ | skip
  rename_i k n
  exact modifyAt_other _ _ _ _ n

/-! ### The cage that moves -/

@[simp] theorem underSequencer_cages (s : State) (c d : Cage) (f : CageRecord → CageRecord) :
    (s.updCage d f).underSequencer c = s.underSequencer c := rfl

/-- The lines after a source has been named. -/
theorem nameSource_line (c : Cage) (st : CageState) (s : State) :
    (nameSource c st s).line c =
      match st.names with
      | some n => (s.line c).take n
      | none => s.line c := by
  unfold nameSource
  split <;> simp_all

/-- The cage's lines after its move: the source that R1 names for the new state. -/
theorem moveCage_line (c : Cage) (new : CageState) (cause : FaultCause) (s : State) :
    (moveCage c new cause s).line c =
      match new.names with
      | some n => (s.line c).take n
      | none => s.line c := by
  unfold moveCage
  dsimp only
  have l0 : (claimHandOff c (s.cage c).state new s).line c = s.line c := line_congr (by simp) c
  have l1 : ∀ u : State, (dropScanOf c u).line c = u.line c := fun u => line_congr (by simp) c
  have l2 : ∀ u : State, (emptyRequests c u).line c = u.line c := fun u => line_congr (by simp) c
  have l3 : ∀ u : State, (handReport c u).line c = u.line c := fun u => line_congr (by simp) c
  have h : ∀ u : State, u.line c = s.line c → (nameSource c new u).line c =
      match new.names with
      | some n => (s.line c).take n
      | none => s.line c := fun u e => by rw [nameSource_line, e]
  split_ifs <;> simp only [l3, line_updCage, line_updScan] <;> apply h <;>
    simp only [l0, l1, l2]

/-- The cage's record after its move (R3, R4, R7, R8, R9, R11). -/
theorem moveCage_cage (c : Cage) (new : CageState) (cause : FaultCause) (s : State) :
    (moveCage c new cause s).cage c =
      CageRecord.move new cause
        (entryTimers s.conf (decide (((moveCage c new cause s).line c).source = .sequencer))
          s.openChoices new)
        { s.cage c with requests := if new.emptiesList then [] else (s.cage c).requests } := by
  rw [moveCage_line]
  unfold moveCage
  dsimp only
  have k0 : (claimHandOff c (s.cage c).state new s).cage c = s.cage c := cage_congr (by simp) c
  have k1 : ∀ u : State, (dropScanOf c u).cage c = u.cage c := fun u => cage_congr (by simp) c
  have k2 : ∀ u : State, (emptyRequests c u).cage c = { u.cage c with requests := [] } := by
    intro u
    have : (emptyRequests c u).cage c =
        (u.updCage c (fun k => { k with requests := [] })).cage c := cage_congr (by simp [emptyRequests]) c
    rw [this, cage_updCage]
  have k3 : ∀ u : State, (handReport c u).cage c = u.cage c := fun u => cage_congr (by simp) c
  have k4 : ∀ u : State, (nameSource c new u).cage c = u.cage c := fun u => cage_congr (by simp) c
  have c0 : ∀ u : State, u.startup = s.startup → u.conf = s.conf := by
    intro u e
    simp [State.conf, e]
  have o0 : ∀ u : State, u.openChoices = s.openChoices → u.openChoices = s.openChoices := fun _ e => e
  have l0 : (claimHandOff c (s.cage c).state new s).line c = s.line c := line_congr (by simp) c
  have l1 : ∀ u : State, (dropScanOf c u).line c = u.line c := fun u => line_congr (by simp) c
  have l2 : ∀ u : State, (emptyRequests c u).line c = u.line c := fun u => line_congr (by simp) c
  have hl : ∀ u : State, u.line c = s.line c → (nameSource c new u).underSequencer c =
      decide ((match new.names with
      | some n => (s.line c).take n
      | none => s.line c).source = .sequencer) := by
    intro u e
    simp only [State.underSequencer, nameSource_line, e]
  split_ifs <;>
    simp only [k3, cage_updScan, cage_updCage, k4, k0, k1, k2] <;>
    (rw [c0 _ (by simp), hl _ (by simp only [l0, l1, l2]), o0 _ (by simp)])

/-! ### The init waits that expire together (R14, R159) -/

@[simp] theorem CageTimers.startInit_initWait (now : Nat) (t : CageTimers) :
    (t.startInit now).initWait = some 2000 := rfl

@[simp] theorem CageTimers.startInit_initStart (now : Nat) (t : CageTimers) :
    (t.startInit now).initStart = now := rfl

@[simp] theorem CageTimers.stopInit_initWait (t : CageTimers) : t.stopInit.initWait = none := rfl

@[simp] theorem CageTimers.stopInit_initStart (t : CageTimers) : t.stopInit.initStart = 0 := rfl

/-- The record of a cage whose init wait has expired: one read counted and asked for. -/
def CageRecord.initEnded (k : CageRecord) : CageRecord :=
  { k with
    timers := k.timers.stopInit, identReads := 1,
    requests := addRequest ⟨.identityRead, 0, k.visit⟩ k.requests }

/-- The expiry of one init wait changes its cage's record alone. -/
theorem initWaitEnds_eq (s : State) (c : Cage) : initWaitEnds s c = s.updCage c CageRecord.initEnded := by
  simp only [initWaitEnds, readIdentity, ask, State.updCage, modifyAt]
  simp [CageRecord.initEnded]

/-- What a fold of init waits that expire leaves of each cage's record. -/
theorem foldl_initWaitEnds_cage (cs : List Cage) (s : State) (d : Cage) (h : cs.Nodup) :
    (cs.foldl initWaitEnds s).cage d =
      if d ∈ cs then (s.cage d).initEnded else s.cage d := by
  induction cs generalizing s with
  | nil => simp
  | cons c cs ih =>
    rw [List.foldl_cons, ih _ (List.nodup_cons.mp h).2, initWaitEnds_eq]
    by_cases e : d = c
    · subst e
      simp [(List.nodup_cons.mp h).1]
    · simp [cage_updCage_other _ _ _ _ e, e]

/-- The expiry of a cage's init wait ends every init wait started with it, and touches no other cage. -/
theorem initWaitsEnd_cage (c d : Cage) (s : State) :
    (initWaitsEnd c s).cage d =
      if d ∈ s.startedWith c then (s.cage d).initEnded else s.cage d :=
  foldl_initWaitEnds_cage _ s d ((List.nodup_finRange 16).filter _)

/-- The expiry of init waits changes nothing but the records of cages. -/
theorem initWaitsEnd_rest (c : Cage) (s : State) :
    initWaitsEnd c s = { s with cages := (initWaitsEnd c s).cages } := by
  have h : ∀ (cs : List Cage) (u : State),
      cs.foldl initWaitEnds u = { u with cages := (cs.foldl initWaitEnds u).cages } := by
    intro cs
    induction cs with
    | nil => intro u; rfl
    | cons d cs ih =>
      intro u
      rw [List.foldl_cons, ih, initWaitEnds_eq]
      simp [State.updCage]
  exact h _ s

end Sys2Proof.Machine
end

