-- ==== Sys2Proof/WellFormed.lean ====
section
/-! DEFINITION. The well-formed commands: those whose operands fit the event they stand for. -/

namespace Sys2Proof

/-- A read of the configuration image brings 96 bytes (R181). -/
def imageFits (image : List Byte) : Bool := image.length = 96

/-- A chunk carries at most 8 bytes (R118). -/
def chunkFits (data : List Byte) : Bool := decide (data.length ≤ 8)

/-- A frame's payload has the length its length field gives, at most 8 bytes (Table 3-2). -/
def frameFits (f : RawFrame) : Bool :=
  decide (f.payload.length = f.length.toNat) && decide (f.payload.length ≤ 8)

/-- A MODULE-WRITE carries 1 to 4 data bytes (Table 8-1). -/
def writeFits (data : List Byte) : Bool := decide (1 ≤ data.length) && decide (data.length ≤ 4)

/-- Whether a command is well formed.  Every other operand fits its event by its type; an argument of a
request outside its range is the service unit's to answer (R163). -/
def Instr.wf : Instr → Bool
  | .spiReadEnd image => imageFits image
  | .chunkDone _ data => chunkFits data
  | .goodReception frame => frameFits frame
  | .moduleWrite _ _ data => writeFits data
  | _ => true

end Sys2Proof
end

