-- ==== Sys2Proof/Tests/Slice0.lean ====
section
/-! SUPPORT. Tests: the well-formedness smoke tests, the spec's own worked values, one step of each command
on a small state, and for each statement of Obligations.lean with hypotheses a state and operands that
meet them. -/

namespace Sys2Proof.Tests

set_option Elab.async false

open Sys2Proof Sys2Proof.Machine

/-! ### Small states -/

/-- The state a command leaves. -/
def after (i : Instr) (s : State) : State :=
  match exec i s with
  | .next t => t
  | .fault _ => s
  | .refused _ => s

/-- RUNNING under the defaults of profile 0, as station 5, with a module present in every cage and every
line under SEQUENCER. -/
def base : State :=
  { State.reset with
    startup := { State.reset.startup with
      resetHeld := false, runState := .running, loadPhase := .done, station := 5,
      settings := some (profileSettings 0) },
    lines := Vector.replicate 16 { resetLines true false with
      present := true, source := .sequencer },
    bus := { resetBus with announce := some 0 },
    penalties := { State.reset.penalties with decay := some 0 },
    scan := { State.reset.scan with converting := true } }

/-- An identity record of 4 lanes and 25.0 W, and the surge draw the spec gives it (section 1.4.2). -/
def someId : Identity := ⟨4, 250, List.replicate 16 7, 375⟩

/-- A cage in a state, with the timers of its entry. -/
def at_ (c : Cage) (st : CageState) (s : State) : State :=
  s.updCage c (fun k => { k with
    state := st, timers := entryTimers (profileSettings 0) true 0 st, identity := some someId,
    cause := if st = .faulted then .noLight else .none })

/-- PRESENT about to be taken as asserted or not. -/
def presentTo (c : Cage) (level : Bool) (s : State) : State :=
  s.updLines c (fun l => { l with presentRaw := level, present := !level, presentHold := some 0 })

/-- LINK_UP about to be taken as asserted or not. -/
def linkTo (c : Cage) (level : Bool) (s : State) : State :=
  s.updLines c (fun l => { l with linkRaw := level, link := !level, linkHold := some 0 })

/-- A penalty set. -/
def penaltyTo (c : Cage) (p : Nat) (s : State) : State := s.updPenalty c (fun r => { r with value := p })

/-- A training retry count set. -/
def retriesTo (c : Cage) (n : Nat) (s : State) : State := s.updCage c (fun k => { k with trainRetries := n })

/-- A request in a slot, with a chunk of it in progress on segment A. -/
def tryOf (slot : Slot) (r : LinkRequest) (k : Chunk) (s : State) : State :=
  (putRequest 0 slot r s).updLink 0 (fun l => { l with state := .chunk, chunk := some k,
                                                       selected := some k.cage })

/-- The CRS request of cage 0 of a kind, in the present visit. -/
def askOf (kind : CrsKind) : CrsRequest := ⟨kind, 0, 0⟩

/-- The request and the last chunk of an identity read of cage 0, with 24 bytes read. -/
def idRead (bytes : List Byte) : LinkRequest :=
  { crsTransaction 0 (askOf .identityRead) with
    nextChunk := 4, bytes := bytes.take 24, granted := true }

/-- The last chunk of an identity read of cage 0. -/
def idChunk (n : Nat) : Chunk :=
  { slot := .crs 0, cage := 0, address := 24, length := 8, isWrite := false, data := [], tryNo := n,
    ending := .none }

/-- Cage 0 in IDENTIFY at the last chunk of its identity read. -/
def identifying (reads n : Nat) (bytes : List Byte) : State :=
  tryOf (.crs 0) (idRead bytes) (idChunk n)
    (base.updCage 0 (fun k => { k with state := .identify, identReads := reads }))

/-- An identity block with a lane count and a Pm, its check byte good. -/
def block (lanes pm : Nat) : List Byte :=
  let b := [0, 0, byteOf lanes, highByte pm, lowByte pm] ++ List.replicate 16 7 ++
    List.replicate 10 0
  b ++ [byteOf (byteSum b)]

/-- The transmit queue set. -/
def sending (q : List TxFrame) (s : State) : State := s.updBus (fun b => { b with txQueue := q })

/-- A frame under attempt. -/
def underway (level : Nat) (body : FrameBody) : TxFrame := ⟨level, body, .attempting, none⟩

/-- The bus health and the two error counts set. -/
def busAt (h : BusHealth) (tx rx gaps : Nat) (s : State) : State :=
  s.updBus (fun b => { b with health := h, txErrors := tx, rxErrors := rx, gapCount := gaps })

/-- The budget receive queue set. -/
def heard (q : List Frame) (s : State) : State := s.updBus (fun b => { b with budgetQueue := q })

/-- A peer entry set. -/
def peerTo (n : Station) (st : PeerStatus) (total age : Nat) (intents : List PeerIntent)
    (s : State) : State :=
  s.updPeer n (fun e => { e with status := st, confirmed := total, age := age, intents := intents })

/-- Cage 0 in ADMIT-WAIT with its intent's window open, its INTENT of tag 3 sent. -/
def windowOpen (withdraw : Bool) : State :=
  ((at_ 0 .admitWait base).updClaim 0 (fun k =>
    { k with state := .pending, draw := 375, listed := true })).updClaims (fun u =>
    { u with intents := [⟨3, 0, 375, 16, some 0, none, withdraw⟩] })

/-- The service unit in a phase with a request. -/
def servicing (phase : ServicePhase) (r : Request) (s : State) : State :=
  { s with service := ⟨phase, some r, some 100⟩ }

/-- A run state set. -/
def runs (r : RunState) (ticks : Nat) (s : State) : State :=
  s.updStartup (fun u => { u with runState := r, listenTicks := ticks })

/-- A population mask of no station: no peer counts an allowance. -/
def alone (s : State) : State :=
  s.updStartup (fun u => { u with settings := some { profileSettings 0 with population := 0 } })

/-- The REPLY codes and bytes that wait in the transmit queue. -/
def replies (s : State) : List (Byte × Byte × List Byte) :=
  s.bus.txQueue.filterMap (fun f =>
    match f.body with
    | .reply code result data => some (code, result, data)
    | _ => none)

/-! ### Well-formed commands -/

theorem test_wf_image : (Instr.spiReadEnd (List.replicate 95 0)).wf = false := by decide +kernel

theorem test_wf_chunk : (Instr.chunkDone 0 (List.replicate 9 0)).wf = false := by decide +kernel

theorem test_wf_frame : (Instr.goodReception ⟨0, 3, 2, [1], 0⟩).wf = false := by decide +kernel

theorem test_wf_frame_long :
    (Instr.goodReception ⟨0, 3, 9, List.replicate 9 0, 0⟩).wf = false := by decide +kernel

theorem test_wf_write_empty : (Instr.moduleWrite 0 4 []).wf = false := by decide +kernel

theorem test_wf_write_long : (Instr.moduleWrite 0 4 [1, 2, 3, 4, 5]).wf = false := by decide +kernel

theorem test_wf_good : (Instr.moduleWrite 0 4 [1, 2, 3, 4]).wf = true ∧
    (Instr.goodReception ⟨0, 3, 2, [1, 2], 0⟩).wf = true := by decide +kernel

/-- The table gives no row any bits, so no word spells a command. -/
theorem test_no_word : decodeTableWord 16 0 = none := by decide +kernel

/-! ### The spec's own values -/

/-- The check of the nine ASCII digits (section 3.3). -/
theorem test_crc_of_digits :
    crcOf (([0x31, 0x32, 0x33, 0x34, 0x35, 0x36, 0x37, 0x38, 0x39] : List Byte).flatMap fieldBits) =
      0x29B1#16 := by decide +kernel

/-- The surge draws of section 1.4.2. -/
theorem test_surge_draws : surgeDraw 250 24 = 375 ∧ surgeDraw 123 24 = 185 ∧
    surgeDraw 1000 64 = 4000 ∧ surgeDraw 1 16 = 1 ∧ surgeDraw 7 24 = 11 := by decide +kernel

/-- The precedence values of section 3.2. -/
theorem test_precedence : precedenceValue 0 14 5 = 453 ∧ precedenceValue 1 31 5 = 2021 ∧
    precedenceValue 2 16 5 = 2565 ∧ precedenceValue 3 16 5 = 3589 := by decide +kernel

/-- The reply data of a READ-CAGE part 0 (section 8.3.1). -/
theorem test_read_cage_data :
    cageData ((at_ 3 .powerUp base).updClaim 3 (fun k =>
      { k with state := .confirmed, level := 14, draw := 375 })) 3 0 =
      [0x50, 0x6E, 0, 0, 1, 0x77] := by decide +kernel

/-- The conversion codes of section 6.4. -/
theorem test_draws_of_codes : (drawOfCode 100 671#10).value = 262 ∧
    (drawOfCode 100 633#10).value = 247 ∧ (drawOfCode 100 962#10).value = 375 ∧
    (drawOfCode 1023 1023#10).value = 4088 ∧ (drawOfCode 100 1023#10).saturated = true := by
  decide +kernel

/-- The decay rows of section 4.3.1. -/
theorem test_decay_rows : decayStep 6 3500 = 3446 ∧ decayStep 6 755 = 744 ∧
    decayStep 2 1108 = 831 ∧ decayStep 6 16383 = 16128 ∧ decayStep 6 64 = 63 ∧
    decayStep 6 127 = 126 ∧ decayStep 6 1 = 0 ∧ decayStep 6 0 = 0 := by decide +kernel

/-- The windows of section 6.3.1. -/
theorem test_stability_rows : windowStable 50 4 [1210, 1195, 1188, 1202] = true ∧
    windowStable 50 4 [0, 0, 0, 0] = false ∧ windowStable 50 4 [100, 103, 97, 100] = true ∧
    windowStable 50 4 [100, 104, 97, 100] = false ∧ windowStable 50 4 [52, 49, 50, 51] = true ∧
    windowStable 50 4 [1210, 1195, 1188] = false := by decide +kernel

/-- The image of section 10.7 with its faults, its check good. -/
def faultyImage : List Byte :=
  let b : List Byte := [0x62, 0x16, 0, 96, 0x0F, 0xA0, 0x13, 0x88] ++ List.replicate 4 0 ++
    [0, 30, 150, 10] ++ List.replicate 12 0 ++ [3, 0x20, 3, 0x84] ++ List.replicate 10 0 ++
    [40, 0, 0, 0] ++
    (List.finRange 16).flatMap (fun c : Cage =>
      if c = 5 then [0xC0, 12, 40] else if c = 9 then [0x80, 3, 40]
      else if c = 14 then [0xC0, 40, 40] else if c = 2 then [0x80, 16, 0] else [0x80, 16, 40])
  let check := (crcOf (b.flatMap fieldBits)).toNat
  b ++ [highByte check, lowByte check]

set_option maxRecDepth 100000 in
theorem test_image_check : imageGood faultyImage = true ∧ imageGood (faultyImage.set 40 1) = false := by
  decide +kernel

/-- The loaded values of section 10.7. -/
theorem test_image_clamps :
    let k := imageSettings faultyImage
    k.announce = 50 ∧ k.window = 100 ∧ k.surgeFactor = 16 ∧ k.unknownAllow = 4095 ∧
    k.suppress = 3000 ∧ k.reuse = 750 ∧ k.supervisor = 31 ∧ k.cages[2].maxWatts = 1 ∧
    k.cages[5].level = 7 ∧ k.cages[9].level = 8 ∧ k.cages[14].level = 7 ∧ k.budget = 4000 := by
  decide +kernel

/-- The backoff lengths of section 2.7.1, of station 9. -/
theorem test_backoff_lengths :
    [1, 2, 3, 4, 5].map (fun k => backoffLength 20 k 9) = [49, 89, 169, 329, 649] := by
  decide +kernel

/-- A span of twelve equal bits and its stuff bits, by R75. -/
theorem test_stuffing : stuff (List.replicate 12 false) =
    List.replicate 6 false ++ [true] ++ List.replicate 6 false ++ [true] := by decide +kernel

/-- The scan plan of Table 6-2 for 6 and for 8 lanes. -/
theorem test_scan_plan :
    scanPlan 6 = [(64, 3), (80, 8), (88, 8), (96, 8), (104, 8), (112, 8)] ∧
    scanPlan 8 = [(64, 3), (80, 8), (88, 8), (96, 8), (104, 8), (112, 8), (122, 8), (130, 4)] := by
  decide +kernel

/-! ### One step of each command -/

theorem test_power_on_reset :
    ((after .powerOnReset base).cage 3).state = .vacant ∧
    (after .powerOnReset base).startup.resetHeld = true := by decide +kernel

theorem test_pin_reset : (after .pinReset (at_ 0 .inService base)).outputs 0 = ⟨true, true, false⟩ := by
  decide +kernel

theorem test_reset_release :
    (after (.resetRelease 5 2) State.reset).startup.startDelay = some 13 ∧
    (after (.resetRelease 5 2) State.reset).startup.station = 5 := by decide +kernel

theorem test_station_time_wraps :
    (after .stationTimeTick (base.updStartup (fun u => { u with stationTime := 0xFFFFFFFF }))).startup.stationTime =
      0 := by decide +kernel

/-- LOADING with READ-1 under way. -/
def loading : State := after .startDelayExpiry (after (.resetRelease 5 2) State.reset)

theorem test_start_delay : loading.startup.loadPhase = .read1 := by decide +kernel

/-- READ-1 on the memory's lines (R181): not selected before it, and 3 bytes sent and 96 clocked in. -/
theorem test_memory_lines :
    (after (.resetRelease 5 2) State.reset).memorySelected = false ∧ loading.memorySelected = true ∧
    loading.spiRead.map SpiRead.sent = some [0x03, 0x00, 0x00] ∧
    loading.spiRead.map SpiRead.clocks = some (8 * (3 + 96)) := by decide +kernel

theorem test_spi_read_fails :
    (after (.spiReadEnd []) loading).startup.loadPhase = .read2 := by decide +kernel

theorem test_present_raw_change :
    ((after (.presentRawChange 2 false) base).line 2).presentHold = some 10 := by decide +kernel

theorem test_present_taken :
    ((after (.presentHoldExpiry 2 .inTry) (presentTo 2 true base)).cage 2).state = .debounce := by
  decide +kernel

theorem test_removal_taken :
    ((after (.presentHoldExpiry 2 .inTry) (presentTo 2 false (at_ 2 .train base))).cage 2).state =
      .vacant := by decide +kernel

theorem test_link_raw_change :
    ((after (.linkUpRawChange 2 true) base).line 2).linkHold = some 1 := by decide +kernel

theorem test_link_taken :
    ((after (.linkUpHoldExpiry 2) (linkTo 2 true (at_ 2 .darkWait base))).cage 2).state = .verify := by
  decide +kernel

theorem test_flap :
    ((after (.linkUpHoldExpiry 2) (linkTo 2 false (penaltyTo 2 2020 (at_ 2 .inService base)))).cage 2).state =
      .holdDown := by decide +kernel

/-- An alert read of 3 bytes from address 64 (R9). -/
theorem test_alert :
    ((after (.alertEdge 2) (at_ 2 .verify base)).crsSlot 2).map LinkRequest.length = some 3 := by
  decide +kernel

theorem test_alert_over :
    ((after (.alertDeassertion 2) (base.updLines 2 (fun l => { l with alert := true }))).line 2).alert = false := by
  decide +kernel

/-- Three conversions of section 6.4 in a row above 281 dW (code 740 is 115 dW at the default scale, so
the identity record here has a Pm of 100). -/
theorem test_overdraw :
    let s := ((at_ 0 .train base).updCage 0 (fun k => { k with identity := some ⟨4, 100, [], 150⟩ })).updScan 0
      (fun k => { k with overRun := 2 })
    ((after (.currentSenseConversion 740#10) s).cage 0).cause = .overdraw := by decide +kernel

theorem test_debounce :
    ((after (.debounceTimerExpiry 2) (at_ 2 .debounce base)).cage 2).timers.initWait = some 2000 := by
  decide +kernel

theorem test_init_wait :
    ((after (.initWaitExpiry 2) (at_ 2 .identify base)).crsSlot 2).map LinkRequest.length = some 32 := by
  decide +kernel

/-- Cages 2 and 5 in IDENTIFY with init waits of one start, cage 5 at the lower level, and cage 1 with one of
another start. -/
def initsTogether : State :=
  ((at_ 1 .identify (at_ 5 .identify (at_ 2 .identify base))).updCage 1 (fun k =>
    { k with timers := k.timers.startInit 7 })).updClaim 2 (fun k => { k with level := 17 })

/-- The end of the listen interval starts the init waits of two cages at one event, and at the expiry of one
of them both reads are presented: the lower level gets the first chunk (R159, R121). -/
theorem test_init_waits_together :
    let held := fun (c : Cage) (s : State) => (s.updCage c (fun k => { k with timers := noTimers })).updLines c
      (fun l => { l with source := .held, named := some .sequencer })
    let s := runs .listening 1 (held 2 (held 5 initsTogether))
    let t := after (.initWaitExpiry 2) (after .listenIntervalEnd s)
    ((t.link 0).chunk.map Chunk.slot) = some (.crs 5) ∧ (t.crsSlot 2).isSome = true ∧
    (t.cage 2).identReads = 1 ∧ (t.cage 1).identReads = 0 := by decide +kernel

theorem test_poll :
    ((after (.pollTimerExpiry 2) (at_ 2 .powerUp base)).crsSlot 2).map LinkRequest.address = some 64 := by
  decide +kernel

theorem test_ready_timeout :
    ((after (.readyTimerExpiry 2) (at_ 2 .powerUp base)).cage 2).cause = .readyTimeout := by
  decide +kernel

theorem test_settle_timeout :
    ((after (.settleTimerExpiry 2) (at_ 2 .relight base)).cage 2).cause = .noLight := by decide +kernel

theorem test_train_timeout :
    ((after (.trainTimerExpiry 2) (retriesTo 2 3 (at_ 2 .train base))).cage 2).cause = .trainExhausted ∧
    ((after (.trainTimerExpiry 2) (retriesTo 2 2 (at_ 2 .train base))).cage 2).state = .train := by
  decide +kernel

theorem test_verify_ends :
    (after (.verifyTimerExpiry 2) (at_ 2 .verify base)).outputs 2 = ⟨false, false, true⟩ := by
  decide +kernel

/-- The identification of section 1.4.3: n = 4, Pm = 250. -/
theorem test_chunk_done :
    let t := after (.chunkDone 0 ((block 4 250).drop 24)) (identifying 3 1 (block 4 250))
    (t.cage 0).state = .admitWait ∧ (t.claim 0).draw = 375 := by decide +kernel

theorem test_chunk_nak :
    ((after (.chunkNak 0) (identifying 3 3 (block 4 250))).cage 0).cause = .identUnreadable ∧
    ((after (.chunkNak 0) (identifying 3 2 (block 4 250))).link 0).state = .retryWait := by
  decide +kernel

theorem test_retry_timer :
    ((after (.retryTimerExpiry 0) (after (.chunkNak 0) (identifying 3 1 (block 4 250)))).link 0).chunk.map
      Chunk.tryNo = some 2 := by decide +kernel

/-- A module holds the clock of segment A. -/
def stretched (s : State) : State := s.updLink 0 (fun l => { l with stretch := some 0 })

/-- The timeout ends the try where the stretch timer runs, and there alone (R124). -/
theorem test_stretch_timeout :
    ((after (.stretchTimeout 0) (stretched (identifying 2 1 (block 4 250)))).link 0).state = .recovery ∧
    ((after (.stretchTimeout 0) (identifying 2 1 (block 4 250))).link 0).state = .chunk := by
  decide +kernel

theorem test_recovery_ends :
    ((after (.recoverySequenceEnd 1) (base.updLink 1 (fun l => { l with state := .recovery }))).link 1).state =
      .idle := by decide +kernel

/-- A removal with a chunk of the cage's identity read in progress. -/
def removedInChunk : State :=
  after (.presentHoldExpiry 0 .inTry) (presentTo 0 false (identifying 1 1 (block 4 250)))

theorem test_removal_boundary :
    (removedInChunk.link 0).state = .chunk ∧
    ((after (.removalByteBoundary 0) removedInChunk).link 0).state = .idle ∧
    (after (.removalByteBoundary 0) removedInChunk).crsSlot 0 = none := by decide +kernel

/-- A segment whose chunk a Restart has ended. -/
def restartInChunk : State :=
  base.updLink 0 (fun l => { l with
    state := .chunk, chunk := some { idChunk 1 with ending := .restart }, selected := some 0 })

theorem test_restart_boundary :
    ((after (.restartChunkByteBoundary 0) restartInChunk).link 0).selected = none := by decide +kernel

theorem test_slot_timer :
    ((after (.slotTimerExpiry 0) ((at_ 3 .train base).updScanner 0 (fun n =>
      { n with slotTimer := some 0 }))).scanner 0).cursor = some ⟨3, 4, 0⟩ := by decide +kernel

/-- The INTENT at 453 goes before the STATUS at 2021 (section 3.4.1). -/
theorem test_attempt_start :
    ((after .txAttemptStart (sending [newFrame 31 blankStatus,
      newFrame 14 (.intent 3 6 375)] base)).bus.txQueue).map TxFrame.mark = [.waiting, .attempting] := by
  decide +kernel

/-- The RELEASE on the wire carries 375 while the release-pending amount is 555 (section 3.4.4). -/
theorem test_good_receipt :
    let s := (sending [underway 0 (.release 375)] base).updClaims (fun u =>
      { u with committed := 1180, releasePending := 555 })
    (after (.goodReceipt ⟨false, false⟩) s).claims.committed = 805 ∧
    (after (.goodReceipt ⟨false, false⟩) s).bus.txQueue = [newFrame 0 (.release 180)] := by
  decide +kernel

theorem test_lost_arbitration :
    (after .lostArbitration ((sending [underway 0 (.release 375)] base).updClaims (fun u =>
      { u with releasePending := 555 }))).bus.txQueue = [newFrame 0 (.release 555)] := by
  decide +kernel

/-- A transmit error count of 148 reaches 160 at the third error (section 3.8). -/
theorem test_transmit_error :
    (after (.transmitError .bit) (busAt .cautious 156 3 0
      (sending [underway 14 (.confirm 4 375)] base))).bus.health = .silent ∧
    (after (.transmitError .bit) (busAt .cautious 152 3 0
      (sending [underway 14 (.confirm 4 375)] base))).bus.health = .cautious := by decide +kernel

theorem test_receive_error :
    (after (.receiveError .form) (busAt .active 0 63 0 base)).bus.health = .cautious ∧
    (after (.receiveError .form) (busAt .active 0 63 0 base)).bus.lastError = .form := by decide +kernel

theorem test_good_reception :
    (after (.goodReception (encodeFrame ⟨2, 12, .intent 3 3 375⟩)) base).bus.budgetQueue =
      [⟨2, 12, .intent 3 3 375⟩] := by decide +kernel

theorem test_bus_seen_idle :
    (after .busSeenIdle (busAt .silent 160 0 0 base)).bus.health = .recovering := by decide +kernel

theorem test_recovery_gap :
    (after .recoveryGap (busAt .recovering 160 9 46 base)).bus.gapCount = 47 ∧
    (after .recoveryGap (busAt .recovering 160 9 47 base)).bus.health = .active := by decide +kernel

theorem test_recovery_gap_count :
    (after .recoveryGapCountReached (busAt .recovering 160 9 47 base)).bus.txErrors = 0 := by
  decide +kernel

theorem test_announce :
    ((after .announceTick (peerTo 2 .present 300 3 [] base)).peer 2).status = .aged := by decide +kernel

theorem test_listen_end :
    (after .listenIntervalEnd (runs .listening 1 base)).startup.runState = .running := by decide +kernel

theorem test_peer_aged :
    ((after (.peerEntryAged 2) (peerTo 2 .present 300 3 [] base)).peer 2).age = 4 := by decide +kernel

/-- An Unknown station's INTENT: the unknown allowance of profile 0 is its total (R67). -/
theorem test_apply_intent :
    (after .applyIntent (heard [⟨2, 12, .intent 1 3 375⟩] base)).peer 2 =
      { unknownPeer with status := .present, confirmed := 200, intents := [⟨3, 375, 12, 0⟩] } := by
  decide +kernel

theorem test_apply_confirm :
    (after .applyConfirm (heard [⟨2, 12, .confirm 3 375⟩]
      (peerTo 2 .present 400 0 [⟨3, 375, 12, 9⟩] base))).peer 2 =
      { unknownPeer with status := .present, confirmed := 775 } := by decide +kernel

theorem test_apply_withdraw :
    (after .applyWithdraw (heard [⟨2, 12, .withdraw 3 375⟩]
      (peerTo 2 .present 400 0 [⟨3, 375, 12, 9⟩] base))).peer 2 =
      { unknownPeer with status := .present, confirmed := 400 } := by decide +kernel

theorem test_apply_release :
    ((after .applyRelease (heard [⟨2, 0, .release 500⟩] (peerTo 2 .present 400 2 [] base))).peer 2).confirmed =
      0 := by decide +kernel

theorem test_apply_status :
    (after .applyStatus (heard [⟨2, 31, .status ⟨1125, [4], .running, .active, 3⟩⟩]
      (peerTo 2 .aged 400 4 [⟨3, 375, 12, 9⟩, ⟨4, 750, 9, 1⟩] base))).peer 2 =
      ⟨.present, 1125, [⟨4, 750, 9, 1⟩], 0, some .running, some .active⟩ := by decide +kernel

theorem test_promotion :
    (after (.peerIntentPromotion 2 3) (peerTo 2 .present 65500 0 [⟨3, 375, 12, 40⟩] base)).peer 2 =
      { unknownPeer with status := .present, confirmed := 65520 } := by decide +kernel

theorem test_window_confirms :
    ((after (.windowDeadline 3) (alone (windowOpen false))).cage 0).state = .powerUp := by decide +kernel

/-- A withdrawal at station 5 with W = 20: a backoff of 40 + 5 ms and one level more urgent. -/
theorem test_window_withdraws :
    let k := (after (.windowDeadline 3) (alone (windowOpen true))).claim 0
    k.backoff = some 45 ∧ k.level = 15 ∧ k.withdraws = 1 := by decide +kernel

theorem test_backoff :
    ((after (.backoffExpiry 2) (base.updClaim 2 (fun k => { k with backoff := some 0 }))).claim 2).backoff = none := by
  decide +kernel

theorem test_blind_timer :
    (after .blindTimerExpiry (base.updClaims (fun u =>
      { u with blind := true, blindTimer := some 0 }))).claims.blind = false := by decide +kernel

theorem test_read_cage : replies (after (.readCage 3 0) base) = [(0x30, 0, [0x10, 16, 0, 0, 0, 0])] := by
  decide +kernel

theorem test_read_event : replies (after (.readEvent 3 0 0) base) = [(0x31, 0, [])] := by decide +kernel

theorem test_read_peer : replies (after (.readPeer 9) base) = [(2, 0, [0, 0, 0, 0, 0, 0xFF])] := by
  decide +kernel

theorem test_read_health :
    replies (after (.readHealth 0) (busAt .cautious 70 5 0 base)) = [(3, 0, [70, 5, 1, 0, 0, 0])] := by
  decide +kernel

theorem test_hold : replies (after (.hold 3) base) = [(0x34, 0, [14])] ∧
    ((after (.hold 3) base).line 3).source = .forced := by decide +kernel

theorem test_unhold : replies (after (.unhold 3) (at_ 3 .manualHold base)) = [(0x35, 0, [3])] := by
  decide +kernel

theorem test_retry : replies (after (.retry 3) (at_ 3 .faulted base)) = [(0x36, 0, [3])] ∧
    replies (after (.retry 3) base) = [(0x36, 2, [1])] := by decide +kernel

theorem test_clear_penalty :
    replies (after (.clearPenalty 3) (penaltyTo 3 3642 (at_ 3 .holdDown base))) = [(0x37, 0, [11])] ∧
    ((after (.clearPenalty 3) (penaltyTo 3 3642 (at_ 3 .holdDown base))).penalty 3).value = 0 := by
  decide +kernel

theorem test_set_ceiling : (after (.setCeiling 40) base).claims.ceiling = 32 ∧
    replies (after (.setCeiling 8) base) = [(8, 0, [8])] := by decide +kernel

theorem test_module_read :
    ((after (.moduleRead 3 250 6) base).link 0).chunk.map Chunk.length = some 6 ∧
    replies (after (.moduleRead 3 251 6) base) = [(0x39, 1, [])] := by decide +kernel

theorem test_module_write :
    replies (after (.moduleWrite 3 119 [1, 2]) base) = [(0x3A, 2, [])] ∧
    ((after (.moduleWrite 3 119 [1]) base).link 0).chunk.map Chunk.isWrite = some true := by
  decide +kernel

theorem test_restart : (after .restart base).service.restartTimer = some 100 := by decide +kernel

/-- A READ-CAGE of a part past 3 is out of range. -/
theorem test_bad_argument : replies (after (.readCage 3 4) base) = [(0x30, 1, [])] := by decide +kernel

/-! ### A state and operands for the hypotheses of each statement -/

theorem witness_StepTakesFront :
    { base with pending := [.stationTimeTick, .decayTick] }.pending =
      .stationTimeTick :: [.decayTick] := by decide +kernel

theorem witness_IdleStepPassesTime :
    State.reset.pending = [] ∧ State.reset.startup.resetHeld = true ∧
    base.pending = [] ∧ base.startup.resetHeld = false ∧ (base.link 0).state ≠ .chunk ∧
    (identifying 1 1 (block 4 250)).pending = [] ∧
    ((identifying 1 1 (block 4 250)).link 0).state = .chunk := by decide +kernel

/-- Both resets, at a state whose lines hold what a reset clears. -/
theorem witness_ResetValues :
    (∀ i ∈ [Instr.powerOnReset, .pinReset], i = .powerOnReset ∨ i = .pinReset) ∧
    ((presentTo 0 false base).line 0).presentHold ≠ none ∧ (base.line 0).source ≠ .held ∧
    loading.memorySelected = true := by decide +kernel

theorem witness_StartUpEvents :
    let s := after (.resetRelease 5 2) State.reset
    State.reset.startup.resetHeld = true ∧ s.startup.resetHeld = false ∧
    s.startup.loadPhase = .startDelay ∧ s.startup.startDelay.isSome = true := by decide +kernel

set_option maxRecDepth 100000 in
theorem witness_ConfigurationLoaded :
    let s := loading
    let t := after (.spiReadEnd []) loading
    s.startup.resetHeld = false ∧ (∀ c : Cage, (s.cage c).state = .vacant) ∧
    imageGood faultyImage = true ∧ s.startup.loadPhase = .read1 ∧
    t.startup.resetHeld = false ∧ (∀ c : Cage, (t.cage c).state = .vacant) ∧
    imageGood [] = false ∧ t.startup.loadPhase = .read2 := by decide +kernel

theorem witness_LineLevelsChange :
    base.startup.resetHeld = false ∧ State.reset.startup.resetHeld = true ∧
    (base.line 0).alert = false ∧
    ((base.updLines 0 (fun l => { l with alert := true })).line 0).alert = true ∧
    (base.cage 0).state.powered = false ∧ ((at_ 0 .verify base).cage 0).state.powered = true ∧
    (at_ 0 .verify base).crsSlot 0 = none ∧ ((at_ 0 .verify base).cage 0).requests = [] ∧
    ((at_ 0 .verify base).line 0).present = true := by decide +kernel

theorem witness_InsertionTaken :
    let s := presentTo 15 true base
    let t := presentTo 15 true (at_ 15 .manualHold base)
    s.startup.resetHeld = false ∧ (s.line 15).presentHold.isSome = true ∧
    (s.line 15).presentRaw = true ∧ (s.line 15).present = false ∧ s.startup.runState ≠ .loading ∧
    (s.cage 15).state = .vacant ∧ t.startup.resetHeld = false ∧
    (t.line 15).presentHold.isSome = true ∧ (t.line 15).presentRaw = true ∧
    (t.line 15).present = false ∧ (t.cage 15).state ≠ .vacant := by decide +kernel

/-- The hypotheses on the lines that every removal has. -/
def removalAt (c : Cage) (s : State) : Bool :=
  !s.startup.resetHeld && (s.line c).presentHold.isSome && !(s.line c).presentRaw &&
  (s.line c).present

/-- A CRS request of cage 0 of a kind, in the present visit, with its only chunk granted. -/
def crsAsked (kind : CrsKind) (value : Byte) : LinkRequest :=
  { crsTransaction 0 ⟨kind, value, 0⟩ with nextChunk := 1, granted := true }

/-- That chunk at a try. -/
def crsChunk (kind : CrsKind) (value : Byte) (n : Nat) : Chunk :=
  { (crsTransaction 0 ⟨kind, value, 0⟩).chunk (.crs 0) with tryNo := n }

/-- Cage 0 about to be taken as removed, with a chunk of its own in progress. -/
def removingInChunk (st : CageState) : State :=
  presentTo 0 false (tryOf (.crs 0) (crsAsked .alertRead 0) (crsChunk .alertRead 0 1) (at_ 0 st base))

/-- A pass-through of cage 1 carried on the segment of cage 0. -/
def carryingOther (st : CageState) : State :=
  servicing .carrying ⟨0x19, [250, 6]⟩ (presentTo 0 false (at_ 0 st
    (putRequest 0 .passThrough (readRequest .passThrough 1 250 6) base)))

/-- No pass-through of cage 0 is carried: none at all in the first, one of cage 1 in the second. -/
theorem witness_carriesNone (st : CageState) :
    (removingInChunk st).carriesNone 0 ∧ (carryingOther st).carriesNone 0 := by
  refine ⟨.inl (by cases st <;> decide +kernel), .inr ?_⟩
  intro slot member r e same
  simp only [List.mem_cons, List.not_mem_nil, or_false] at member
  rcases member with h | h | h <;> subst h <;>
    simp [carryingOther, servicing, presentTo, at_, putRequest, base, Link.inSlot, Link.setSlot, State.link,
      State.updLines, State.updCage, State.updLink, State.reset, modifyAt, resetLink, segOf] at e
  subst e
  exact absurd same (by decide)

theorem witness_RemovalTaken :
    let s := presentTo 15 false (at_ 15 .inService base)
    let t := presentTo 15 false (at_ 15 .adopt base)
    let u := removingInChunk .inService
    removalAt 15 s = true ∧ s.service.phase ≠ .carrying ∧ (s.cage 15).state = .inService ∧
    removalAt 15 t = true ∧ t.service.phase ≠ .carrying ∧ (t.cage 15).state = .adopt ∧
    removalAt 0 u = true ∧ u.service.phase ≠ .carrying ∧ (u.cage 0).state = .inService ∧
    (u.link (segOf 0)).chunk = some (crsChunk .alertRead 0 1) ∧ (u.link (segOf 0)).state = .chunk ∧
    (crsChunk .alertRead 0 1).cage = 0 ∧ (crsChunk .alertRead 0 1).ending ≠ .restart ∧
    takesBack .atChunkEnd (u.link (segOf 0)) (crsChunk .alertRead 0 1) ∧
    ¬ takesBack .inTry (u.link (segOf 0)) (crsChunk .alertRead 0 1) := by
  simp only [takesBack]
  decide +kernel

/-- The cage's chunk in progress and waiting for a retry, a segment IDLE with the cage selected, and another
cage's chunk (of the segment's cages 0 and 1). -/
theorem witness_RemovalWithoutModule :
    (∀ st ∈ [CageState.manualHold, .vacant, .disabled, .debounce],
      let s := presentTo 15 false (at_ 15 st base)
      let u := removingInChunk st
      removalAt 15 s = true ∧ s.service.phase ≠ .carrying ∧ (s.cage 15).state = st ∧
      s.claims.testDue = false ∧ removalAt 0 u = true ∧ (u.cage 0).state = st ∧
      (u.link (segOf 0)).chunk = some (crsChunk .alertRead 0 1) ∧ (u.link (segOf 0)).state = .chunk ∧
      takesBack .atChunkEnd (u.link (segOf 0)) (crsChunk .alertRead 0 1)) ∧
    (let waiting := (removingInChunk .vacant).updLink 0 (fun l => { l with state := .retryWait })
     removalAt 0 waiting = true ∧ (waiting.link (segOf 0)).state = .retryWait ∧
     (waiting.link (segOf 0)).chunk = some (crsChunk .alertRead 0 1)) ∧
    (let idle := (presentTo 0 false base).updLink 0 (fun l => { l with selected := some 0 })
     removalAt 0 idle = true ∧ (idle.link (segOf 0)).state = .idle ∧
     (idle.link (segOf 0)).selected = some 0) ∧
    (let other := presentTo 1 false (removingInChunk .inService)
     removalAt 1 other = true ∧ (other.cage 1).state = .vacant ∧
     (other.link (segOf 1)).chunk = some (crsChunk .alertRead 0 1) ∧
     (crsChunk .alertRead 0 1).cage ≠ 1 ∧ (other.link (segOf 1)).selected ≠ some 1) := by
  simp only [takesBack]
  decide +kernel

/-- A removal in a stretch leaves RECOVERY, one in RETRY-WAIT an IDLE segment with no cage selected (R126). -/
theorem test_removal_at_arbiter :
    let waiting := (removingInChunk .vacant).updLink 0 (fun l => { l with state := .retryWait })
    ((after (.presentHoldExpiry 0 .inStretch) (removingInChunk .vacant)).link 0).state = .recovery ∧
    ((after (.presentHoldExpiry 0 .inTry) waiting).link 0).state = .idle ∧
    ((after (.presentHoldExpiry 0 .inTry) waiting).link 0).selected = none := by decide +kernel

/-- A removal that arrives together with the end of a chunk of an identity read, taken first: the request has its
next chunk granted, and the removal answers it, which deselects the cage (R126, R127). -/
theorem test_removal_at_chunk_end :
    let r := { idRead (block 4 250) with nextChunk := 3, bytes := (block 4 250).take 16 }
    let ended := after (.chunkDone 0 [1, 2, 3, 4, 5, 6, 7, 8])
      (presentTo 0 false (tryOf (.crs 0) r (idChunk 1) (at_ 0 .identify base)))
    (ended.link 0).state = .chunk ∧ (ended.crsSlot 0).isSome = true ∧
    ((after (.presentHoldExpiry 0 .atChunkEnd) ended).link 0) = resetLink ∧
    ((after (.presentHoldExpiry 0 .inTry) ended).link 0).state = .chunk := by decide +kernel

/-- The hypotheses on the lines that every LINK_UP change has. -/
def linkAt (c : Cage) (level : Bool) (s : State) : Bool :=
  !s.startup.resetHeld && (s.line c).linkHold.isSome && decide ((s.line c).linkRaw = level) &&
  decide ((s.line c).link = !level)

theorem witness_LinkAssertionTaken :
    let s := fun st => linkTo 7 true (at_ 7 st base)
    linkAt 7 true (s .train) = true ∧ ((s .train).cage 7).state = .train ∧
    linkAt 7 true (s .darkWait) = true ∧ ((s .darkWait).cage 7).state = .darkWait ∧
    linkAt 7 true (s .verify) = true ∧ ((s .verify).cage 7).state = .verify := by decide +kernel

theorem witness_FlapOnLinkDrop :
    let s := fun p => linkTo 7 false (penaltyTo 7 p (at_ 7 .inService base))
    linkAt 7 false (s 2000) = true ∧ ((s 2000).cage 7).state = .inService ∧
    (s 2000).conf.suppress ≤ min 16383 (((s 2000).penalty 7).value + (s 2000).conf.flapIncrement) ∧
    linkAt 7 false (s 1999) = true ∧ ((s 1999).cage 7).state = .inService ∧
    min 16383 (((s 1999).penalty 7).value + (s 1999).conf.flapIncrement) < (s 1999).conf.suppress := by
  decide +kernel

/-- Cage 0 in a state, at a try of that chunk while the module holds the clock. -/
def crsTrying (kind : CrsKind) (value : Byte) (n : Nat) (st : CageState) : State :=
  stretched (tryOf (.crs 0) (crsAsked kind value) (crsChunk kind value n) (at_ 0 st base))

theorem crs_try (kind : CrsKind) (value : Byte) (n : Nat) (st : CageState) :
    CrsTry (crsTrying kind value n st) 0 (crsChunk kind value n) (crsAsked kind value)
      ⟨kind, value, 0⟩ false 0 := by
  cases kind <;> constructor <;> rfl

/-- The states and flags of R10's table: a lane of the four, and the fifth, whose flags are disregarded. -/
theorem witness_StatusObserved :
    let drop := fun n => linkTo 7 false (retriesTo 7 n (at_ 7 .verify base))
    let polled := fun st => crsTrying .readyPoll 0 1 st
    let alerted := fun st => crsTrying .alertRead 0 1 st
    let flags := fun (ready fault : Bool) (tx rx : Byte) => Observation.mk ready fault rx tx false
    (linkAt 7 false (drop 2) = true ∧ ((drop 2).cage 7).state = .verify ∧
      ((drop 2).cage 7).trainRetries < 3 ∧ linkAt 7 false (drop 3) = true ∧
      3 ≤ ((drop 3).cage 7).trainRetries ∧ (drop 2).crsSlot 7 = none ∧
      ((drop 2).cage 7).requests = []) ∧
    (readEnded (crsChunk .readyPoll 0 1) (crsAsked .readyPoll 0) [1] ∧
      readEnded (crsChunk .alertRead 0 1) (crsAsked .alertRead 0) [2, 0, 0] ∧
      ((polled .powerUp).cage 0).visit = 0) ∧
    (∀ x ∈ [(polled .powerUp, flags true false 0 0), (alerted .holdDown, flags false true 0 0),
        (alerted .verify, flags true false 8 0), (alerted .inService, flags true false 8 0),
        (alerted .inService, flags true false 0 8)], x.1.heeds 0 x.2) ∧
    (∀ x ∈ [(polled .powerUp, flags false false 255 255), (alerted .verify, flags true false 16 255),
        (alerted .inService, flags true false 16 16), (alerted .darkWait, flags true false 0 0)],
      ¬ x.1.heeds 0 x.2) := by
  simp only [State.heeds, readEnded]
  decide +kernel

/-- A cage in LIGHT-SETTLE with stable lanes and three low draws. -/
def settlingCage : State :=
  (((at_ 0 .lightSettle base).updCage 0 (fun k => { k with laneStable := true })).updScan 0 (fun k =>
    { k with history := [⟨250, false⟩, ⟨0, false⟩, ⟨250, false⟩] }))

theorem witness_ConversionTaken :
    let s := base
    let claimed := (((at_ 0 .powerUp base).updScan 0 (fun k => { k with overRun := 2 })).updClaim 0
      (fun k => { k with state := .confirmed, draw := 375 }))
    let t := (at_ 0 .train base).updScan 0 (fun k => { k with overRun := 2 })
    let u := settlingCage
    s.startup.resetHeld = false ∧ s.scan.converting = true ∧ s.scan.channel = 0 ∧
    (s.cage 0).state.powered = false ∧
    t.startup.resetHeld = false ∧ t.scan.converting = true ∧ (t.cage 0).state.powered = true ∧
    (t.cageScan 0).overRun = 2 ∧ (t.cage 0).identity = some someId ∧
    claimed.startup.resetHeld = false ∧ claimed.scan.converting = true ∧
    (claimed.cage 0).state = .powerUp ∧ (claimed.cageScan 0).overRun = 2 ∧
    (claimed.cage 0).identity = some someId ∧ (claimed.claim 0).state = .confirmed ∧
    (claimed.claim 0).listed = false ∧
    u.startup.resetHeld = false ∧ u.scan.converting = true ∧ (u.cage 0).identity = some someId ∧
    (u.cage 0).state = .lightSettle ∧ (u.cage 0).laneStable = true ∧ (u.line 0).link = false ∧
    (u.cageScan 0).history.length = 3 ∧
    ∀ e ∈ (u.cageScan 0).history ++ [(⟨250, false⟩ : Draw)], e.saturated = false ∧ e.value ≤ 250 := by
  decide +kernel

/-- An entry of 0 dW in POWER-UP takes the verdict and leaves the rest of the cage (R148). -/
theorem test_conversion_in_power_up :
    let s := (at_ 0 .powerUp base).updScan 0 (fun k => { k with history := [⟨250, false⟩, ⟨0, false⟩, ⟨250, false⟩] })
    let t := after (.currentSenseConversion 0#10) s
    t.cage 0 = { s.cage 0 with drawSettled := true } ∧ t.scan.channel = 1 := by decide +kernel

/-- The timers of a cage at the entry of a state all run. -/
theorem witness_DebounceEnds :
    let s := at_ 2 .debounce base
    s.startup.resetHeld = false ∧ (s.cage 2).state = .debounce ∧
    (s.cage 2).timers.debounce.isSome = true := by decide +kernel

theorem witness_InitWaitEnds :
    let s := at_ 2 .identify base
    s.startup.resetHeld = false ∧ (s.cage 2).state = .identify ∧
    (s.cage 2).timers.initWait.isSome = true ∧ s.crsSlot 2 = none ∧ (s.cage 2).requests = [] ∧
    (s.line 2).present = true := by decide +kernel

/-- Two init waits of one start and one of another, on a segment that is IDLE. -/
theorem witness_InitWaitEnds_together :
    let s := initsTogether
    s.startup.resetHeld = false ∧ (∀ c ∈ ([1, 2, 5] : List Cage), (s.cage c).state = .identify ∧
      (s.cage c).timers.initWait.isSome = true ∧ s.crsSlot c = none ∧ (s.cage c).requests = [] ∧
      (s.line c).present = true ∧ (s.link (segOf c)).state = .idle) ∧
    (s.cage 5).timers.initStart = (s.cage 2).timers.initStart ∧
    (s.cage 1).timers.initStart ≠ (s.cage 2).timers.initStart ∧
    (s.claim 5).level < (s.claim 2).level ∧
    ((after (.initWaitExpiry 2) s).crsSlot 2).isSome = true := by decide +kernel

theorem witness_PollTimerExpires :
    let s := at_ 2 .powerUp base
    let t := ask 2 .alertRead 0 s
    s.startup.resetHeld = false ∧ (s.cage 2).state = .powerUp ∧
    (s.cage 2).timers.poll.isSome = true ∧ s.statusReadDue 2 = false ∧
    s.crsSlot 2 = none ∧ (s.cage 2).requests = [] ∧ (s.line 2).present = true ∧
    t.startup.resetHeld = false ∧ (t.cage 2).state = .powerUp ∧
    (t.cage 2).timers.poll.isSome = true ∧ t.statusReadDue 2 = true := by decide +kernel

theorem witness_TimeoutFaults :
    let claimed := fun s : State => s.updClaim 2 (fun k => { k with state := .confirmed, draw := 375 })
    let s := claimed (at_ 2 .powerUp base)
    let t := claimed (at_ 2 .lightSettle base)
    let u := at_ 2 .relight base
    s.startup.resetHeld = false ∧ (s.cage 2).state = .powerUp ∧
    (s.cage 2).timers.ready.isSome = true ∧ (s.claim 2).state = .confirmed ∧
    (s.claim 2).listed = false ∧
    t.startup.resetHeld = false ∧ (t.cage 2).state = .lightSettle ∧
    (t.cage 2).timers.settle.isSome = true ∧ (t.claim 2).state = .confirmed ∧
    (t.claim 2).listed = false ∧
    u.startup.resetHeld = false ∧ (u.cage 2).state = .relight ∧
    (u.cage 2).timers.settle.isSome = true := by decide +kernel

theorem witness_TrainTimerExpires :
    let s := fun n => retriesTo 2 n (at_ 2 .train base)
    let dark := (s 0).updScan 2 (fun k =>
      { k with sample := some ⟨0, 250, 3300, 1, [⟨1, 2, 0, true, false⟩], none⟩ })
    (s 2).startup.resetHeld = false ∧ ((s 2).cage 2).state = .train ∧
    ((s 2).cage 2).timers.train.isSome = true ∧ ((s 2).line 2).link = false ∧
    ((s 2).cageScan 2).sample = none ∧ ((s 2).cage 2).trainRetries < 3 ∧
    (s 2).crsSlot 2 = none ∧ ((s 2).cage 2).requests = [] ∧ ((s 2).line 2).present = true ∧
    3 ≤ ((s 3).cage 2).trainRetries ∧ ((s 3).cage 2).state = .train ∧
    ((s 3).cage 2).timers.train.isSome = true ∧ ((s 3).line 2).link = false ∧
    (dark.cage 2).state = .train ∧ (dark.cage 2).timers.train.isSome = true ∧
    (dark.line 2).link = false ∧
    (dark.cageScan 2).sample = some ⟨0, 250, 3300, 1, [⟨1, 2, 0, true, false⟩], none⟩ := by
  decide +kernel

theorem witness_VerifyEnds :
    let s := at_ 2 .verify base
    s.startup.resetHeld = false ∧ (s.cage 2).state = .verify ∧
    (s.cage 2).timers.verify.isSome = true ∧ (s.line 2).source ≠ .held := by decide +kernel

theorem witness_NakRetried :
    let s := identifying 1 2 (block 4 250)
    let t := after (.chunkNak 0) s
    s.startup.resetHeld = false ∧ (s.link 0).chunk = some (idChunk 2) ∧ (s.link 0).state = .chunk ∧
    (idChunk 2).ending = .none ∧ (idChunk 2).tryNo < 3 ∧
    t.startup.resetHeld = false ∧ (t.link 0).chunk = some (idChunk 2) ∧
    (t.link 0).state = .retryWait ∧ (t.link 0).retryTimer.isSome = true := by decide +kernel

theorem witness_SegmentComesToIdle :
    let s := base.updLink 0 (fun l => { l with state := .recovery })
    let t := removedInChunk
    let u := restartInChunk
    s.startup.resetHeld = false ∧ (s.link 0).state = .recovery ∧
    t.startup.resetHeld = false ∧ (t.link 0).state = .chunk ∧
    (t.link 0).chunk = some { idChunk 1 with ending := .absent } ∧
    ((t.link 0).inSlot (.crs 0)).map LinkRequest.origin = some (.crs (askOf .identityRead) true) ∧
    u.startup.resetHeld = false ∧ (u.link 0).state = .chunk ∧
    (u.link 0).chunk = some { idChunk 1 with ending := .restart } := by decide +kernel

/-- A chunk before the last, and the outcomes of a write: at the first two failures and the third, with the
value still wanted and not, and a lane restart in the visit to TRAIN that asked for it. -/
theorem witness_ChunkEnds :
    let r := { idRead (block 4 250) with nextChunk := 3, bytes := (block 4 250).take 16 }
    let s := tryOf (.crs 0) r (idChunk 1) base
    let failed := fun n => (crsTrying .txDisable 15 3 .holdDown).updCage 0 (fun k =>
      { k with linkFails := n, wantedTx := some 15 })
    let trained := crsTrying .laneRestart 15 3 .train
    (s.startup.resetHeld = false ∧ (s.link 0).state = .chunk ∧
      (s.link 0).chunk = some (idChunk 1) ∧ (idChunk 1).ending = .none ∧
      ([1, 2, 3, 4, 5, 6, 7, 8] : List Byte).length = (idChunk 1).length ∧
      (s.link 0).inSlot (idChunk 1).slot = some r ∧ 8 * r.nextChunk < r.length ∧
      (idChunk 1).slot ≠ .scanner) ∧
    (3 ≤ (crsChunk .txDisable 15 3).tryNo ∧ ((failed 0).link 0).stretch.isSome = true ∧
      ((failed 1).cage 0).state.powered = true ∧ ((failed 1).cage 0).linkFails < 2 ∧
      ((failed 1).cage 0).wantedTx = some 15 ∧ ((failed 1).line 0).present = true ∧
      ((failed 1).cage 0).requests = [] ∧ 2 ≤ ((failed 2).cage 0).linkFails ∧
      (trained.cage 0).state = .train ∧ (trained.cage 0).visit = 0 ∧
      (trained.cage 0).wantedTx ≠ some 15) ∧
    (crsChunk .txDisable 15 1).isWrite = true ∧
    (crsAsked .txDisable 15).length ≤ 8 * (crsAsked .txDisable 15).nextChunk := by decide +kernel

/-- The tries of that witness. -/
theorem witness_ChunkEnds_tries (n : Nat) (wanted : Option Byte) :
    CrsTry ((crsTrying .txDisable 15 3 .holdDown).updCage 0 (fun k =>
      { k with linkFails := n, wantedTx := wanted })) 0 (crsChunk .txDisable 15 3)
      (crsAsked .txDisable 15) ⟨.txDisable, 15, 0⟩ false 0 := by
  constructor <;> rfl

/-- The hypotheses that every end of the identity read of cage 0 has. -/
def readingIdentity (n : Nat) (bytes : List Byte) (s : State) : Bool :=
  !s.startup.resetHeld && decide ((s.link 0).state = .chunk) &&
  decide ((s.link 0).chunk = some (idChunk n)) && decide ((idChunk n).ending = .none) &&
  decide ((s.link 0).inSlot (idChunk n).slot = some (idRead bytes)) &&
  decide ((idRead bytes).origin = .crs (askOf .identityRead) false) &&
  decide ((idRead bytes).cage = 0) && decide ((askOf .identityRead).kind = .identityRead) &&
  decide ((s.cage 0).state = .identify) && decide ((s.cage 0).visit = (askOf .identityRead).visit)

/-- A block whose check byte is wrong. -/
def badBlock : List Byte := (block 4 250).set 31 0

/-- Cage 0 in a state, at the last chunk of its identity read while the module holds the clock. -/
def identifyingIn (st : CageState) (reads n : Nat) (bytes : List Byte) : State :=
  (stretched (identifying reads n bytes)).updCage 0 (fun k => { k with state := st })

theorem id_try (st : CageState) (reads n : Nat) (bytes : List Byte) :
    CrsTry (identifyingIn st reads n bytes) 0 (idChunk n) (idRead bytes) (askOf .identityRead) false 0 := by
  constructor <;> rfl

/-- The second and the third failure, by the link and by the check byte, in IDENTIFY and in ADOPT; and an
adoption that goes on in service, and one whose latched PORT_ADMIT is deasserted. -/
theorem witness_IdentityReadFails :
    let s := fun st reads => identifyingIn st reads 3 (block 4 250)
    let latched := fun high => ((s .adopt 1).updLines 0 (fun l =>
      { l with link := true, latched := some ⟨false, false, high⟩ }))
    (∀ st ∈ [CageState.identify, .adopt],
      ((s st 2).cage 0).state = st ∧ ((s st 2).cage 0).visit = (askOf .identityRead).visit ∧
      ((s st 2).cage 0).identReads < 3 ∧ 3 ≤ ((s st 3).cage 0).identReads ∧
      ((s st 2).line 0).present = true ∧ ((s st 2).cage 0).requests = []) ∧
    3 ≤ (idChunk 3).tryNo ∧ ((s .identify 2).link 0).stretch.isSome = true ∧
    readEnded (idChunk 3) (idRead badBlock) (badBlock.drop 24) ∧
    identityCheckGood ((idRead badBlock).bytes ++ badBlock.drop 24) = false ∧
    readEnded (idChunk 3) (idRead (block 4 250)) ((block 4 250).drop 24) ∧
    identityCheckGood ((idRead (block 4 250)).bytes ++ (block 4 250).drop 24) = true ∧
    ((latched true).line 0).latched = some ⟨false, false, true⟩ ∧ ((latched true).line 0).link = true ∧
    ((latched false).line 0).latched = some ⟨false, false, false⟩ ∧
    (latched true).claims.testDue = false := by
  simp only [readEnded]
  decide +kernel

/-- At the first read a block of 0 lanes with a good check byte fails at once (R16), and a block with a bad check
byte, of 4 lanes or of 0, is read again (R15). -/
theorem test_content_and_check :
    let ends := fun (b : List Byte) => (after (.chunkDone 0 (b.drop 24)) (identifying 1 1 b)).cage 0
    (ends (block 0 250)).state = .faulted ∧ (ends (block 0 250)).cause = .identInvalid ∧
    (ends badBlock).state = .identify ∧ (ends badBlock).identReads = 2 ∧
    (ends ((block 0 250).set 31 0)).identReads = 2 := by decide +kernel

/-- Blocks at the bounds of R16: 0 lanes, with a good check byte and with a bad one, 8 lanes at the cage's
maximum of 40 W, and 0.1 W above it; and a last-module record at the limit of R110. -/
theorem witness_IdentityJudged :
    let reads := fun b => readingIdentity 1 b (identifying 1 1 b)
    let good := fun b => identityCheckGood (b.take 24 ++ b.drop 24)
    let kept := (identifying 1 1 (block 8 400)).updPenalty 0 (fun p =>
      { p with lastModule := some ⟨List.replicate 16 7, 1201, BitVec.ofNat 32 (4294967296 - 60000), false⟩ })
    (idChunk 1).isWrite = false ∧ ((block 8 400).drop 24).length = (idChunk 1).length ∧
    (idRead (block 8 400)).length ≤ 8 * (idRead (block 8 400)).nextChunk ∧
    reads (block 0 250) = true ∧ good (block 0 250) = true ∧ ¬ declaresPossible (block 0 250) ∧
    reads ((block 0 250).set 31 0) = true ∧ good ((block 0 250).set 31 0) = false ∧
    ((identifying 1 1 ((block 0 250).set 31 0)).cage 0).identReads < 3 ∧
    3 ≤ ((identifying 3 1 badBlock).cage 0).identReads ∧
    readingIdentity 1 badBlock (identifying 3 1 badBlock) = true ∧ good badBlock = false ∧
    declaresPossible (block 8 401) ∧ declaresPossible (block 8 400) ∧
    reads (block 8 401) = true ∧ good (block 8 401) = true ∧
    reads (block 8 400) = true ∧ good (block 8 400) = true ∧
    10 * (base.cageConf 0).maxWatts = 400 ∧
    readingIdentity 1 (block 8 400) kept = true ∧
    (kept.startup.stationTime - BitVec.ofNat 32 (4294967296 - 60000)).toNat =
      100 * kept.conf.reseatSeconds := by decide +kernel

/-- A pass-through read of 6 bytes of cage 0 in its only chunk. -/
def passRead : LinkRequest :=
  { readRequest .passThrough 0 250 6 with nextChunk := 1, granted := true }

/-- Its chunk. -/
def passChunk : Chunk :=
  { slot := .passThrough, cage := 0, address := 250, length := 6, isWrite := false, data := [], tryNo := 3,
    ending := .none }

theorem witness_PassThroughAnswered :
    let q : Request := ⟨9, [250, 6]⟩
    let s := fun ending => servicing .carrying q
      (stretched (tryOf .passThrough passRead { passChunk with ending := ending } base))
    let r := servicing .carrying q (presentTo 0 false (putRequest 0 .passThrough passRead base))
    (∀ ending ∈ [ChunkEnd.none, .absent],
      (s ending).startup.resetHeld = false ∧ ((s ending).link 0).state = .chunk ∧
      ((s ending).link 0).chunk = some { passChunk with ending := ending } ∧
      ((s ending).link 0).inSlot passChunk.slot = some passRead ∧
      passRead.origin = .passThrough ∧ (s ending).service.phase = .carrying ∧
      (s ending).service.request = some q ∧ (s ending).bus.txQueue.length < 8) ∧
    ([1, 2, 3, 4, 5, 6] : List Byte).length = passChunk.length ∧
    passRead.length ≤ 8 * passRead.nextChunk ∧ 3 ≤ passChunk.tryNo ∧
    ((s .none).link 0).stretch.isSome = true ∧
    r.startup.resetHeld = false ∧ (r.line 0).presentHold.isSome = true ∧
    (r.line 0).presentRaw = false ∧ (r.line 0).present = true ∧ r.service.phase = .carrying ∧
    r.service.request = some q ∧ r.bus.txQueue.length < 8 ∧
    (r.link 0).passThrough = some passRead ∧ passRead.cage = 0 ∧ (r.link 0).chunk = none ∧
    (let u := servicing .carrying q
        (presentTo 0 false (tryOf .passThrough passRead { passChunk with tryNo := 1 } base))
     removalAt 0 u = true ∧ u.service.phase = .carrying ∧ u.bus.txQueue.length < 8 ∧
     (u.link 0).passThrough = some passRead ∧
     takesBack .atChunkEnd (u.link 0) { passChunk with tryNo := 1 }) := by
  simp only [takesBack]
  decide +kernel

/-- What a granted chunk sends: the two data bytes of a MODULE-WRITE at 117, and a one-byte read at 64, in
the 38 and 39 clock periods that the table of R117 gives; nothing is sent while the segment is IDLE. -/
theorem test_try_on_segment :
    let write := (after (.moduleWrite 0 117 [1, 2]) base).segmentTry 0
    let read := (after (.moduleRead 0 64 1) base).segmentTry 0
    write = some [.start, .sends 0x74, .sends 117, .sends 1, .sends 2, .stop] ∧
    read = some [.start, .sends 0x74, .sends 64, .repeatedStart, .sends 0x75, .takes false, .stop] ∧
    write.map tryClocks = some 38 ∧ read.map tryClocks = some 39 ∧ base.segmentTry 0 = none ∧
    (WireItem.sends 0x74).bits = [false, true, true, true, false, true, false, false, true] := by
  decide +kernel

theorem witness_SlotTimerExpires :
    let s := base.updScanner 0 (fun n => { n with slotTimer := some 0 })
    let t := (at_ 7 .train (at_ 3 .lightSettle base)).updScanner 0 (fun n =>
      { n with slotTimer := some 0, turn := .steady, lastSteady := some 7 })
    s.startup.resetHeld = false ∧ (s.scanner 0).slotTimer.isSome = true ∧ s.rota 0 = [] ∧
    t.startup.resetHeld = false ∧ (t.scanner 0).slotTimer.isSome = true ∧
    (t.scanner 0).phase = .idle ∧ t.rotaClass 0 (t.scanner 0).turn = [7] ∧
    (t.line 7).present = true := by decide +kernel

/-- The turn of the settling class, which has no cage, with cage 7 of the other class present and not. -/
theorem witness_SlotTimerExpires_other :
    ∀ present ∈ [true, false],
      let t := ((at_ 7 .train base).updScanner 0 (fun n => { n with slotTimer := some 0 })).updLines 7
        (fun l => { l with present := present })
      t.startup.resetHeld = false ∧ (t.scanner 0).slotTimer.isSome = true ∧ (t.scanner 0).phase = .idle ∧
      (t.scanner 0).turn = .settling ∧ t.rotaClass 0 (t.scanner 0).turn = [] ∧
      t.rotaClass 0 .steady = [7] ∧ (t.line 7).present = present ∧
      ((after (.slotTimerExpiry 0) t).scanner 0).turn = .settling ∧
      ((after (.slotTimerExpiry 0) t).scanner 0).lastSteady = some 7 ∧
      ((after (.slotTimerExpiry 0) t).scanner 0).phase = (if present then .scanning else .idle) := by
  decide +kernel

/-- The last chunk of a scan of one lane of cage 0. -/
def scanChunk : Chunk :=
  { slot := .scanner, cage := 0, address := 88, length := 2, isWrite := false, data := [], tryNo := 1,
    ending := .none }

/-- Its request. -/
def scanRead : LinkRequest := { readRequest .scanner 0 88 2 with nextChunk := 1, granted := true }

/-- A scan of one lane of cage 0 in LIGHT-SETTLE at its last chunk, with three values in its window. -/
def scanned (window : List Nat) : State :=
  ((tryOf .scanner scanRead scanChunk (at_ 0 .lightSettle base)).updScanner 0 (fun n =>
    { n with phase := .scanning, cursor := some ⟨0, 1, 2⟩, slotTimer := some 4,
             sampleBytes := [1, 0, 0, 0, 250, 0, 33, 0, 1, 4, 196] })).updScan 0 (fun k =>
    { k with windows := Vector.replicate 8 window }) |>.updCage 0 (fun k => { k with drawSettled := true })

theorem witness_ScanCompleted :
    let s := scanned [1210, 1195, 1188]
    s.startup.resetHeld = false ∧ (s.link 0).state = .chunk ∧ (s.link 0).chunk = some scanChunk ∧
    scanChunk.ending = .none ∧ scanChunk.isWrite = false ∧
    ([3, 132] : List Byte).length = scanChunk.length ∧
    (s.link 0).inSlot scanChunk.slot = some scanRead ∧
    scanRead.length ≤ 8 * scanRead.nextChunk ∧ scanRead.origin = .scanner ∧ scanRead.cage = 0 ∧
    segOf 0 = 0 ∧ (s.scanner 0).phase = .scanning ∧ (s.scanner 0).cursor = some ⟨0, 1, 2⟩ ∧
    (scanPlan 1).length ≤ 2 + 1 ∧ (s.scanner 0).slotTimer.isSome = true ∧
    (s.cage 0).state = .lightSettle ∧
    (∀ i : Fin 8, ∀ v ∈ (s.cageScan 0).windows[i], v ≤ 65535) ∧
    (byteAt (s.scanner 0).sampleBytes 0).getLsbD 1 = false ∧ (s.cage 0).drawSettled = true ∧
    (s.line 0).link = false := by decide +kernel

/-- The scan of the witness above gives the fourth value of section 6.3.1, and the cage trains; from a
window of two values it does not. -/
theorem test_scan_completes :
    ((after (.chunkDone 0 [3, 132]) (scanned [1210, 1195, 1188])).cage 0).state = .train ∧
    ((after (.chunkDone 0 [3, 132]) (scanned [1210, 1195])).cage 0).state = .lightSettle := by
  decide +kernel

/-- The same scan of cage 0 in another state. -/
def scannedIn (st : CageState) (window : List Nat) : State :=
  (scanned window).updCage 0 (fun k => { k with state := st })

/-- A sample that sends the cage to FAULTED fills its windows; one that takes POWER-UP to LIGHT-SETTLE
leaves them cleared (R142, R143). -/
theorem test_windows_of_a_fault :
    let faulty := (scannedIn .inService [1210]).updScanner 0 (fun n =>
      { n with sampleBytes := n.sampleBytes.set 0 3 })
    ((after (.chunkDone 0 [3, 132]) faulty).cage 0).state = .faulted ∧
    ((after (.chunkDone 0 [3, 132]) faulty).cageScan 0).windows[(0 : Fin 8)] = [1210, 1220] ∧
    ((after (.chunkDone 0 [3, 132]) (scannedIn .powerUp [1210])).cage 0).state = .lightSettle ∧
    ((after (.chunkDone 0 [3, 132]) (scannedIn .powerUp [1210])).cageScan 0).windows[(0 : Fin 8)] = [] := by
  decide +kernel

/-- The tries of the third clause of StatusObserved. -/
theorem scan_try (st : CageState) (window : List Nat) :
    ScanTry (scannedIn st window) 0 scanChunk scanRead ⟨0, 1, 2⟩ 0 := by
  constructor <;> first | rfl | decide

/-- A scan that R10 has judged in DARK-WAIT and POWER-UP, one it does not judge, and one that gives RELIGHT
its verdict, by a window of three values and by one of two. -/
theorem witness_StatusObserved_scan :
    let o : Observation := ⟨true, false, 0, 0, true⟩
    readEnded scanChunk scanRead [3, 132] ∧
    (∀ st ∈ [CageState.darkWait, .powerUp], (scannedIn st []).heeds 0 o) ∧
    ¬ (scannedIn .train []).heeds 0 o ∧
    (∀ window ∈ [[1210, 1195, 1188], [1210, 1195]],
      ((scannedIn .relight window).cage 0).state = .relight ∧
      ∀ i : Fin 8, ∀ v ∈ ((scannedIn .relight window).cageScan 0).windows[i], v ≤ 65535) ∧
    ((after (.chunkDone 0 [3, 132]) (scannedIn .relight [1210, 1195, 1188])).cage 0).laneStable = true ∧
    ((after (.chunkDone 0 [3, 132]) (scannedIn .relight [1210, 1195])).cage 0).laneStable = false := by
  simp only [State.heeds, readEnded]
  decide +kernel

theorem witness_AttemptTakesMostUrgent :
    let s := sending [newFrame 31 blankStatus, newFrame 14 (.intent 3 6 375)] base
    s.startup.resetHeld = false ∧ s.startup.runState ≠ .loading ∧
    (∀ f ∈ s.bus.txQueue, f.mark = .waiting) ∧
    (∃ f ∈ s.bus.txQueue, f.eligible s.bus.health = true) := by decide +kernel

/-- The content of a STATUS at an attempt: a CONFIRM still waiting is left out of the total (R65). -/
theorem test_status_content :
    let s := (sending [newFrame 31 blankStatus, newFrame 12 (.confirm 4 375)] (at_ 2 .inService base)).updClaims
      (fun u => { u with committed := 1500 })
    s.statusContent.total = 1125 ∧ s.statusContent.inService = 1 ∧
    s.statusContent.runState = .running := by decide +kernel

/-- No STATUS has been sent since a Restart until one has its good receipt (R188). -/
theorem test_first_status_after_restart :
    let b := { resetBus with afterRestart := true }
    (b.sent 0 (underway 31 blankStatus)).afterRestart = false ∧
    (b.sent 0 (underway 16 (.release 5))).afterRestart = true ∧
    (b.kept 5 0 (underway 31 blankStatus)).afterRestart = true := by decide +kernel

/-- The hypotheses that an end of an attempt has, with the counts below their bounds. -/
def sendingCalm (f : TxFrame) (s : State) : Bool :=
  !s.startup.resetHeld && decide (s.startup.runState ≠ .loading) &&
  decide (s.underAttempt = some (0, f)) && decide (f.mark = .attempting) &&
  decide (s.bus.health = .active) && decide (s.bus.txErrors < 64) && decide (s.bus.rxErrors < 64)

theorem witness_FrameSent :
    let s := fun body => busAt .active 63 63 0 (sending [underway 16 body] base)
    let r := servicing .replying ⟨0x30, [0]⟩ (s (.reply 0x30 0 []))
    let e : OwnIntent := ⟨3, 0, 375, 16, none, none, false⟩
    let own := (s (.intent 0 3 375)).updClaims (fun u => { u with intents := [e] })
    (∀ body ∈ [blankStatus, .cageReport ⟨1, .vacant, .none, 0⟩, .confirm 3 375],
      sendingCalm (underway 16 body) (s body) = true) ∧
    sendingCalm (underway 16 (.reply 0x30 0 [])) r = true ∧ r.service.phase = .replying ∧
    r.bus.serviceQueue = [] ∧ (FrameBody.confirm 3 375).answerTag = some 3 ∧
    (s (.confirm 3 375)).claims.intents = [] ∧
    (s (.confirm 3 375)).bus.txQueue = [underway 16 (.confirm 3 375)] ∧
    (s (.confirm 3 375)).claims.lastTag = 15 ∧
    (runs .listening 0 (s (.confirm 3 375))).startup.runState ≠ .running ∧
    (∀ rx ∈ [63, 64], let t := busAt .cautious 64 rx 0 (s (.confirm 3 375))
      t.bus.health = .cautious ∧ t.bus.txErrors ≤ 160 ∧ t.bus.txErrors - 1 < 64 ∧ t.bus.rxErrors = rx ∧
      t.underAttempt = some (0, underway 16 (.confirm 3 375))) ∧
    rowRequest (.readCage 3 0) = some ⟨0x30, [0]⟩ ∧
    (r.updBus (fun b => { b with serviceQueue := [⟨0x30, [0]⟩] })).service.phase = .replying ∧
    (r.updBus (fun b => { b with serviceQueue := [⟨0x30, [0]⟩] })).underAttempt =
      some (0, underway 16 (.reply 0x30 0 [])) ∧
    sendingCalm (underway 16 (.intent 0 3 375)) own = true ∧ own.intentOf 3 = some e ∧ e.cage = 0 ∧
    own.claims.lastTag + 1 ≠ 3 := by decide +kernel

/-- A CONFIRM whose attempt was under way at a Restart, for the three ends of an attempt. -/
theorem witness_detached :
    let f : TxFrame := ⟨12, .confirm 3 375, .detached, none⟩
    let s := busAt .active 70 0 0 (sending [f, newFrame 16 (.confirm 4 375)] base)
    s.startup.resetHeld = false ∧ s.startup.runState ≠ .loading ∧ s.underAttempt = some (0, f) ∧
    f.mark = .detached ∧
    (∀ i ∈ [Instr.goodReceipt ⟨false, false⟩, .lostArbitration, .transmitError .bit],
      (after i s).bus.txQueue = [newFrame 16 (.confirm 4 375)] ∧ (after i s).bus.txErrors = 70 ∧
      (after i s).bus.health = .active) := by decide +kernel

/-- A good receipt in CAUTIOUS returns to ACTIVE where both counts are then below 64 (R97), and after a
REPLY the request that waited is served (R162). -/
theorem test_good_receipt_goes_on :
    let s := fun rx => busAt .cautious 64 rx 0 (sending [underway 16 (.confirm 3 375)] base)
    let r := (servicing .replying ⟨0x30, [0]⟩ (sending [underway 16 (.reply 0x30 0 [])] base)).updBus
      (fun b => { b with serviceQueue := [⟨0x41, [0, 0]⟩] })
    (after (.goodReceipt ⟨false, false⟩) (s 63)).bus.health = .active ∧
    (after (.goodReceipt ⟨false, false⟩) (s 64)).bus.health = .cautious ∧
    replies (after (.goodReceipt ⟨false, false⟩) r) = [(0x41, 0, [])] := by decide +kernel

/-- The transmit queue holds a waiting report of cage 2, one under attempt, seven frames of other kinds, and
eight of them; and, for a STATUS, two reports at equal levels, of which the later is removed. -/
theorem witness_CageReportHanded :
    let report : TxFrame := newFrame 9 (.cageReport ⟨2, .vacant, .none, 0⟩)
    let other := newFrame 12 (.confirm 3 375)
    let full := List.replicate 6 other ++ [report, report]
    let moved := fun (q : List TxFrame) (st : CageState) => sending q (linkTo 2 true (at_ 2 st base))
    let s := runs .listening 0 (sending full base)
    (∀ q ∈ [[report], [{ report with mark := .attempting }], List.replicate 7 other,
        List.replicate 8 other],
      (moved q .debounce).startup.resetHeld = false ∧ (moved q .debounce).claims.testDue = false ∧
      ((moved q .debounce).cage 2).state = .debounce ∧
      ((moved q .debounce).cage 2).timers.debounce.isSome = true ∧
      ((moved q .train).cage 2).state = .train ∧ linkAt 2 true (moved q .train) = true ∧
      ((moved q .verify).cage 2).state = .verify ∧
      ((moved q .verify).cage 2).timers.verify.isSome = true ∧
      ((moved q .relight).cage 2).state = .relight ∧
      ((moved q .relight).cage 2).timers.settle.isSome = true) ∧
    (report.body.isReportOf 2 = true ∧ other.body.isReportOf 2 = false) ∧
    s.startup.resetHeld = false ∧ s.bus.announce.isSome = true ∧ s.startup.runState ≠ .running ∧
    s.startup.listenTicks = 0 ∧ 8 ≤ s.bus.txQueue.length ∧
    (∀ e ∈ s.bus.txQueue, e.body.isStatus = false) ∧ s.bus.txQueue[7]? = some report ∧
    report.mark = .waiting ∧ report.body.isReport = true := by decide +kernel

/-- A move of cage 2 by each kind of command of the last clause, from a queue of three frames. -/
theorem witness_CageReportHanded_moves :
    let report : TxFrame := newFrame 9 (.cageReport ⟨2, .vacant, .none, 0⟩)
    let s := fun st => sending [report, newFrame 12 (.confirm 3 375), newFrame 12 (.confirm 4 375)] (at_ 2 st base)
    let moves := fun (i : Instr) (s : State) => decide (((after i s).cage 2).state ≠ (s.cage 2).state)
    moves (.presentHoldExpiry 2 .inTry) (presentTo 2 false (s .train)) = true ∧
    moves (.linkUpHoldExpiry 2) (linkTo 2 false (s .inService)) = true ∧
    moves (.debounceTimerExpiry 2) (s .debounce) = true ∧ moves (.readyTimerExpiry 2) (s .powerUp) = true ∧
    moves (.settleTimerExpiry 2) (s .lightSettle) = true ∧ moves (.verifyTimerExpiry 2) (s .verify) = true ∧
    moves (.trainTimerExpiry 2) (retriesTo 2 3 (s .train)) = true ∧ moves (.hold 2) (s .train) = true ∧
    moves (.unhold 2) (s .manualHold) = true ∧ moves (.retry 2) (s .faulted) = true ∧
    moves (.clearPenalty 2) (s .holdDown) = true ∧ (s .train).bus.txQueue.length ≤ 3 ∧
    (∀ f ∈ (s .train).bus.txQueue, f.body.isReportOf 2 = true → f.mark ≠ .attempting) := by
  decide +kernel

/-- The moves of that clause by a conversion and by the end of a window. -/
theorem witness_CageReportHanded_others :
    let s := (at_ 0 .train base).updScan 0 (fun k => { k with overRun := 2 })
    let t := alone (windowOpen false)
    ((after (.currentSenseConversion 1023#10) s).cage 0).state = .faulted ∧
    ((after (.windowDeadline 3) t).cage 0).state = .powerUp ∧
    s.bus.txQueue.length ≤ 3 ∧ t.bus.txQueue.length ≤ 3 := by decide +kernel

theorem witness_ReleaseSent :
    let s := fun n => (sending [underway 0 (.release 375)] base).updClaims (fun u =>
      { u with releasePending := n, committed := 990 })
    sendingCalm (underway 0 (.release 375)) (s 375) = true ∧ 375 ≤ (s 375).claims.releasePending ∧
    sendingCalm (underway 0 (.release 375)) (s 376) = true ∧ 375 < (s 376).claims.releasePending ∧
    (s 375).bus.txQueue.length ≤ 8 ∧ (s 375).bus.txQueue = [underway 0 (.release 375)] := by
  decide +kernel

theorem witness_LostArbitration :
    let f := underway 0 (.release 375)
    let s := sending [f] base
    s.startup.resetHeld = false ∧ s.startup.runState ≠ .loading ∧ s.underAttempt = some (0, f) ∧
    f.mark = .attempting ∧ f.followOn = none ∧ f.body.isIntent = false := by decide +kernel

/-- An INTENT that loses, marked and not, and a report with a follow-on. -/
theorem witness_LostArbitration_marked :
    let i := underway 14 (.intent 0 4 375)
    let e := fun w : Bool => (⟨4, 0, 375, 14, none, none, w⟩ : OwnIntent)
    let s := fun w => (sending [i] base).updClaims (fun u => { u with intents := [e w] })
    let k : TxFrame := { underway 9 (.cageReport ⟨2, .vacant, .none, 0⟩) with
      followOn := some ⟨⟨2, .debounce, .none, 0⟩, 16⟩ }
    (∀ w ∈ [true, false], (s w).underAttempt = some (0, i) ∧ (s w).intentOf 4 = some (e w)) ∧
    (sending [k] base).underAttempt = some (0, k) ∧
    (after .lostArbitration (s true)).claims.intents = [] ∧
    (after .lostArbitration (s true)).bus.txQueue = [] ∧
    (after .lostArbitration (sending [k] base)).bus.txQueue =
      [newFrame 16 (.cageReport ⟨2, .debounce, .none, 0⟩)] := by decide +kernel

/-- The counts at which the health stays ACTIVE, becomes ACTIVE, becomes CAUTIOUS and becomes SILENT; and an
INTENT marked during its attempt. -/
theorem witness_TransmitErrorCounted :
    let f := underway 14 (.confirm 4 375)
    let i := underway 14 (.intent 0 4 375)
    let e : OwnIntent := ⟨4, 0, 375, 14, none, none, true⟩
    let s := fun tx h => busAt h tx 63 0 (sending [f] base)
    let marked := (busAt .active 0 0 0 (sending [i] base)).updClaims (fun u => { u with intents := [e] })
    (∀ h ∈ [BusHealth.active, .cautious], ∀ tx ∈ [59, 60, 155, 156],
      (s tx h).startup.resetHeld = false ∧ (s tx h).startup.runState ≠ .loading ∧
      (s tx h).underAttempt = some (0, f) ∧ (s tx h).bus.health = h ∧
      (s tx h).bus.txErrors = tx) ∧
    f.mark = .attempting ∧ f.body.isIntent = false ∧
    sendingCalm i marked = true ∧ marked.intentOf 4 = some e ∧ e.withdrawAtEnd = true := by
  decide +kernel

/-- A frame whose check field is wrong is a CHECK error whatever the free value is. -/
def brokenFrame : RawFrame :=
  let f := encodeFrame ⟨2, 12, .intent 3 3 375⟩
  { f with check := f.check + 1 }

theorem witness_ReceiveErrorCounted :
    let s := fun h tx rx => busAt h tx rx 0 base
    (∀ b, decodeFrame b brokenFrame = .error .check) ∧
    (∀ h ∈ [BusHealth.active, .cautious, .silent, .recovering],
      (s h 63 62).startup.resetHeld = false ∧ (s h 63 62).startup.runState ≠ .loading ∧
      (s h 63 62).bus.health = h) ∧
    ((s .active 63 62).bus.txErrors < 64 ∧ (s .active 63 62).bus.rxErrors < 63) ∧
    ((s .active 159 63).bus.txErrors < 160 ∧ 63 ≤ (s .active 159 63).bus.rxErrors) ∧
    (s .cautious 64 0).bus.txErrors < 160 ∧ 64 ≤ (s .cautious 64 0).bus.txErrors := by
  decide +kernel

/-- A frame of a kind as it stands on the wire, and what a receiver makes of it. -/
def wireOf (level : Nat) (body : FrameBody) : RawFrame := encodeFrame ⟨2, level, body⟩

/-- A budget frame at a queue of fifteen and a full one; a REQUEST from a source that matches, at an empty
service queue, one of three and a full one, and from one that does not match; frames that reach no block;
and the health at its bounds. -/
theorem witness_GoodReceptionRouted :
    let ok := fun (f : Frame) => ∀ b, decodeFrame b (encodeFrame f) = .ok f
    let s := fun n => heard (List.replicate n ⟨2, 0, .release 1⟩) (busAt .active 63 63 0 base)
    let asked := fun n => (servicing .replying ⟨0, [0]⟩ (s 0)).updBus (fun b =>
      { b with serviceQueue := List.replicate n ⟨0, [0]⟩ })
    let masked := (s 0).updStartup (fun u =>
      { u with settings := some { profileSettings 0 with supervisorMask := 31 } })
    (ok ⟨2, 12, .intent 3 3 375⟩ ∧ ok ⟨2, 16, .request 5 4 []⟩ ∧ ok ⟨2, 16, .reply 4 0 []⟩ ∧
      ok ⟨2, 16, .request 6 4 []⟩ ∧ ok ⟨5, 12, .intent 3 3 375⟩) ∧
    ((s 15).startup.resetHeld = false ∧ (s 15).startup.runState ≠ .loading ∧
      (2 : Station) ≠ (s 15).startup.station ∧ (5 : Station) = (s 15).startup.station ∧
      (s 15).bus.health = .active ∧ (s 15).bus.txErrors < 64 ∧ (s 15).bus.rxErrors < 64 ∧
      (s 15).bus.budgetQueue.length < 16 ∧ 16 ≤ (s 16).bus.budgetQueue.length) ∧
    (sourceMatches (s 0).conf 2 = true ∧ sourceMatches masked.conf 2 = false ∧
      masked.startup.station = 5 ∧ (asked 3).bus.serviceQueue.length < 4 ∧
      4 ≤ (asked 4).bus.serviceQueue.length ∧ (asked 3).service.phase ≠ .idle ∧
      (s 0).bus.serviceQueue = [] ∧ (s 0).service.phase = .idle) ∧
    (busAt .cautious 64 0 0 base).bus.health = .cautious ∧
    64 ≤ (busAt .cautious 64 0 0 base).bus.txErrors ∧
    (busAt .cautious 63 64 0 base).bus.rxErrors < 65 := by
  decide +kernel

theorem witness_ReturnFromSilent :
    let s := busAt .silent 160 0 0 base
    let t := fun n => busAt .recovering 160 0 n base
    s.startup.resetHeld = false ∧ s.startup.runState ≠ .loading ∧ s.bus.health = .silent ∧
    (t 46).startup.resetHeld = false ∧ (t 46).startup.runState ≠ .loading ∧
    (t 46).bus.health = .recovering ∧ (t 46).bus.gapCount < 47 ∧ (t 47).bus.gapCount = 47 := by
  decide +kernel

theorem witness_AnnounceTick :
    let s := runs .listening 0 (sending [underway 31 blankStatus] base)
    s.startup.resetHeld = false ∧ s.bus.announce.isSome = true ∧ s.startup.listenTicks = 0 ∧
    s.startup.runState = .listening ∧ s.bus.txQueue.length < 8 ∧
    (∀ f ∈ s.bus.txQueue, f.mark ≠ .detached) ∧
    (∀ f ∈ s.bus.txQueue, f.body.isStatus = true → f.mark = .attempting) ∧
    (∃ f ∈ s.bus.txQueue, f.body.isStatus = true) := by decide +kernel

theorem witness_ListenIntervalEnds :
    let s := runs .listening 1 base
    s.startup.resetHeld = false ∧ s.startup.runState = .listening ∧ s.startup.listenTicks = 1 ∧
    s.bus.announce.isSome = true := by decide +kernel

theorem witness_PeerEntryEvents :
    let s := peerTo 31 .present 300 3 [⟨15, 375, 12, 40⟩] base
    s.startup.resetHeld = false ∧ (s.peer 31).status = .present ∧ (s.peer 31).age = 3 ∧
    (s.peer 31).intents.find? (fun x => decide (x.tag = 15)) = some ⟨15, 375, 12, 40⟩ := by
  decide +kernel

theorem witness_BudgetFrameApplied :
    let i : Tag → PeerIntent := fun t => ⟨t, 375, 12, 1⟩
    let s := fun body list => heard [⟨2, 12, body⟩] (peerTo 2 .present 400 1 list base)
    (∀ x ∈ (s (.intent 1 3 375) []).claims.intents, x.noted = none) ∧
    (s (.intent 1 3 375) []).startup.resetHeld = false ∧
    (s (.intent 1 3 375) []).bus.budgetQueue = ⟨2, 12, .intent 1 3 375⟩ :: [] ∧
    (∀ x ∈ ((s (.intent 1 3 375) [i 4, i 5, i 6]).peer 2).intents, x.tag ≠ 3) ∧
    ((s (.intent 1 3 375) [i 4, i 5, i 6]).peer 2).intents.length < 4 ∧
    ((s (.intent 1 3 375) [i 3, i 4, i 5, i 6]).peer 2).intents.find?
      (fun x => decide (x.tag = 3)) = some (i 3) ∧
    ((s (.intent 1 3 375) [i 4, i 5, i 6, i 7]).peer 2).intents = i 4 :: [i 5, i 6, i 7] ∧
    (∀ x ∈ ((s (.intent 1 3 375) [i 4, i 5, i 6, i 7]).peer 2).intents, x.tag ≠ 3) ∧
    (s (.confirm 3 375) []).bus.budgetQueue = ⟨2, 12, .confirm 3 375⟩ :: [] ∧
    (s (.withdraw 3 375) []).bus.budgetQueue = ⟨2, 12, .withdraw 3 375⟩ :: [] ∧
    (s (.release 400) []).bus.budgetQueue = ⟨2, 12, .release 400⟩ :: [] ∧
    (s (.status ⟨1, [], .running, .active, 0⟩) []).bus.budgetQueue =
      ⟨2, 12, .status ⟨1, [], .running, .active, 0⟩⟩ :: [] := by decide +kernel

theorem witness_WindowJudged :
    let e := fun w : Bool => (⟨3, 0, 375, 16, some 0, none, w⟩ : OwnIntent)
    let s := (alone (windowOpen false)).updClaims (fun u => { u with committed := 1625 })
    let excess := s.updClaims (fun u => { u with committed := 1626 })
    let late := heard [⟨2, 0, .release 1⟩] s
    let n : OwnIntent := { e false with deadline := none, noted := some 1 }
    let noting := (heard [⟨2, 0, .release 1⟩] s).updClaims (fun u => { u with intents := [n] })
    let unlisted := excess.updClaim 0 (fun k => { k with listed := false })
    noting.intentOf 3 = some n ∧ noting.bus.budgetQueue = ⟨2, 0, .release 1⟩ :: [] ∧ n.noted = some 1 ∧
    (∀ x ∈ noting.claims.intents, x.noted ≠ none → x = n) ∧
    (∀ x ∈ noting.claims.intents, x.cage = n.cage → x = n) ∧ (unlisted.claim 0).listed = false ∧
    unlisted.conf.budget < unlisted.confirmSum (e false) ∧
    s.intentOf 3 = some (e false) ∧ (e false).deadline.isSome = true ∧ excess.intentOf 3 = some (e false) ∧
    s.startup.resetHeld = false ∧ s.openIntent 3 = some (e false) ∧ s.bus.txQueue.length < 8 ∧
    (∀ x ∈ s.claims.intents, x.cage = (e false).cage → x = e false) ∧
    s.claims.intents[0]? = some (e false) ∧ (s.claims.intents.map OwnIntent.tag).Nodup ∧
    s.bus.budgetQueue = [] ∧
    s.confirmSum (e false) = s.conf.budget ∧ (s.cage 0).state = .admitWait ∧
    excess.openIntent 3 = some (e false) ∧ excess.conf.budget < excess.confirmSum (e false) ∧
    (excess.claim 0).listed = true ∧ excess.bus.budgetQueue = [] ∧
    late.openIntent 3 = some (e false) ∧ late.bus.budgetQueue ≠ [] := by decide +kernel

/-- Each budget frame has its row. -/
theorem witness_WindowJudged_rows : appliesFrame .applyRelease (.release 1) ∧
    appliesFrame .applyIntent (.intent 1 3 375) ∧ appliesFrame .applyConfirm (.confirm 3 375) ∧
    appliesFrame .applyWithdraw (.withdraw 3 375) ∧
    appliesFrame .applyStatus (.status ⟨1, [], .running, .active, 0⟩) := ⟨rfl, rfl, rfl, rfl, rfl⟩

/-- The application of the last noted frame judges (R55): a peer's total of 400 released by it leaves the sum
at the budget. -/
theorem test_window_at_last_frame :
    let s := peerTo 2 .present 400 0 [] (((alone (windowOpen false))).updClaims (fun u =>
      { u with committed := 1625, intents := [⟨3, 0, 375, 16, none, some 1, false⟩] }))
    ((after .applyRelease (heard [⟨2, 0, .release 400⟩] s)).cage 0).state = .powerUp ∧
    ((after .applyRelease (heard [⟨2, 0, .release 399⟩] s)).claim 0).withdraws = 1 := by decide +kernel

/-- Who is senior to an entry at level 12 (R56, R57): the own PENDING entry at level 9, the one at level 12
whose window opened before, and the peer's intent at level 9, not the one at level 13. -/
theorem test_confirm_total :
    let x := fun (t : Tag) (l : Nat) => (⟨t, 0, 100, l, some 5, none, false⟩ : OwnIntent)
    let s := peerTo 2 .present 1000 0 [⟨1, 10, 9, 0⟩, ⟨2, 10, 13, 0⟩] (alone (base.updClaims (fun u =>
      { u with committed := 5000, intents := [x 1 12, x 2 12, x 3 9] })))
    s.confirmTotal 0 (x 1 12) = 6210 ∧ s.confirmTotal 1 (x 2 12) = 6310 ∧ s.confirmSum (x 2 12) = 6310 := by
  decide +kernel

/-- Cages 2, 3 and 4 on the admission list at levels 9, 8 and 8, cage 4 the longest there; the budget set. -/
def listedThree (budget : Nat) : State :=
  let listed := fun (c : Cage) (level since : Nat) (s : State) => s.updClaim c (fun k =>
    { k with listed := true, level := level, listTime := BitVec.ofNat 32 since, draw := 375 })
  ((listed 2 9 10 (listed 3 8 30 (listed 4 8 20 base))).updStartup (fun u =>
    { u with stationTime := 40,
             settings := some { profileSettings 0 with budget := budget, population := 0 } })).updClaims
    (fun u => { u with blindTimer := some 0 })

/-- Cage 5 out of its backoff: cage 4 is the candidate, which a budget of 375 admits and one of 374 does
not. -/
theorem witness_BackoffAndBlindEnd :
    let s := fun budget => (listedThree budget).updClaim 5 (fun k => { k with backoff := some 0 })
    let ended := fun budget => (s budget).updClaim 5 (fun k => { k with backoff := none })
    ((s 375).startup.resetHeld = false ∧ ((s 375).claim 5).backoff.isSome = true ∧
      (s 375).claims.blindTimer.isSome = true ∧ (s 375).bus.txQueue.length < 8) ∧
    (∀ budget ∈ [374, 375], (ended budget).mostUrgent 4) ∧
    (ended 375).admits 4 ∧ ¬ (ended 374).admits 4 := by
  refine ⟨by decide +kernel, ?_, ?_, fun h => absurd h.fits (by decide +kernel)⟩
  · simp only [State.mostUrgent, State.ready, State.listedBefore]
    decide +kernel
  · constructor
    case tag => simp only [State.tagFree]; decide +kernel
    all_goals decide +kernel

/-- A confirmed claim of 185 dW in POWER-UP, and a release-pending amount of 375 dW. -/
def claimed : State :=
  ((at_ 1 .powerUp base).updClaim 1 (fun k => { k with state := .confirmed, draw := 185 })).updClaims (fun u =>
    { u with committed := 560, releasePending := 375 })

/-- A confirmed claim of 185 dW in POWER-UP and a release-pending amount of 375 dW. -/
theorem witness_CommittedTotalKept :
    claimed.claimsSound ∧ step claimed = .next (idle claimed) ∧ claimed.totalMatches ∧
    (claimed.claim 1).state = .confirmed ∧ (claimed.claim 4).state ≠ .confirmed ∧
    (claimed.claim 4).draw = 0 ∧ 375 ≤ claimed.claims.releasePending := by
  have total : claimed.totalMatches := by unfold State.totalMatches; decide +kernel
  refine ⟨?_, rfl, total, by decide +kernel⟩
  constructor
  case total => exact total
  case release =>
    have e : claimed.bus.txQueue = [] := by decide +kernel
    simp [e]
  all_goals decide +kernel

theorem witness_DecayTick :
    let s := penaltyTo 1 760 (at_ 1 .holdDown (penaltyTo 2 63 (penaltyTo 3 64 base)))
    s.startup.resetHeld = false ∧ s.penalties.decay.isSome = true ∧ (s.penalty 0).value = 0 ∧
    (s.penalty 2).value < 2 ^ s.conf.decayShift ∧ 0 < (s.penalty 2).value ∧
    (s.cage 1).state = .holdDown ∧ decayStep s.conf.decayShift 760 < s.conf.reuse ∧
    s.conf.reuse ≤ decayStep s.conf.decayShift 761 := by decide +kernel

/-- The reading of `State.serves` at a state. -/
theorem base_serves : base.serves := by constructor <;> decide +kernel

/-- A record with no snapshot in the history of cage 3. -/
theorem witness_ReadsAnswered : base.serves ∧
    (handRecord 3 .manual .vacant none base).serves ∧
    ((base.events.histories[(3 : Cage)])[3]? = none) ∧
    ((handRecord 3 .manual .vacant none base).events.histories[(3 : Cage)])[0]?.isSome = true :=
  ⟨base_serves, by constructor <;> decide +kernel, by decide +kernel⟩

/-- A sample of one lane taken 5 ticks ago, and its REMOVED record under a capture mask of every kind. -/
def sampled : State :=
  ((base.updScan 3 (fun k => { k with
    sample := some ⟨7, -256, 3300, 1, [⟨1, 7, 65535, false, false⟩], some ⟨300, true⟩⟩ })).updStartup (fun u =>
    { u with stationTime := 12, settings := some { profileSettings 0 with captureMask := 0xFF } }))

/-- The parts of that record (Tables 9-4 and 9-5): −256 is FF00H, the powers are in bands 0 and 13. -/
theorem witness_ReadsAnswered_snapshot :
    let s := handRecord 3 .removed .inService none sampled
    (sampled.cageScan 3).sample.isSome = true ∧ sampled.conf.captureMask.getLsbD EventKind.removed.code = true ∧
    ((s.events.histories[(3 : Cage)])[0]?.bind EventRecord.snapshot).isSome = true ∧
    replies (after (.readEvent 3 0 2) s) = [(0x31, 0, [0, 0, 0xFF, 0x00, 0x0C, 0xE4])] ∧
    replies (after (.readEvent 3 0 3) s) = [(0x31, 0, [0, 0, 0xE1, 0x2C, 0, 5])] ∧
    replies (after (.readEvent 3 0 4) s) = [(0x31, 0, [0, 0, 0x0D, 0, 0, 0])] ∧
    replies (after (.readEvent 3 0 5) s) = [(0x31, 0, [0, 0, 0, 0, 0, 0])] := by decide +kernel

/-- A request at each bound of R163, out of it and in it. -/
theorem witness_RequestsTurnedAway_forms :
    (∀ q ∈ [(⟨12, []⟩ : Request), ⟨15, [1]⟩, ⟨0, []⟩, ⟨1, [1]⟩, ⟨4, [0]⟩, ⟨8, []⟩, ⟨11, [0]⟩, ⟨9, [1]⟩, ⟨10, [1]⟩,
      ⟨10, [255, 1, 2]⟩, ⟨0, [4]⟩, ⟨1, [4, 0]⟩, ⟨1, [0, 6]⟩, ⟨2, [32]⟩, ⟨3, [2]⟩, ⟨9, [0, 0]⟩, ⟨9, [0, 7]⟩,
      ⟨9, [251, 6]⟩], q.illFormed) ∧
    (∀ q ∈ [(⟨0x3A, [254, 1, 2]⟩ : Request), ⟨9, [250, 6]⟩, ⟨0, [3]⟩, ⟨1, [3, 5]⟩, ⟨2, [31]⟩, ⟨3, [1]⟩],
      ¬ q.illFormed) := by
  simp [Request.illFormed, byteAt]

/-- A MODULE-WRITE alters, and a REQUEST frame carries an unknown code or a wrong count. -/
theorem witness_RequestsTurnedAway_rows :
    rowRequest (.moduleWrite 3 254 [1, 2]) = some ⟨0x3A, [254, 1, 2]⟩ ∧
    rowRequest (.readCage 0 4) = some ⟨0, [4]⟩ ∧ Request.alters ⟨0x3A, [254, 1, 2]⟩ ∧
    (let ok := fun (f : Frame) => ∀ b, decodeFrame b (encodeFrame f) = .ok f
     ok ⟨2, 16, .request 5 12 []⟩ ∧ ok ⟨2, 16, .request 5 4 [0]⟩ ∧ sourceMatches base.conf 2 = true) :=
  ⟨by decide +kernel, by decide +kernel, .inr (.inl (by decide)), by decide +kernel⟩

/-- MODULE-WRITE in LISTENING is NOT-READY, and a REQUEST frame of an unknown code BAD-ARG (R163, R164). -/
theorem test_turned_away :
    replies (after (.moduleWrite 3 254 [1, 2]) (runs .listening 0 base)) = [(0x3A, 5, [])] ∧
    replies (after (.goodReception (encodeFrame ⟨2, 16, .request 5 0x3C []⟩)) base) = [(0x3C, 1, [])] := by
  decide +kernel

theorem witness_RequestsTurnedAway : base.serves ∧ (runs .listening 0 base).serves ∧
    4 ≤ (4 : Byte).toNat ∧ 32 ≤ (32 : Byte).toNat ∧
    (runs .listening 0 base).startup.runState = .listening ∧
    (base.updBus (fun b => { b with serviceQueue := List.replicate 4 ⟨0, [0]⟩ })).bus.serviceQueue.length =
      4 :=
  ⟨base_serves, by constructor <;> decide +kernel, by decide +kernel⟩

/-- A cage in a state the three requests ask about, at a state that serves. -/
theorem at_serves (c : Cage) (st : CageState) : (at_ c st base).serves :=
  ⟨base_serves.free, base_serves.onBus, base_serves.idle, base_serves.queue, base_serves.room⟩

theorem witness_HoldUnholdRetry : (at_ 3 .manualHold base).serves ∧ (at_ 3 .faulted base).serves ∧
    (at_ 3 .adopt base).serves ∧ base.startup.runState ≠ .listening ∧ base.bus.txQueue.length < 7 ∧
    ∀ st ∈ [CageState.manualHold, .faulted, .adopt], ((at_ 3 st base).cage 3).state = st :=
  ⟨at_serves 3 .manualHold, at_serves 3 .faulted, at_serves 3 .adopt, by decide +kernel⟩

theorem witness_PenaltyAndCeilingRequests : (at_ 3 .holdDown base).serves ∧ base.serves ∧
    base.startup.runState ≠ .listening ∧ base.bus.txQueue.length < 7 ∧
    ((at_ 3 .holdDown base).cage 3).state = .holdDown ∧ (base.line 3).present = true :=
  ⟨at_serves 3 .holdDown, base_serves, by decide +kernel⟩

/-- A ceiling of 9 keeps the candidate at level 8 and makes its INTENT; one of 8 leaves it out. -/
theorem test_ceiling_runs_test :
    ((after (.setCeiling 9) (listedThree 375)).claim 4).state = .queued ∧
    ((after (.setCeiling 8) (listedThree 375)).claim 4).state = .none := by decide +kernel

/-- Reads and writes at the top of the address space, and writes at the edges of the control bytes. -/
theorem witness_PassThroughPresented : base.serves ∧ base.startup.runState ≠ .listening ∧
    (base.link (segOf 3)).passThrough = none ∧ (250 : Byte).toNat + (6 : Byte).toNat ≤ 256 ∧
    (base.line 3).present = true ∧
    ((121 : Byte).toNat ≤ 121 ∧ 120 < (121 : Byte).toNat + ([1] : List Byte).length) ∧
    ¬ ((122 : Byte).toNat ≤ 121) ∧ ¬ (120 < (119 : Byte).toNat + ([1] : List Byte).length) ∧
    ((at_ 3 .faulted base).cage 3).state = .faulted :=
  ⟨base_serves, by decide +kernel⟩

/-- A part at a Restart: cage 0 in service with a chunk of its own in progress, cage 1 not enabled, cage 2 with
no module, cage 3 in low power, the REPLY under attempt. -/
def restarting : State :=
  let s := tryOf (.crs 0) (crsAsked .alertRead 0) (crsChunk .alertRead 0 1)
    (at_ 3 .manualHold (at_ 0 .inService base))
  let s := (s.updLines 2 (fun l => { l with present := false })).updLines 3 (fun l => { l with source := .forced })
  servicing .restartPending ⟨11, []⟩ (sending [underway 16 (.reply 11 0 [])] (s.updStartup (fun u =>
    { u with settings := u.settings.map (fun k =>
        { k with cages := modifyAt k.cages 1 (fun x => { x with enabled := false }) }) })))

theorem witness_RestartServedAndTaken : base.serves ∧ base.startup.runState ≠ .listening ∧
    restarting.startup.resetHeld = false ∧ restarting.startup.runState ≠ .loading ∧
    restarting.service.phase = .restartPending ∧ restarting.service.restartTimer.isSome = true ∧
    restarting.underAttempt = some (0, underway 16 (.reply 11 0 [])) ∧
    (restarting.cageConf 1).enabled = false ∧
    (restarting.cageConf 2).enabled = true ∧ (restarting.line 2).present = false ∧
    (restarting.cageConf 3).enabled = true ∧ (restarting.line 3).present = true ∧
    (restarting.outputs 3).lowPower = true ∧
    (restarting.cageConf 0).enabled = true ∧ (restarting.line 0).present = true ∧
    (restarting.outputs 0).lowPower = false ∧
    (restarting.link 0).state = .chunk ∧ (restarting.link 1).state = .idle ∧
    clockHeldOn ⟨true, false⟩ 0 = true ∧ clockHeldOn ⟨false, false⟩ 0 = false :=
  ⟨base_serves, by decide +kernel⟩

theorem witness_FrameRoundTrip :
    ∀ f ∈ [(⟨31, 31, .intent 15 15 4095⟩ : Frame), ⟨0, 0, .release 65520⟩,
      ⟨5, 31, .status ⟨65520, [3, 4], .running, .cautious, 16⟩⟩, ⟨5, 16, .request 0 0x1A [1, 2, 3, 4, 5]⟩,
      ⟨5, 16, .reply 0x30 0 [1, 2, 3, 4, 5, 6]⟩, ⟨5, 16, .cageReport ⟨15, .adopt, .overdraw, 16383⟩⟩],
      f.sound := by
  simp [Frame.sound]

theorem witness_StepKeepsSettled : base.settled = true ∧ step base = .next (idle base) :=
  ⟨by decide +kernel, rfl⟩

theorem witness_StepKeepsRanges : base.inRange ∧ step base = .next (idle base) :=
  ⟨{ penalties := fun c => ⟨by revert c; decide +kernel, by
        intro m h
        have : ∀ c : Cage, (base.penalty c).lastModule = none := by decide +kernel
        rw [this c] at h; cases h⟩
     bus := by constructor <;> decide +kernel
     histories := by unfold State.historiesBounded; decide +kernel
     scan := by unfold State.scanBounded; decide +kernel
     peers := by unfold State.peersBounded; decide +kernel
     totals :=
       { allowance := by decide +kernel
         queue := fun f h => absurd h (by
           have e : base.bus.budgetQueue = [] := by decide +kernel
           rw [e]; exact List.not_mem_nil)
         peers := by decide +kernel }
     tags := by unfold State.tagsBounded; decide +kernel }, rfl⟩

theorem witness_StepKeepsCagesSound : base.cagesSound ∧ step base = .next (idle base) :=
  ⟨{ records := fun c => by revert c; intro c; constructor <;> (revert c; decide +kernel)
     filters := fun _ c => by revert c; unfold CageLines.filtered; decide +kernel }, rfl⟩

theorem base_driven : base.drivenSound := fun c => by constructor <;> (revert c; decide +kernel)

theorem witness_StepKeepsDriven : base.drivenSound ∧ step base = .next (idle base) := ⟨base_driven, rfl⟩

theorem witness_PortAdmitSafe : base.drivenSound ∧
    exec .powerOnReset base = .next (heldInReset base) := ⟨base_driven, rfl⟩

end Sys2Proof.Tests
end

section
/-! PROOF. A budget frame of the receive queue applied to its source's peer entry (R67 to R70, R55). -/

namespace Sys2Proof.Machine

/-! ### The effect of a frame on a peer entry (R67 to R70) -/

/-- A frame with a body is that body's effect on the entry made ready (R67). -/
theorem PeerEntry.take_eq (allow : Nat) {f : Frame} {body : FrameBody} (e : PeerEntry)
    (h : f.body = body) :
    e.take allow f = (e.ready allow f.body.isStatus).takeBody f.level body :=
  congrArg (fun b => (e.ready allow f.body.isStatus).takeBody f.level b) h

theorem PeerEntry.promote_unlisted {e : PeerEntry} {tag : Tag}
    (h : ∀ i ∈ e.intents, i.tag ≠ tag) : e.promote tag = e := by
  have none : e.find tag = none := by simpa [PeerEntry.find] using h
  simp [PeerEntry.promote, none]

theorem PeerEntry.promote_listed {e : PeerEntry} {tag : Tag} {i : PeerIntent}
    (h : e.intents.find? (fun i => decide (i.tag = tag)) = some i) :
    e.promote tag = (e.credit i.draw).without tag := by
  simp [PeerEntry.promote, PeerEntry.find, h]

theorem PeerEntry.makeRoom_of_room {e : PeerEntry} (h : e.intents.length < 4) : e.makeRoom = e := by
  unfold PeerEntry.makeRoom
  split
  · exact if_neg (by omega)
  · rfl

theorem PeerEntry.makeRoom_of_full {e : PeerEntry} {i : PeerIntent} {more : List PeerIntent}
    (h : e.intents = i :: more) (full : more.length = 3) :
    e.makeRoom = { e.credit i.draw with intents := more } := by
  simp [PeerEntry.makeRoom, h, full]

/-- A listed tag that leaves the list makes it shorter. -/
theorem PeerEntry.length_without_lt {e : PeerEntry} {tag : Tag} {i : PeerIntent}
    (h : e.intents.find? (fun i => decide (i.tag = tag)) = some i) :
    (e.without tag).intents.length < e.intents.length := by
  have listed : i ∈ e.intents := List.mem_of_find?_eq_some h
  have tagged : i.tag = tag := by simpa using List.find?_some h
  exact List.length_filter_lt_length_iff_exists.2 ⟨i, listed, by simp [tagged]⟩

/-- An INTENT of a new tag, where the list has room (R68). -/
theorem PeerEntry.takeIntent_room {e : PeerEntry} {tag : Tag} {draw level : Nat}
    (new : ∀ i ∈ e.intents, i.tag ≠ tag) (room : e.intents.length < 4) :
    e.takeIntent tag draw level = { e with intents := e.intents ++ [⟨tag, draw, level, 0⟩] } := by
  simp [PeerEntry.takeIntent, promote_unlisted new, makeRoom_of_room room]

/-- An INTENT of a listed tag: the listed one is promoted, and that makes the room (R68). -/
theorem PeerEntry.takeIntent_listed {e : PeerEntry} {tag : Tag} {draw level : Nat} {i : PeerIntent}
    (listed : e.intents.find? (fun i => decide (i.tag = tag)) = some i) (most : e.intents.length ≤ 4) :
    e.takeIntent tag draw level = { e with
      confirmed := min 65520 (e.confirmed + i.draw),
      intents := e.intents.filter (fun i => decide (i.tag ≠ tag)) ++ [⟨tag, draw, level, 0⟩] } := by
  have shorter := length_without_lt listed
  have room : ((e.credit i.draw).without tag).intents.length < 4 := lt_of_lt_of_le shorter most
  rw [PeerEntry.takeIntent, promote_listed listed, makeRoom_of_room room]
  rfl

/-- An INTENT of a new tag, where the list is full: the oldest is promoted (R68). -/
theorem PeerEntry.takeIntent_full {e : PeerEntry} {tag : Tag} {draw level : Nat} {i : PeerIntent}
    {more : List PeerIntent} (list : e.intents = i :: more) (full : more.length = 3)
    (new : ∀ x ∈ e.intents, x.tag ≠ tag) :
    e.takeIntent tag draw level = { e with
      confirmed := min 65520 (e.confirmed + i.draw),
      intents := more ++ [⟨tag, draw, level, 0⟩] } := by
  rw [PeerEntry.takeIntent, promote_unlisted new, makeRoom_of_full list full]
  rfl

/-! ### What a judgement leaves alone (R57 to R59) -/

theorem dropIntent_onlyCage (c : Cage) (tag : Tag) (s : State) : OnlyCage c s (dropIntent tag s) :=
  updClaims_onlyCage _ _ _ ⟨rfl, rfl, rfl, rfl⟩

theorem queueFrame_onlyCage (c : Cage) (level : Nat) (body : FrameBody) (s : State) :
    OnlyCage c s (queueFrame level body s) := (queueFrame_work level body s).onlyCage c

theorem confirmIntent_onlyCage (e : OwnIntent) (s : State) : OnlyCage e.cage s (confirmIntent e s) := by
  have claimed := (dropIntent_onlyCage e.cage e.tag s).trans (setClaim_onlyCage e.cage .confirmed _)
  have added := claimed.trans (updClaims_onlyCage e.cage
    (fun k => { k with committed := k.committed + e.draw }) _ ⟨rfl, rfl, rfl, rfl⟩)
  have left := (added.trans (queueFrame_onlyCage e.cage e.level (.confirm e.tag e.draw) _)).trans
    (leaveList_onlyCage e.cage _)
  unfold confirmIntent
  dsimp only
  split
  · exact left.trans (moveCage_onlyCage ..)
  · exact left

theorem withdrawIntent_onlyCage (e : OwnIntent) (s : State) :
    OnlyCage e.cage s (withdrawIntent e s) := by
  have dropped := (dropIntent_onlyCage e.cage e.tag s).trans
    (queueFrame_onlyCage e.cage e.level (.withdraw e.tag e.draw) _)
  unfold withdrawIntent
  dsimp only
  refine OnlyCage.trans ?_ (dueTest_onlyCage ..)
  split
  · exact dropped.trans (updClaim_onlyCage ..)
  · exact dropped.trans (setClaim_onlyCage ..)

theorem judgeIntent_onlyCage (e : OwnIntent) (s : State) : OnlyCage e.cage s (judgeIntent e s) := by
  unfold judgeIntent
  split
  · exact confirmIntent_onlyCage e s
  · exact withdrawIntent_onlyCage e s

theorem OnlyCage.budgetQueue {c : Cage} {s t : State} (h : OnlyCage c s t) :
    t.bus.budgetQueue = s.bus.budgetQueue := by
  rw [h.bus]

/-! ### The judgements an application makes due (R55) -/

/-- The judgements move neither the peer view nor the budget receive queue. -/
theorem judgeDue_keeps (s : State) :
    (judgeDue s).peers = s.peers ∧ (judgeDue s).bus.budgetQueue = s.bus.budgetQueue := by
  unfold judgeDue
  refine foldl_invariant
    (fun u : State => u.peers = s.peers ∧ u.bus.budgetQueue = s.bus.budgetQueue) _ ?_ _ _ ⟨rfl, rfl⟩
  rintro u e ⟨peers, queue⟩
  split
  · next own _ =>
    have only := judgeIntent_onlyCage own u
    exact ⟨only.peers.trans peers, only.budgetQueue.trans queue⟩
  · exact ⟨peers, queue⟩

theorem OwnIntent.counted_of_unnoted {e : OwnIntent} (h : e.noted = none) : e.counted = e := by
  cases e
  simp_all [OwnIntent.counted]

/-- Where no judgement waits for an application, an application makes none due. -/
theorem judgeDue_of_unnoted {s : State} (h : ∀ e ∈ s.claims.intents, e.noted = none) :
    judgeDue s = s := by
  have counted : s.claims.intents.map OwnIntent.counted = s.claims.intents :=
    (List.map_congr_left fun e m => OwnIntent.counted_of_unnoted (h e m)).trans (List.map_id _)
  have same : s.updClaims (fun k => { k with intents := k.intents.map OwnIntent.counted }) = s := by
    simp only [State.updClaims, counted]
  have none_due : s.judgeable = [] :=
    List.filter_eq_nil_iff.2 fun e m => by simp [h e m]
  simp only [judgeDue, same, none_due, List.foldl_nil]

/-! ### The oldest frame applied (R55, R67) -/

/-- The queue-time test moves the claims' states, the own intents and the tag alone. -/
theorem Tested.testDue {s t : State} (h : Tested s t) : t.claims.testDue = s.claims.testDue := by
  induction h with
  | stops => rfl
  | queues _ _ _ _ _ _ ih => rw [ih]; rfl

/-- No event ends with a queue-time test due. -/
theorem EndsAs.testDue {u t : State} (h : EndsAs u t) : t.claims.testDue = false := by
  cases due : u.claims.testDue with
  | false => rw [(h.untested due).1, due]
  | true =>
    obtain ⟨v, w, _, begun, _, run, claims, _⟩ := h.tested due
    rw [claims, run.testDue, begun]

/-- The state with a station's entry and the rest of the budget receive queue put in place. -/
def State.withEntry (s : State) (n : Station) (entry : PeerEntry) (rest : List Frame) : State :=
  (s.updPeer n (fun _ => entry)).updBus (fun b => { b with budgetQueue := rest })

/-- The oldest frame taken puts its source's entry and the rest of the queue in place, and makes the
queue-time test and the judgements due (R67, R52, R55). -/
theorem applyOldest_eq {s : State} {f : Frame} {rest : List Frame}
    (queue : s.bus.budgetQueue = f :: rest) :
    applyOldest s = judgeDue (dueTest
      (s.withEntry f.source ((s.peer f.source).take s.conf.unknownAllow f) rest)) := by
  simp only [applyOldest, queue]
  rfl

/-- The oldest frame applied: its source's entry, and nothing else of the peer view, and no judgement
where none waits for it. -/
theorem oldest_applied {s : State} {f : Frame} {rest : List Frame} {occurs : Bool} {entry : PeerEntry}
    (free : s.startup.resetHeld = false) (queue : s.bus.budgetQueue = f :: rest)
    (now : occurs = true) (taken : (s.peer f.source).take s.conf.unknownAllow f = entry) :
    ∃ t, eventNext occurs applyOldest s = .next t ∧
      t.peer f.source = entry ∧ (∀ n : Station, n ≠ f.source → t.peer n = s.peer n) ∧
      t.bus.budgetQueue = rest ∧ t.claims.testDue = false ∧
      ((∀ x ∈ s.claims.intents, x.noted = none) →
        SameOutsideWork (s.withEntry f.source entry rest) t) := by
  obtain ⟨t, next, ends⟩ := eventNext_occurs (effect := applyOldest) free now
  rw [applyOldest_eq queue, taken] at ends
  obtain ⟨peers, left⟩ := judgeDue_keeps (dueTest (s.withEntry f.source entry rest))
  have view : ∀ n, t.peer n = (s.updPeer f.source (fun _ => entry)).peer n := fun n => by
    simp only [State.peer, ends.same.peers, peers]
    rfl
  refine ⟨t, next, ?_, fun n other => ?_, ?_, ends.testDue, fun unnoted => ?_⟩
  · exact (view _).trans (peer_updPeer ..)
  · exact (view n).trans (peer_updPeer_other _ _ _ _ other)
  · rw [ends.same.bus]
    exact left
  · have none_due : judgeDue (dueTest (s.withEntry f.source entry rest)) = dueTest _ :=
      judgeDue_of_unnoted unnoted
    rw [none_due] at ends
    exact (testDue_work _ true).trans ends.same

/-- Settles O42: `oldest_applied` for each kind of frame, with the entry that R68 to R70 give. -/
theorem budgetFrameApplied : Obligations.BudgetFrameApplied := by
  intro f rest s free queue
  have oldest : ∀ {body}, f.body = body → s.oldestBody = some body := fun h => by
    simp [State.oldestBody, queue, h]
  have taken := fun {body} (h : f.body = body) =>
    PeerEntry.take_eq s.conf.unknownAllow (s.peer f.source) h
  refine ⟨fun c tag d h => ⟨fun new room => ?_, fun i listed most => ?_, fun i more list full new => ?_⟩,
    fun tag d h => ?_, fun tag d h => ?_, fun amount h => ?_, fun k h => ?_⟩
  · exact oldest_applied free queue (by rw [oldest h])
      ((taken h).trans (PeerEntry.takeIntent_room new room))
  · exact oldest_applied free queue (by rw [oldest h])
      ((taken h).trans (PeerEntry.takeIntent_listed listed most))
  · exact oldest_applied free queue (by rw [oldest h])
      ((taken h).trans (PeerEntry.takeIntent_full list full new))
  all_goals exact oldest_applied free queue (by rw [oldest h]) (taken h)

end Sys2Proof.Machine
end

section
/-! PROOF. The reading requests answered, and the bands of a snapshot (R73, R165 to R167, R175 to R177). -/

namespace Sys2Proof.Machine

/-! ### Bytes -/

theorem byteOf_toNat {n : Nat} (h : n < 256) : (byteOf n).toNat = n := by
  simpa [byteOf] using h

/-- A temperature's two bytes are those of its residue modulo 65536 (R177). -/
theorem twosComplement_eq (t : Int) : twosComplement t = (t % 65536).toNat := by
  simp [twosComplement]

/-- The draw bytes of a snapshot in the terms of Table 9-5. -/
theorem drawBytes_eq (draw : Option Draw) :
    drawBytes draw =
      [byteOf (128 + match draw with
        | some d => 64 + (if d.saturated then 32 else 0) + d.value / 256
        | none => 0),
       byteOf (match draw with | some d => d.value | none => 0)] := by
  cases draw with
  | none => rfl
  | some d => simp only [drawBytes, lowByte, Nat.add_assoc]

/-! ### Power bands (R176) -/

theorem powerBand_zero_iff (p : Nat) : powerBand p = 0 ↔ p < 8 := by
  unfold powerBand
  split
  · next low => simp [low]
  · next high =>
    have three : 3 ≤ Nat.log2 p := (Nat.le_log2 (by omega)).2 (by omega)
    omega

/-- A power of 8 or more lies in the octave of its band (Table 9-4). -/
theorem powerBand_octave {p : Nat} (h : 8 ≤ p) :
    2 ^ (powerBand p + 2) ≤ p ∧ p < 2 ^ (powerBand p + 3) := by
  have three : 3 ≤ Nat.log2 p := (Nat.le_log2 (by omega)).2 (by omega)
  have band : powerBand p + 2 = Nat.log2 p := by
    rw [powerBand, if_neg (by omega)]
    omega
  rw [show powerBand p + 3 = Nat.log2 p + 1 by omega, band]
  exact ⟨Nat.log2_self_le (by omega), Nat.lt_log2_self⟩

/-- A snapshot holds a pair of bands for each lane entry of the sample (R176). -/
theorem snapshotOf_bands (now : StationTime) (x : Sample) (i : Nat) {e : LaneEntry} {b : Nat × Nat}
    (lane : x.entries[i]? = some e) (pair : (snapshotOf now x).bands[i]? = some b) :
    b = (powerBand e.txPower, powerBand e.rxPower) := by
  simpa [snapshotOf, lane, eq_comm] using pair

/-! ### The data of the replies (Table 8-3) -/

theorem serialBytes_eq (id : Option Identity) (start count : Nat) :
    serialBytes id start count = (List.range count).map (fun i =>
      match id with
      | some id => byteAt id.serial (start + i)
      | none => 0) := by
  cases id with
  | none => simp [serialBytes]
  | some id => rfl

theorem eventData_missing {s : State} {c : Cage} {index : Nat} (part : Nat)
    (h : s.events.histories[c][index]? = none) : eventData s c index part = [] := by
  simp only [eventData, h]

theorem eventData_found {s : State} {c : Cage} {index : Nat} {r : EventRecord} (part : Nat)
    (h : s.events.histories[c][index]? = some r) :
    eventData s c index part = [highByte r.sequence, lowByte r.sequence] ++ recordPart r part := by
  simp only [eventData, h]

/-- Part 1 of a record, with 0 for no cause and no snapshot (Table 9-5). -/
theorem recordPart_one (r : EventRecord) :
    recordPart r 1 = [byteOf (r.kind.code * 16 + r.before.code),
      byteOf ((match r.cause with | some q => q.code | none => 0) * 16 +
        (match r.snapshot with | some p => p.lanes | none => 0)),
      byteOf (r.penalty / 256), byteOf r.penalty] := by
  cases cause : r.cause <;> cases taken : r.snapshot <;>
    simp [recordPart, cause, taken, nibbles, highByte, lowByte]

/-- Of a record with no snapshot the parts from 2 on are zeros (R177). -/
theorem recordPart_unsampled {r : EventRecord} {part : Nat} (late : 2 ≤ part)
    (h : r.snapshot = none) : recordPart r part = [0, 0, 0, 0] := by
  unfold recordPart
  split
  · omega
  · omega
  all_goals simp only [h]

/-- The parts of a record that hold its snapshot (Table 9-5). -/
theorem recordPart_sampled {r : EventRecord} {p : Snapshot} (h : r.snapshot = some p) :
    recordPart r 2 = [highByte (p.temperature % 65536).toNat, lowByte (p.temperature % 65536).toNat,
      highByte p.supply, lowByte p.supply] ∧
    recordPart r 3 = drawBytes p.draw ++ [highByte p.age, lowByte p.age] ∧
    recordPart r 4 = [bandByte p 0, bandByte p 1, bandByte p 2, bandByte p 3] ∧
    recordPart r 5 = [bandByte p 4, bandByte p 5, bandByte p 6, bandByte p 7] := by
  simp only [recordPart, h, twosComplement_eq, and_self]

/-! ### A request served at once (R162, R163) -/

/-- The state with a DONE reply handed over and the service unit REPLYING (R162, R164). -/
def State.answeredDone (s : State) (r : Request) (data : List Byte) : State :=
  (s.replying r).updBus
    (fun b => { b with txQueue := b.txQueue ++ [newFrame 16 (.reply r.code 0 data)] })

theorem answer_done {s : State} (room : s.bus.txQueue.length < 8) (r : Request) (data : List Byte) :
    answer r .done data s = s.answeredDone r data := by
  have placed := fun f => show s.bus.place f = { s.bus with txQueue := s.bus.txQueue ++ [f] } from
    if_pos room
  simp only [answer, queueFrame, State.updBus, placed]
  rfl

/-- A request that arrives where the service unit is IDLE and no other waits is taken at once. -/
theorem acceptRequest_of_serves {s : State} (h : s.serves) (r : Request) :
    acceptRequest r s = serveRequest r s := by
  have taken : s.updBus (fun b => { b with serviceQueue := [] }) = s := by
    simp only [State.updBus, ← h.queue]
  have waits : (s.updBus (fun b => { b with serviceQueue := b.serviceQueue ++ [r] })).bus.serviceQueue =
      [r] := by simp [h.queue]
  have empty : s.bus.serviceQueue.length < 4 := by simp [h.queue]
  rw [acceptRequest, if_pos empty]
  simp only [updBus_service, h.idle, if_true, serveNext, waits]
  exact congrArg (serveRequest r) taken

/-- A request that passes the checks of R163 is carried out. -/
theorem requestArrives_of_serves {s : State} {r : Request} (h : s.serves)
    (passes : r.judge s.startup.runState = none) :
    ∃ t, requestArrives r s = .next t ∧ EndsAs (carryOut r s) t := by
  obtain ⟨t, next, ends⟩ := eventNext_occurs (occurs := s.onBus) (effect := acceptRequest r) h.free
    (by simpa [State.onBus] using h.onBus)
  rw [acceptRequest_of_serves h, serveRequest, passes] at ends
  exact ⟨t, next, ends⟩

/-! ### The reading requests by their codes (Table 8-1) -/

theorem codeNo_cageCode (c : Cage) {code : Nat} (h : code < 16) (args : List Byte) :
    Request.codeNo ⟨cageCode c code, args⟩ = code := by
  have := c.isLt
  simp only [Request.codeNo, cageCode, nibbles, byteOf_toNat (n := c.val * 16 + code) (by omega)]
  omega

theorem cage_cageCode (c : Cage) {code : Nat} (h : code < 16) (args : List Byte) :
    Request.cage ⟨cageCode c code, args⟩ = c := by
  have := c.isLt
  simp only [Request.cage, cageCode, nibbles, byteOf_toNat (n := c.val * 16 + code) (by omega)]
  exact Fin.ext (by simp; omega)

/-- A request for reading is turned away for its form alone: none changes state. -/
theorem judge_read {r : Request} {run : RunState} (code : r.codeNo ≤ 3) (count : r.countGood = true)
    (range : r.rangeGood = true) : r.judge run = none := by
  have reads : r.changesState = false := by
    obtain h | h | h | h : r.codeNo = 0 ∨ r.codeNo = 1 ∨ r.codeNo = 2 ∨ r.codeNo = 3 := by omega
    all_goals simp [Request.changesState, h]
  rw [Request.judge, if_neg (by omega)]
  simp [count, range, reads]

/-! ### The reading requests answered (R165 to R167) -/

theorem cageData_eq (s : State) (c : Cage) {part : Nat} (h : part ≤ 3) :
    let k := s.cage c
    let d := (match k.identity with | some id => id.draw | none => 0)
    let pm := (match k.identity with | some id => id.pm | none => 0)
    let serial := fun i => (match k.identity with | some id => byteAt id.serial i | none => 0)
    cageData s c part =
      if part = 0 then
        [byteOf (k.state.code * 16 + k.cause.code),
         byteOf ((s.claim c).state.code * 32 + (s.claim c).level),
         byteOf ((s.penalty c).value / 256), byteOf (s.penalty c).value,
         byteOf (d / 256), byteOf d]
      else if part = 1 then
        [byteOf (pm / 256), byteOf pm, serial 0, serial 1, serial 2, serial 3]
      else if part = 2 then
        [serial 4, serial 5, serial 6, serial 7, serial 8, serial 9]
      else [serial 10, serial 11, serial 12, serial 13, serial 14, serial 15] := by
  obtain rfl | rfl | rfl | rfl : part = 0 ∨ part = 1 ∨ part = 2 ∨ part = 3 := by omega
  · rfl
  all_goals
    simp only [cageData, serialBytes_eq]
    rfl

theorem readCage_answered {s : State} (h : s.serves) (c : Cage) {part : Byte} (range : part.toNat ≤ 3) :
    ∃ t, exec (.readCage c part) s = .next t ∧
      EndsAs (s.answeredDone ⟨cageCode c 0, [part]⟩ (cageData s c part.toNat)) t := by
  have code := codeNo_cageCode c (code := 0) (by omega) [part]
  have passes := judge_read (run := s.startup.runState) (code.trans_le (by omega))
    (by simp [Request.countGood, code]) (by simpa [Request.rangeGood, code, Request.arg, byteAt] using range)
  obtain ⟨t, next, ends⟩ := requestArrives_of_serves h passes
  simp only [carryOut, code, cage_cageCode c (code := 0) (by omega)] at ends
  rw [answer_done h.room] at ends
  exact ⟨t, next, ends⟩

theorem readEvent_answered {s : State} (h : s.serves) (c : Cage) {index part : Byte}
    (recent : index.toNat ≤ 3) (range : part.toNat ≤ 5) :
    ∃ t, exec (.readEvent c index part) s = .next t ∧
      EndsAs (s.answeredDone ⟨cageCode c 1, [index, part]⟩
        (eventData s c index.toNat part.toNat)) t := by
  have code := codeNo_cageCode c (code := 1) (by omega) [index, part]
  have passes := judge_read (run := s.startup.runState) (code.trans_le (by omega))
    (by simp [Request.countGood, code])
    (by simpa [Request.rangeGood, code, Request.arg, byteAt] using And.intro recent range)
  obtain ⟨t, next, ends⟩ := requestArrives_of_serves h passes
  simp only [carryOut, code, cage_cageCode c (code := 1) (by omega)] at ends
  rw [answer_done h.room] at ends
  exact ⟨t, next, ends⟩

/-- The bytes of a peer entry, with 15 for no run state and no health (R73). -/
theorem peerData_eq (e : PeerEntry) :
    peerData e = [byteOf e.status.code, byteOf (e.confirmed / 256), byteOf e.confirmed,
      byteOf e.intents.length, byteOf e.age,
      byteOf ((match e.runState with | some r => r.code | none => 15) * 16 +
        (match e.health with | some h => h.code | none => 15))] := by
  cases run : e.runState <;> cases health : e.health <;>
    simp [peerData, run, health, nibbles, highByte, lowByte]

theorem readPeer_answered {s : State} (h : s.serves) (n : Station) :
    ∃ t, exec (.readPeer (byteOf n.val)) s = .next t ∧
      EndsAs (s.answeredDone ⟨2, [byteOf n.val]⟩ (s.peerReply n)) t := by
  have number : Request.arg ⟨byteOf 2, [byteOf n.val]⟩ 0 = n.val :=
    byteOf_toNat (n.isLt.trans (by omega))
  have code : Request.codeNo ⟨byteOf 2, [byteOf n.val]⟩ = 2 := rfl
  have passes := judge_read (run := s.startup.runState) (code.trans_le (by omega)) rfl
    (by simp only [Request.rangeGood, code, number, decide_eq_true_eq]; omega)
  obtain ⟨t, next, ends⟩ := requestArrives_of_serves h passes
  simp only [carryOut, code, number, Fin.ofNat_eq_cast, Fin.cast_val_eq_self] at ends
  rw [answer_done h.room] at ends
  exact ⟨t, next, ends⟩

/-- READ-HEALTH of part 0 leaves the last bus error at NONE (R101). -/
theorem readHealth_zero_answered {s : State} (h : s.serves) :
    ∃ t, exec (.readHealth 0) s = .next t ∧
      EndsAs ((s.updBus (BusUnit.noteError .none)).answeredDone ⟨3, [0]⟩ (healthData s.bus 0)) t := by
  obtain ⟨t, next, ends⟩ := requestArrives_of_serves (r := ⟨byteOf 3, [0]⟩) h
    (judge_read (by decide) rfl rfl)
  have served : carryOut ⟨byteOf 3, [0]⟩ s =
      answer ⟨3, [0]⟩ .done (healthData s.bus 0) (s.updBus (BusUnit.noteError .none)) := rfl
  have room : (s.updBus (BusUnit.noteError .none)).bus.txQueue.length < 8 := h.room
  rw [served, answer_done room] at ends
  exact ⟨t, next, ends⟩

theorem readHealth_one_answered {s : State} (h : s.serves) :
    ∃ t, exec (.readHealth 1) s = .next t ∧
      EndsAs (s.answeredDone ⟨3, [1]⟩ (healthData s.bus 1)) t := by
  obtain ⟨t, next, ends⟩ := requestArrives_of_serves (r := ⟨byteOf 3, [1]⟩) h
    (judge_read (by decide) rfl rfl)
  have served : carryOut ⟨byteOf 3, [1]⟩ s = answer ⟨3, [1]⟩ .done (healthData s.bus 1) s := rfl
  rw [served, answer_done h.room] at ends
  exact ⟨t, next, ends⟩

/-! ### The snapshot of a record (R175, R176) -/

theorem snapshotFor_none {s : State} {c : Cage} {kind : EventKind}
    (h : s.conf.captureMask.getLsbD kind.code = false ∨ (s.cageScan c).sample = none) :
    snapshotFor s c kind = none := by
  rcases h with h | h <;> simp [snapshotFor, h]

theorem snapshotFor_some {s : State} {c : Cage} {kind : EventKind} {x : Sample}
    (mask : s.conf.captureMask.getLsbD kind.code = true) (sample : (s.cageScan c).sample = some x) :
    snapshotFor s c kind = some (snapshotOf s.startup.stationTime x) := by
  simp [snapshotFor, mask, sample]

/-- Settles O47: each reading request by its own lemma above, and the snapshot's bands by
`powerBand_octave`. -/
theorem readsAnswered : Obligations.ReadsAnswered := by
  intro s h
  refine ⟨fun c => ?_, fun n => ?_, readHealth_zero_answered h, readHealth_one_answered h,
    fun c index part recent range => ?_, fun c kind number penalty before cause => ⟨?_, ?_⟩⟩
  · intro k d pm serial code part range
    obtain ⟨t, next, ends⟩ := readCage_answered h c range
    rw [cageData_eq s c range] at ends
    exact ⟨t, next, ends⟩
  · obtain ⟨t, next, ends⟩ := readPeer_answered h n
    rw [State.peerReply, peerData_eq] at ends
    exact ⟨t, next, ends⟩
  · obtain ⟨t, next, ends⟩ := readEvent_answered h c recent range
    refine ⟨t, next, fun gone => ?_, fun r found => ?_⟩
    · rwa [eventData_missing _ gone] at ends
    · rw [eventData_found _ found] at ends
      refine ⟨fun zero => ?_, fun one => ?_, fun late none => ?_, fun p taken => ?_⟩
      · rw [zero] at ends
        exact ends
      · rw [one, recordPart_one] at ends
        exact ends
      · rw [recordPart_unsampled late none] at ends
        exact ends
      · obtain ⟨two, three, four, five⟩ := recordPart_sampled taken
        refine ⟨fun at2 => ?_, fun at3 => ?_, fun at4 => ?_, fun at5 => ?_⟩
        · rw [at2, two] at ends
          exact ends
        · rw [at3, three, drawBytes_eq] at ends
          exact ends
        · rw [at4, four] at ends
          exact ends
        · rw [at5, five] at ends
          exact ends
  · exact snapshotFor_none
  · intro x mask sample
    refine ⟨_, snapshotFor_some mask sample, rfl, rfl, rfl, rfl, rfl, List.length_map _, ?_⟩
    intro i e tx rx lane pair
    obtain ⟨rfl, rfl⟩ := Prod.mk.inj (snapshotOf_bands _ x i lane pair)
    exact ⟨powerBand_zero_iff _, powerBand_zero_iff _, powerBand_octave, powerBand_octave⟩

end Sys2Proof.Machine
end

section
/-! PROOF. A decay tick: the penalties, the last-module records, and the reuse reports (R106 to R108, R110,
R30). -/

namespace Sys2Proof.Machine

/-! ### The decrement and the last-module records (R107, R110) -/

theorem decayStep_zero (shift : Nat) : decayStep shift 0 = 0 := rfl

theorem decayStep_of_ne_zero {shift p : Nat} (h : p ≠ 0) :
    decayStep shift p = p - max 1 (p / 2 ^ shift) := if_neg h

/-- Below 2^s the quotient is 0, and the decrement is the least one (R107). -/
theorem decayStep_of_lt {shift p : Nat} (pos : 0 < p) (h : p < 2 ^ shift) :
    decayStep shift p = p - 1 := by
  rw [decayStep_of_ne_zero pos.ne', Nat.div_eq_of_lt h]
  rfl

theorem penalty_decayPenalties (s : State) (c : Cage) :
    (decayPenalties s).penalty c =
      { value := decayStep s.conf.decayShift (s.penalty c).value,
        lastModule := (s.penalty c).lastModule.map
          (markStale s.startup.stationTime s.reseatLimit) } := by
  simp [decayPenalties, State.penalty]

/-! ### The open order (log entry 1) -/

theorem insertByKey_perm {α : Type} (key : α → Nat) (x : α) (l : List α) :
    (insertByKey key x l).Perm (x :: l) := by
  induction l with
  | nil => exact .refl _
  | cons y l ih =>
    unfold insertByKey
    split
    · exact .refl _
    · exact (ih.cons y).trans (.swap x y l)

theorem sortByKey_perm {α : Type} (key : α → Nat) (l : List α) : (sortByKey key l).Perm l := by
  induction l with
  | nil => exact .refl _
  | cons x l ih => exact (insertByKey_perm key x _).trans (ih.cons x)

/-- Whatever the order that the spec leaves open, it takes each cage once. -/
theorem openOrder_perm (s : State) (cs : List Cage) : (s.openOrder cs).Perm cs := sortByKey_perm _ cs

/-! ### A cage's record and scan record through the operations of the sequencer -/

/-- A cage's record is the one given, whatever requests wait on its list, and its scan record is the one
given. -/
def State.shows (t : State) (c : Cage) (k : CageRecord) (x : CageScan) : Prop :=
  t.recordIs c k ∧ t.cageScan c = x

theorem shows_self (s : State) (c : Cage) : s.shows c (s.cage c) (s.cageScan c) := ⟨rfl, rfl⟩

theorem State.shows.state_eq {t : State} {c : Cage} {k : CageRecord} {x : CageScan}
    (h : t.shows c k x) : (t.cage c).state = k.state := by
  obtain ⟨record, -⟩ := h
  rw [record]

/-- What touches a cage's waiting requests alone leaves it to show what it showed. -/
theorem State.shows.of_requests {s t : State} {c : Cage} {k : CageRecord} {x : CageScan}
    (h : s.shows c k x) (record : t.cage c = { s.cage c with requests := (t.cage c).requests })
    (scan : t.cageScan c = s.cageScan c) : t.shows c k x := by
  obtain ⟨shown, scanned⟩ := h
  refine ⟨?_, scan.trans scanned⟩
  unfold State.recordIs
  rw [record, shown]

theorem State.shows.otherCage {s t : State} {c d : Cage} {k : CageRecord} {x : CageScan}
    (h : s.shows c k x) (only : OnlyCage d s t) (other : c ≠ d) : t.shows c k x :=
  h.of_requests (only.cages c other) (only.scans c other)

theorem State.shows.endsAs {u t : State} {c : Cage} {k : CageRecord} {x : CageScan}
    (h : u.shows c k x) (ends : EndsAs u t) : t.shows c k x :=
  h.of_requests (ends.same.cages c) (cageScan_congr (by rw [ends.same.scan]) c)

/-! ### RELIGHT entered (R22, R30) -/

theorem discardScan_scanCages (g : Seg) (s : State) :
    (discardScan g s).scan.cages = s.scan.cages := by
  unfold discardScan
  (repeat' split) <;> simp [clearSlot]

theorem dropScanOf_cageScan (c d : Cage) (s : State) :
    (dropScanOf c s).cageScan d = s.cageScan d := by
  unfold dropScanOf
  split
  · exact cageScan_congr (discardScan_scanCages _ s) d
  · rfl

/-- A move to a powered state leaves the scanners and the scan records alone (R135, R143). -/
theorem moveCage_scan_of_powered (c : Cage) {new : CageState} (cause : FaultCause) (s : State)
    (h : new.powered = true) : (moveCage c new cause s).scan = s.scan := by
  have notVacant : new ≠ .vacant := by rintro rfl; cases h
  unfold moveCage
  simp only [h, notVacant, if_true, if_false]
  (repeat' split) <;> simp

/-- A move to RELIGHT starts the settle timer and, since its pattern does not assert RESET, keeps the
wanted tx-disable value (R3, R8). -/
theorem moveCage_relight_cage (c : Cage) (s : State) :
    (moveCage c .relight .none s).cage c = { s.cage c with
      state := .relight, timers := { noTimers with settle := some s.conf.settleTimeout },
      visit := (s.cage c).visit + 1, cause := .none } := by
  rw [moveCage_cage]
  rfl

theorem wantTx_cage (c : Cage) (value : Byte) (s : State) :
    (wantTx c value s).cage c = { s.cage c with
      wantedTx := some value,
      requests := addRequest ⟨.txDisable, value, (s.cage c).visit⟩ (s.cage c).requests } := by
  simp [wantTx, ask]

theorem clearWindows_cageScan (c : Cage) (s : State) :
    (clearWindows c s).cageScan c = (s.cageScan c).clearWindows := by
  rw [clearWindows, dropScanOf_cageScan, cageScan_updScan]

/-- The transmitters enabled, the verdict at no, and the windows empty (R22, R30). -/
theorem startSettling_shows (c : Cage) (s : State) :
    (startSettling c s).shows c { s.cage c with wantedTx := some 0, laneStable := false }
      (s.cageScan c).clearWindows := by
  have cleared : (clearWindows c (wantTx c 0 s)).cage c = (wantTx c 0 s).cage c :=
    cage_congr (by simp) c
  have scans : (wantTx c 0 s).cageScan c = s.cageScan c := cageScan_congr (by simp) c
  constructor
  · unfold State.recordIs
    rw [startSettling, cage_updCage, cleared, wantTx_cage]
  · rw [startSettling, cageScan_updCage, clearWindows_cageScan, scans]

/-- A cage's record as it enters RELIGHT, with the training retry count at 0 (R30). -/
def CageRecord.inRelight (conf : Settings) (k : CageRecord) : CageRecord :=
  { k.inSettle conf .relight with trainRetries := 0 }

theorem enterRelight_shows {s : State} {c : Cage} {k : CageRecord} {x : CageScan}
    (h : s.shows c k x) : (enterRelight c s).shows c (k.inRelight s.conf) x.clearWindows := by
  obtain ⟨record, rfl⟩ := h
  have scans : (moveCage c .relight .none s).cageScan c = s.cageScan c :=
    cageScan_congr (by rw [moveCage_scan_of_powered c .none s rfl]) c
  obtain ⟨settling, windows⟩ := startSettling_shows c (moveCage c .relight .none s)
  constructor
  · unfold State.recordIs
    rw [enterRelight, zeroRetries, cage_updCage, settling, moveCage_relight_cage, record]
    rfl
  · rw [enterRelight, zeroRetries, cageScan_updCage, windows, scans]

theorem wantTx_onlyCage (c : Cage) (value : Byte) (s : State) : OnlyCage c s (wantTx c value s) :=
  (updCage_onlyCage c _ s).trans (updCage_onlyCage c _ _)

theorem clearWindows_onlyCage (c : Cage) (s : State) : OnlyCage c s (clearWindows c s) :=
  (updScan_onlyCage c _ s).trans (dropScanOf_onlyCage c c _)

theorem startSettling_onlyCage (c : Cage) (s : State) : OnlyCage c s (startSettling c s) :=
  ((wantTx_onlyCage c 0 s).trans (clearWindows_onlyCage c _)).trans (updCage_onlyCage c _ _)

theorem enterRelight_onlyCage (c : Cage) (s : State) : OnlyCage c s (enterRelight c s) :=
  ((moveCage_onlyCage c .relight .none s).trans (startSettling_onlyCage c _)).trans
    (updCage_onlyCage c _ _)

/-! ### The reuse reports (R108) -/

/-- Whether a reuse report releases a cage: it is in HOLD-DOWN with a penalty below R (R108). -/
def State.releases (s : State) (c : Cage) : Prop :=
  (s.cage c).state = .holdDown ∧ (s.penalty c).value < s.conf.reuse

theorem takeReuse_of_releases {s : State} {c : Cage} (h : s.releases c) :
    takeReuse c s = enterRelight c s := if_pos h

theorem takeReuse_of_not_releases {s : State} {c : Cage} (h : ¬ s.releases c) :
    takeReuse c s = s := if_neg h

theorem takeReuse_onlyCage (c : Cage) (s : State) : OnlyCage c s (takeReuse c s) := by
  by_cases h : s.releases c
  · rw [takeReuse_of_releases h]
    exact enterRelight_onlyCage c s
  · rw [takeReuse_of_not_releases h]
    exact .refl c s

/-- The reuse reports of cages, one after the other. -/
def reuseReports (cs : List Cage) (s : State) : State := cs.foldl (fun s c => takeReuse c s) s

theorem reuseReports_keeps (cs : List Cage) (s : State) :
    (reuseReports cs s).penalties = s.penalties ∧ (reuseReports cs s).startup = s.startup :=
  ⟨foldl_keeps State.penalties _ (fun s c => by simp) cs s,
    foldl_keeps State.startup _ (fun s c => by simp) cs s⟩

/-- The reports of other cages leave a cage to show what it showed. -/
theorem reuseReports_shows_other {cs : List Cage} {c : Cage} {k : CageRecord} {x : CageScan}
    (other : c ∉ cs) {s : State} (h : s.shows c k x) : (reuseReports cs s).shows c k x := by
  induction cs generalizing s with
  | nil => exact h
  | cons d cs ih =>
    obtain ⟨first, rest⟩ := List.ne_and_not_mem_of_not_mem_cons other
    exact ih rest (h.otherCage (takeReuse_onlyCage d s) first)

theorem releases_congr {s t : State} {c : Cage} (state : (t.cage c).state = (s.cage c).state)
    (penalties : t.penalties = s.penalties) (startup : t.startup = s.startup) :
    t.releases c ↔ s.releases c := by
  simp [State.releases, State.conf, state, penalty_congr penalties, startup]

/-- A cage with one report in the list is answered by that report alone: the reports before it and after it
are of other cages, and none moves a penalty. -/
theorem reuseReports_shows {cs : List Cage} {c : Cage} (once : cs.Nodup) (mem : c ∈ cs) (s : State) :
    (s.releases c →
      (reuseReports cs s).shows c ((s.cage c).inRelight s.conf) (s.cageScan c).clearWindows) ∧
    (¬ s.releases c → (reuseReports cs s).shows c (s.cage c) (s.cageScan c)) := by
  obtain ⟨before, after, rfl⟩ := List.append_of_mem mem
  obtain ⟨notBefore, notAfter⟩ : c ∉ before ∧ c ∉ after := by
    simpa [not_or] using (List.nodup_cons.1 (List.nodup_middle.1 once)).1
  have reached := reuseReports_shows_other notBefore (shows_self s c)
  obtain ⟨penalties, startup⟩ := reuseReports_keeps before s
  have same := releases_congr reached.state_eq penalties startup
  have split : reuseReports (before ++ c :: after) s =
      reuseReports after (takeReuse c (reuseReports before s)) := by simp [reuseReports]
  have conf : (reuseReports before s).conf = s.conf := by simp [State.conf, startup]
  rw [split]
  constructor <;> intro h
  · rw [takeReuse_of_releases (same.2 h), ← conf]
    exact reuseReports_shows_other notAfter (enterRelight_shows reached)
  · rw [takeReuse_of_not_releases (mt same.1 h)]
    exact reuseReports_shows_other notAfter reached

/-! ### The tick -/

/-- The state in which a decay tick hands on its reuse reports: the penalties lowered, the records examined,
and the tick timer started again (R106, R107, R110). -/
def State.decayed (s : State) : State :=
  let u := decayPenalties s
  { u with penalties := { u.penalties with decay := some s.conf.decayPeriod } }

theorem decay_eq (s : State) : decay s = reuseReports (s.openOrder allCages) s.decayed := rfl

theorem penalty_decayed (s : State) (c : Cage) :
    s.decayed.penalty c = (decayPenalties s).penalty c := rfl

/-- The tick releases exactly the cages in HOLD-DOWN whose lowered penalty is below R (R108). -/
theorem releases_decayed (s : State) (c : Cage) :
    s.decayed.releases c ↔
      (s.cage c).state = .holdDown ∧ ((decayPenalties s).penalty c).value < s.conf.reuse := .rfl

theorem decay_penalties (s : State) : (decay s).penalties = s.decayed.penalties := by
  rw [decay_eq]
  exact (reuseReports_keeps _ _).1

theorem decay_shows (s : State) (c : Cage) :
    (s.decayed.releases c →
      (decay s).shows c ((s.cage c).inRelight s.conf) (s.cageScan c).clearWindows) ∧
    (¬ s.decayed.releases c → (decay s).shows c (s.cage c) (s.cageScan c)) := by
  have order := openOrder_perm s allCages
  exact reuseReports_shows (order.nodup_iff.2 (List.nodup_finRange 16))
    (order.mem_iff.2 (mem_allCages c)) s.decayed

/-- Settles O46: the penalties by the lemmas on `decayStep`, and each cage's record by its own reuse report
(`decay_shows`), both kept by the work at the end of the event. -/
theorem decayTick : Obligations.DecayTick := by
  intro s free running
  obtain ⟨t, next, ends⟩ := eventNext_occurs (effect := decay) free running
  have penalties : t.penalties = s.decayed.penalties := ends.same.penalties.trans (decay_penalties s)
  refine ⟨t, next, by rw [penalties]; rfl, fun c => ?_⟩
  have lowered : t.penalty c = (decayPenalties s).penalty c := penalty_congr penalties c
  obtain ⟨released, kept⟩ := decay_shows s c
  rw [releases_decayed, ← lowered] at released kept
  have value : (t.penalty c).value = decayStep s.conf.decayShift (s.penalty c).value := by
    rw [lowered, penalty_decayPenalties]
  refine ⟨fun zero => ?_, fun nonzero => ?_, fun pos small => ?_, ?_, fun held below => ?_,
    fun stays => ?_⟩
  · rw [value, zero, decayStep_zero]
  · rw [value, decayStep_of_ne_zero nonzero]
  · rw [value, decayStep_of_lt pos small]
  · rw [lowered, penalty_decayPenalties]
    rfl
  · obtain ⟨record, scan⟩ := (released ⟨held, below⟩).endsAs ends
    rw [record, scan]
    exact ⟨rfl, rfl, rfl, rfl, rfl, rfl⟩
  · refine (kept fun r => ?_).endsAs ends
    obtain ⟨held, below⟩ := r
    exact stays.elim (· held) (Nat.not_le.2 below)

end Sys2Proof.Machine
end

section
/-! PROOF. The entries of the current-sense converter: their bound, and when they count as above a limit
(R146). -/

namespace Sys2Proof.Machine

@[simp] theorem drawOfCode_value (scale : Nat) (code : BitVec 10) :
    (drawOfCode scale code).value = code.toNat * scale / 256 := rfl

@[simp] theorem drawOfCode_saturated_iff (scale : Nat) (code : BitVec 10) :
    (drawOfCode scale code).saturated = true ↔ code.toNat = 1023 := decide_eq_true_iff

theorem Draw.above_iff (d : Draw) (limit : Nat) :
    d.above limit = true ↔ d.saturated = true ∨ limit < d.value := by
  simp [Draw.above]

/-- The largest code at the largest scale that a configuration holds gives floor(1023 · 1023 / 256). -/
theorem drawOfCode_value_le {scale : Nat} (field : scale ≤ 1023) (code : BitVec 10) :
    (drawOfCode scale code).value ≤ 4088 := by
  have top : code.toNat ≤ 1023 := Nat.le_of_lt_succ code.isLt
  calc code.toNat * scale / 256
      ≤ 1023 * 1023 / 256 := Nat.div_le_div_right (Nat.mul_le_mul top field)
    _ = 4088 := rfl

/-- Settles O14: a saturated entry is above every limit by its mark, any other by its value alone. -/
theorem drawOfCode_spec : Obligations.DrawOfCode := by
  refine ⟨fun scale code => ⟨drawOfCode_value scale code, drawOfCode_saturated_iff scale code,
    fun field => drawOfCode_value_le field code, fun top limit => ?_, fun below limit => ?_⟩,
    rfl, rfl, rfl⟩
  · exact (Draw.above_iff _ limit).2 (.inl ((drawOfCode_saturated_iff scale code).2 top))
  · have unmarked := mt (drawOfCode_saturated_iff scale code).1 below
    exact (Draw.above_iff _ limit).trans (or_iff_right unmarked)

end Sys2Proof.Machine
end

section
/-! PROOF. What a command can answer, and that nothing due is left undone after any step (R7, R51, R121, R136,
R189). -/

namespace Sys2Proof.Machine

/-! ### The event of a command -/

/-- An event: whether it occurs, and its effect before the work that every event ends with. -/
structure Event where
  occurs : Bool
  effect : State → State

/-- The request of a row of Table 8-1, as the service unit holds it. -/
def servedRequest : Instr → Option Request
  | .readCage c part => some ⟨cageCode c 0, [part]⟩
  | .readEvent c index part => some ⟨cageCode c 1, [index, part]⟩
  | .readPeer station => some ⟨byteOf 2, [station]⟩
  | .readHealth part => some ⟨byteOf 3, [part]⟩
  | .hold c => some ⟨cageCode c 4, []⟩
  | .unhold c => some ⟨cageCode c 5, []⟩
  | .retry c => some ⟨cageCode c 6, []⟩
  | .clearPenalty c => some ⟨cageCode c 7, []⟩
  | .setCeiling ceiling => some ⟨byteOf 8, [ceiling]⟩
  | .moduleRead c address count => some ⟨cageCode c 9, [address, count]⟩
  | .moduleWrite c address data => some ⟨cageCode c 10, address :: data⟩
  | .restart => some ⟨byteOf 11, []⟩
  | _ => none

/-- The event of the expiry of a cage timer (Table 1-3). -/
def State.timerEvent (s : State) : Instr → Option Event
  | .debounceTimerExpiry c => some
      ⟨(s.cage c).state = .debounce && (s.cage c).timers.debounce.isSome, debounceEnds c⟩
  | .initWaitExpiry c => some ⟨s.initRuns c, initWaitsEnd c⟩
  | .pollTimerExpiry c => some
      ⟨(s.cage c).state = .powerUp && (s.cage c).timers.poll.isSome, pollDue c⟩
  | .readyTimerExpiry c => some
      ⟨(s.cage c).state = .powerUp && (s.cage c).timers.ready.isSome, enterFaulted c .readyTimeout⟩
  | .settleTimerExpiry c => some
      ⟨(s.cage c).state.settling && (s.cage c).timers.settle.isSome, enterFaulted c .noLight⟩
  | .trainTimerExpiry c => some
      ⟨(s.cage c).state = .train && (s.cage c).timers.train.isSome, trainEnds c⟩
  | .verifyTimerExpiry c => some
      ⟨(s.cage c).state = .verify && (s.cage c).timers.verify.isSome, verifyEnds c⟩
  | _ => none

/-- The event of a row of the coordination bus (spec/03). -/
def State.busEvent (s : State) : Instr → Option Event
  | .txAttemptStart => some ⟨s.onBus && s.nextFrame.isSome, beginAttempt⟩
  | .goodReceipt clocks => some ⟨s.onBus && s.underAttempt.isSome, attemptSent clocks⟩
  | .lostArbitration => some ⟨s.onBus && s.underAttempt.isSome, attemptLost⟩
  | .transmitError e => some ⟨s.onBus && s.underAttempt.isSome, attemptFailed e⟩
  | .receiveError e => some ⟨s.onBus, receptionFailed e⟩
  | .goodReception frame => some ⟨s.onBus, receive frame⟩
  | .busSeenIdle => some ⟨s.onBus && decide (s.bus.health = .silent), beginRecovery⟩
  | .recoveryGap => some ⟨s.onBus && decide (s.bus.health = .recovering), countGap⟩
  | .recoveryGapCountReached => some
      ⟨s.onBus && decide (s.bus.health = .recovering) && decide (s.bus.gapCount = 47), endRecovery⟩
  | .announceTick => some ⟨s.bus.announce.isSome, announce⟩
  | .listenIntervalEnd => some
      ⟨decide (s.startup.runState = .listening) && decide (s.startup.listenTicks = 1), endListening⟩
  | _ => none

/-- The event of a row of the management segments (spec/05, spec/06). -/
def State.linkEvent (s : State) : Instr → Option Event
  | .chunkDone g data => some
      ⟨s.canComplete g data, fun s => deliverAll (tryCompletes g data s)⟩
  | .chunkNak g => some ⟨s.trying g, fun s => deliverAll (tryFails g s)⟩
  | .retryTimerExpiry g => some
      ⟨decide ((s.link g).state = .retryWait) && (s.link g).retryTimer.isSome,
        fun s => s.updLink g Link.retry⟩
  | .stretchTimeout g => some
      ⟨s.trying g && (s.link g).stretch.isSome, fun s => deliverAll (stretchEnds g s)⟩
  | .recoverySequenceEnd g => some
      ⟨decide ((s.link g).state = .recovery), fun s => s.updLink g (Link.endChunk .idle true)⟩
  | .removalByteBoundary g => some ⟨s.endsFor g .absent, boundary g⟩
  | .slotTimerExpiry g => some
      ⟨(s.scanner g).slotTimer.isSome,
        fun s => s.updScanner g (fun n => { n with slotTimer := none })⟩
  | .restartChunkByteBoundary g => some ⟨s.endsFor g .restart, boundary g⟩
  | _ => none

/-- The event of a row of the peer view, the claim unit and the penalty unit (spec/02, spec/04). -/
def State.budgetEvent (s : State) : Instr → Option Event
  | .peerEntryAged n => some
      ⟨decide ((s.peer n).status = .present) && decide ((s.peer n).age = 3),
        fun s => dueTest (s.updPeer n PeerEntry.tick)⟩
  | .applyIntent => some
      ⟨match s.oldestBody with | some (.intent _ _ _) => true | _ => false, applyOldest⟩
  | .applyConfirm => some
      ⟨match s.oldestBody with | some (.confirm _ _) => true | _ => false, applyOldest⟩
  | .applyWithdraw => some
      ⟨match s.oldestBody with | some (.withdraw _ _) => true | _ => false, applyOldest⟩
  | .applyRelease => some
      ⟨match s.oldestBody with | some (.release _) => true | _ => false, applyOldest⟩
  | .applyStatus => some
      ⟨match s.oldestBody with | some (.status _) => true | _ => false, applyOldest⟩
  | .peerIntentPromotion n tag => some
      ⟨((s.peer n).find tag).isSome, fun s => s.updPeer n (PeerEntry.promote tag)⟩
  | .windowDeadline tag => some ⟨(s.openIntent tag).isSome, fun s =>
      match s.openIntent tag with
      | some e => windowEnds e s
      | none => s⟩
  | .backoffExpiry c => some ⟨(s.claim c).backoff.isSome,
      fun s => dueTest (s.updClaim c (fun k => { k with backoff := none }))⟩
  | .blindTimerExpiry => some ⟨s.claims.blindTimer.isSome,
      fun s => dueTest (s.updClaims (fun k => { k with blind := false, blindTimer := none }))⟩
  | .decayTick => some ⟨s.penalties.decay.isSome, decay⟩
  | _ => none

/-- The event that a command stands for; none for the resets and the release of one. -/
def State.event (s : State) : Instr → Option Event
  | .powerOnReset => none
  | .pinReset => none
  | .resetRelease _ _ => none
  | .stationTimeTick =>
    some ⟨true, fun s => s.updStartup (fun u => { u with stationTime := u.stationTime + 1 })⟩
  | .startDelayExpiry =>
    some ⟨s.startup.loadPhase = .startDelay && s.startup.startDelay.isSome, beginRead⟩
  | .spiReadEnd image => some ⟨s.memorySelected, readEnds image⟩
  | .presentRawChange c level => some ⟨true, fun s => s.updLines c (CageLines.presentChange level)⟩
  | .presentHoldExpiry c moment => some ⟨s.presentDue c, takePresent c moment⟩
  | .linkUpRawChange c level => some ⟨true, fun s => s.updLines c (CageLines.linkChange level)⟩
  | .linkUpHoldExpiry c => some ⟨s.linkDue c, takeLink c⟩
  | .alertEdge c => some ⟨!(s.line c).alert,
      fun s => takeAlert c (s.updLines c (fun l => { l with alert := true }))⟩
  | .currentSenseConversion code => some ⟨s.scan.converting, takeConversion code⟩
  | .restartTimerExpiry clocks => some
      ⟨decide (s.service.phase = .restartPending) && s.service.restartTimer.isSome,
        takeRestart clocks⟩
  | .alertDeassertion c => some ⟨(s.line c).alert,
      fun s => s.updLines c (fun l => { l with alert := false })⟩
  | i => (s.timerEvent i).or ((s.linkEvent i).or ((s.busEvent i).or ((s.budgetEvent i).or
      ((servedRequest i).map (fun r => ⟨s.onBus, acceptRequest r⟩)))))

theorem exec_timerEvent {i : Instr} {s : State} {e : Event} (h : s.timerEvent i = some e) :
    exec i s = eventNext e.occurs e.effect s := by
  cases i <;> cases h <;> rfl

theorem exec_busEvent {i : Instr} {s : State} {e : Event} (h : s.busEvent i = some e) :
    exec i s = eventNext e.occurs e.effect s := by
  cases i <;> cases h <;> rfl

theorem exec_linkEvent {i : Instr} {s : State} {e : Event} (h : s.linkEvent i = some e) :
    exec i s = eventNext e.occurs e.effect s := by
  cases i <;> cases h <;> rfl

theorem exec_budgetEvent {i : Instr} {s : State} {e : Event} (h : s.budgetEvent i = some e) :
    exec i s = eventNext e.occurs e.effect s := by
  cases i <;> cases h <;> rfl

theorem exec_request {i : Instr} {s : State} {r : Request} (h : servedRequest i = some r) :
    exec i s = eventNext s.onBus (acceptRequest r) s := by
  cases i <;> cases h <;> rfl

/-- Where no reset holds the part, a command that is an event is carried out as that event. -/
theorem exec_event {i : Instr} {s : State} {e : Event} (free : s.startup.resetHeld = false)
    (h : s.event i = some e) : exec i s = eventNext e.occurs e.effect s := by
  cases i with
  | powerOnReset | pinReset | resetRelease => cases h
  | presentRawChange c level => cases h; exact if_neg (by simp [free])
  | linkUpRawChange c level => cases h; exact if_neg (by simp [free])
  | debounceTimerExpiry | initWaitExpiry | pollTimerExpiry | readyTimerExpiry | settleTimerExpiry
  | trainTimerExpiry | verifyTimerExpiry => exact exec_timerEvent h
  | txAttemptStart | goodReceipt | lostArbitration | transmitError | receiveError | goodReception
  | busSeenIdle | recoveryGap | recoveryGapCountReached | announceTick
  | listenIntervalEnd => exact exec_busEvent h
  | chunkDone | chunkNak | retryTimerExpiry | stretchTimeout | recoverySequenceEnd
  | removalByteBoundary | slotTimerExpiry | restartChunkByteBoundary => exact exec_linkEvent h
  | peerEntryAged | applyIntent | applyConfirm | applyWithdraw | applyRelease | applyStatus
  | peerIntentPromotion | windowDeadline | backoffExpiry | blindTimerExpiry
  | decayTick => exact exec_budgetEvent h
  | readCage | readEvent | readPeer | readHealth | hold | unhold | retry | clearPenalty | setCeiling
  | moduleRead | moduleWrite | restart => cases h; exact exec_request rfl
  | _ => cases h; rfl

/-- What a command answers while a reset holds the part, or where it is no event: the state itself, the reset
state, the release, or a raw pin moved (R180, log entries 3 and 13). -/
inductive Unheard (s : State) : State → Prop where
  | same : Unheard s s
  | reset : Unheard s (heldInReset s)
  | release (station : Station) (profile : Fin 4) (held : s.startup.resetHeld = true) :
      Unheard s (releaseReset station profile s)
  | presentPin (c : Cage) (level : Bool) (held : s.startup.resetHeld = true) :
      Unheard s (s.updLines c (fun l => { l with presentRaw := level }))
  | linkPin (c : Cage) (level : Bool) (held : s.startup.resetHeld = true) :
      Unheard s (s.updLines c (fun l => { l with linkRaw := level }))

/-- What a command can answer: an event that occurs, with the work that is due, or one of the few answers
without one. -/
theorem exec_answers {i : Instr} {s t : State} (h : exec i s = .next t) :
    Unheard s t ∨ (s.startup.resetHeld = false ∧
      ∃ e, s.event i = some e ∧ e.occurs = true ∧ t = (finish (e.effect s)).nextChoice) := by
  have answer : ∀ {o : Bool} {f : State → State}, eventNext o f s = .next t → s.startup.resetHeld = true →
      Unheard s t := by
    intro o f h held
    rw [eventNext_idle (.inl held)] at h
    cases h; exact .same
  cases held : s.startup.resetHeld with
  | false =>
    cases ev : s.event i with
    | some e =>
      rw [exec_event held ev] at h
      rcases eventNext_cases h with h | ⟨_, occurs, h⟩
      · exact .inl (Host.Outcome.next.inj h ▸ .same)
      · exact .inr ⟨rfl, e, rfl, occurs, Host.Outcome.next.inj h⟩
    | none =>
      left
      cases i <;> cases ev <;> cases h
      · exact .reset
      · exact .reset
      · rw [if_neg (by simp [held])]; exact .same
  | true =>
    left
    cases i with
    | powerOnReset | pinReset => cases h; exact .reset
    | resetRelease station profile =>
      simp only [exec, execResetRelease, held, if_true] at h
      cases h; exact .release station profile held
    | presentRawChange c level =>
      simp only [exec, execPresentRawChange, held, if_true] at h
      cases h; exact .presentPin c level held
    | linkUpRawChange c level =>
      simp only [exec, execLinkUpRawChange, held, if_true] at h
      cases h; exact .linkPin c level held
    | _ => exact answer h held

/-! ### Nothing is left due (R7, R51, R121, R136, R189) -/

/-- What a state leaves due does not rest on the queue of commands, the timers that run, or the lines. -/
theorem settled_congr {s t : State} (run : t.startup.runState = s.startup.runState)
    (cages : ∀ c, (t.cage c).state = (s.cage c).state ∧ (t.cage c).requests = (s.cage c).requests)
    (links : ∀ g, (t.link g).state = (s.link g).state ∧ ∀ slot, (t.link g).inSlot slot = (s.link g).inSlot slot)
    (scanners : ∀ g, (t.scanner g).phase = (s.scanner g).phase ∧
      (t.scanner g).slotTimer.isSome = (s.scanner g).slotTimer.isSome)
    (test : t.claims.testDue = s.claims.testDue) (levels : ∀ c, (t.claim c).level = (s.claim c).level) :
    t.settled = s.settled := by
  have slots : ∀ c, t.crsSlot c = s.crsSlot c := fun c => (links (segOf c)).2 (.crs c)
  have pass : ∀ g, (t.link g).passThrough = (s.link g).passThrough := fun g => (links g).2 .passThrough
  have scan : ∀ g, (t.link g).scanner = (s.link g).scanner := fun g => (links g).2 .scanner
  simp only [State.settled, State.anyAdopt, State.pumped, State.slotTaken, State.rota, State.granted,
    State.chooseSlot, State.crsWaiting, run, cages, slots, links, scanners, test, levels, pass, scan]

theorem pumped_finish (s : State) : (finish s).pumped = true := by
  simp only [State.pumped, List.all_eq_true, Bool.or_eq_true, List.isEmpty_iff]
  intro c _
  have handed := finish_requests s c
  cases slot : s.crsSlot c with
  | some r => rcases (handed.full r slot).2 with h | h <;> simp [h]
  | none =>
    cases list : (s.cage c).requests with
    | nil => exact .inr (handed.empty slot list).1
    | cons q rest =>
      cases present : (s.line c).present with
      | true => rcases (handed.handed q rest slot list present).2 with h | h <;> simp [h]
      | false => exact .inr (handed.absent slot present).1

/-- A slot choice finds no cage only where the rota holds none (R136). -/
theorem rota_of_slotChoice_none {s : State} {g : Seg} (h : s.slotChoice g = none) : s.rota g = [] := by
  have next : ∀ {last : Option Cage} {cs : List Cage}, nextAfter last cs = none → cs = [] := by
    intro last cs h
    cases last with
    | none => exact List.head?_eq_none_iff.1 h
    | some k =>
      simp only [nextAfter] at h
      split at h
      · cases h
      · exact List.head?_eq_none_iff.1 h
  have turns : ∀ t : Turn, s.rotaClass g t = [] := by
    simp only [State.slotChoice] at h
    split at h
    · cases h
    next own =>
      have other := next (Option.map_eq_none_iff.1 h)
      intro t
      have here := next own
      cases turn : (s.scanner g).turn <;> cases t <;> simp_all [Turn.other]
  refine List.eq_nil_iff_forall_not_mem.2 fun c mem => ?_
  have settling := List.eq_nil_iff_forall_not_mem.1 (turns .settling) c
  have steady := List.eq_nil_iff_forall_not_mem.1 (turns .steady) c
  simp_all [State.rotaClass]

@[simp] theorem slotTimer_presentScan (g : Seg) (cur : Cursor) (s : State) :
    ((presentScan g cur s).scanner g).slotTimer = (s.scanner g).slotTimer := by
  unfold presentScan
  repeat' split
  all_goals simp [putRequest, Scanner.ended]

/-- After the choice of a slot none is due on the segment (R136). -/
theorem slotTaken_startSlot (g : Seg) (s : State) : (startSlot g s).slotTaken g = true := by
  unfold startSlot
  dsimp only
  split
  next idle =>
    split
    · simp [State.slotTaken]
    next none => simp [State.slotTaken, rota_of_slotChoice_none none]
  next busy =>
    rw [State.slotTaken, Bool.or_eq_true, Bool.or_eq_true]
    exact .inl (by by_cases h : (s.scanner g).phase = .idle <;> simp_all [Option.isSome_iff_ne_none])

theorem startSlot_scanner_other (g h : Seg) (s : State) (other : h ≠ g) :
    (startSlot g s).scanner h = s.scanner h := by
  unfold startSlot presentScan
  dsimp only
  repeat' split
  all_goals simp [putRequest, scanner_updScanner_other, other]

theorem slotTaken_congr {s t : State} {g : Seg} (scanner : t.scanner g = s.scanner g)
    (cages : ∀ c, (t.cage c).state = (s.cage c).state) : t.slotTaken g = s.slotTaken g := by
  simp only [State.slotTaken, State.rota, scanner, cages]

/-- After the choice of a segment nothing can be granted on it (R121). -/
theorem granted_grantSegment (g : Seg) (s : State) : (grantSegment g s).granted g = true := by
  rcases grantSegment_links g s with same | ⟨_, slot, r, _, _, grant⟩
  · rw [same, State.granted, Bool.or_eq_true, decide_eq_true_eq, Option.isNone_iff_eq_none]
    by_contra due
    obtain ⟨idle, chosen⟩ := not_or.1 due
    obtain ⟨slot, choice⟩ := Option.ne_none_iff_exists'.1 chosen
    have held : ((s.link g).inSlot slot).isSome = true := by
      unfold State.chooseSlot at choice
      split at choice
      next c head =>
        cases choice
        have mem := (sortByKey_perm _ _).mem_iff.1 (List.mem_of_mem_head? head)
        simpa [State.crsWaiting] using (List.mem_filter.1 mem).2
      · split at choice
        · cases choice; assumption
        · split at choice <;> cases choice; assumption
    obtain ⟨r, slotted⟩ := Option.isSome_iff_exists.1 held
    have moved : grantSegment g s = s.updLink g (Link.grant slot r) := by
      simp only [grantSegment, not_not.1 idle, choice, slotted]
    have state : (s.link g).state = .chunk := by
      rw [← same, moved, link_updLink]; rfl
    exact idle (by rw [state]; exact LinkState.noConfusion)
  · simp [grant, State.granted, Link.grant]

theorem granted_congr {s t : State} {g : Seg} (link : t.link g = s.link g)
    (levels : ∀ c, (t.claim c).level = (s.claim c).level) : t.granted g = s.granted g := by
  simp only [State.granted, State.chooseSlot, State.crsWaiting, link, levels]

theorem grantSegment_other (g h : Seg) (s : State) (other : h ≠ g) :
    (grantSegment g s).link h = s.link h := by
  rcases grantSegment_links g s with same | ⟨_, slot, r, _, _, grant⟩
  · rw [same]
  · rw [grant, link_updLink_other _ _ _ _ other]

theorem slotTaken_finish (s : State) (g : Seg) : (finish s).slotTaken g = true := by
  let u := startSlot 0 (allCages.foldl pumpCage (endAdopting s))
  have kept : (finish s).scan = (startSlot 1 u).scan ∧ (finish s).cages = (startSlot 1 u).cages := by
    simp [finish, u, runDueTest_frame]
  rw [slotTaken_congr (s := startSlot 1 u) (by rw [State.scanner, State.scanner, kept.1])
    (fun c => by rw [State.cage, State.cage, kept.2])]
  rcases seg_cases g with rfl | rfl
  · rw [slotTaken_congr (s := u) (startSlot_scanner_other 1 0 u (by decide))
      (fun c => by rw [State.cage, State.cage, startSlot_cages])]
    exact slotTaken_startSlot 0 _
  · exact slotTaken_startSlot 1 u

theorem granted_finish (s : State) (g : Seg) : (finish s).granted g = true := by
  let u := grantSegment 0 (startSlot 1 (startSlot 0 (allCages.foldl pumpCage (endAdopting s))))
  have levels : ∀ c, ((finish s).claim c).level = ((grantSegment 1 u).claim c).level := fun c => by
    show ((runDueTest (grantSegment 1 u)).claim c).level = _
    rw [(runDueTest_work _).claims c]
  rw [granted_congr (s := grantSegment 1 u)
    (by rw [State.link, State.link]; exact congrArg (·[g]) (runDueTest_frame _).1) levels]
  rcases seg_cases g with rfl | rfl
  · rw [granted_congr (s := u) (grantSegment_other 1 0 u (by decide)) (fun c => by simp [State.claim])]
    exact granted_grantSegment 0 _
  · exact granted_grantSegment 1 u

/-- ADOPTING goes on only with a cage in ADOPT (R189). -/
theorem adopting_finish (s : State) :
    (finish s).startup.runState ≠ .adopting ∨ (finish s).anyAdopt = true := by
  have states : ∀ {s t : State}, SameOutsideWork s t → t.anyAdopt = s.anyAdopt := fun w => by
    simp only [State.anyAdopt]
    exact congrArg allCages.any (funext fun c => by rw [w.cages c])
  have rest : SameOutsideWork (endAdopting s) (finish s) := by
    unfold finish
    exact ((pumpAll_work _ _).trans ((startSlot_work 0 _).trans ((startSlot_work 1 _).trans
      ((grantSegment_work 0 _).trans ((grantSegment_work 1 _).trans (runDueTest_work _))))))
  rw [states rest]
  have ended : (endAdopting s).startup.runState ≠ .adopting ∨ (endAdopting s).anyAdopt = true := by
    unfold endAdopting
    split
    · exact .inl (by simp)
    next h => by_cases run : s.startup.runState = .adopting <;> simp_all
  refine ended.imp_left fun h => ?_
  rcases rest.runState with same | ⟨was, _⟩
  · rwa [same]
  · exact absurd was h

theorem settled_nextChoice (s : State) : s.nextChoice.settled = s.settled := rfl

@[simp] theorem claims_nextChoice (s : State) : s.nextChoice.claims = s.claims := rfl

/-- What every event ends with leaves nothing due. -/
theorem settled_finish (s : State) : (finish s).nextChoice.settled = true := by
  have adopting := adopting_finish s
  have test := (finish_endsAs s).testDue
  rw [claims_nextChoice] at test
  rw [settled_nextChoice]
  simp only [State.settled, Bool.and_eq_true, Bool.or_eq_true, decide_eq_true_eq, Bool.not_eq_true']
  exact ⟨⟨⟨⟨⟨⟨adopting, pumped_finish s⟩, slotTaken_finish s 0⟩, slotTaken_finish s 1⟩,
    granted_finish s 0⟩, granted_finish s 1⟩, test⟩

/-- A reset leaves nothing due: every list and slot is empty, no cage is powered, no test is due. -/
theorem settled_heldInReset (s : State) : (heldInReset s).settled = true := by
  have same := settled_congr (s := State.reset) (t := heldInReset s) rfl (fun _ => ⟨rfl, rfl⟩) (fun _ => ⟨rfl, fun _ => rfl⟩)
    (fun _ => ⟨rfl, rfl⟩) rfl (fun _ => rfl)
  rw [same]
  decide

theorem settled_idle {s : State} (h : s.settled = true) : (idle s).settled = true := by
  unfold idle
  split
  · exact h
  · rw [← h]
    refine settled_congr rfl (fun c => ?_) (fun g => ?_) (fun g => ?_) rfl (fun c => ?_)
    · simp [passTime, State.nextChoice, State.cage]
    · have : ((passTime s).nextChoice).link g = (s.link g).countDown (s.clockHeld g) := by
        simp [passTime, State.nextChoice, State.link]
      rw [this]
      exact ⟨rfl, fun slot => by cases slot <;> rfl⟩
    · simp [passTime, State.nextChoice, State.scanner, Timer.countDown]
    · simp [passTime, State.nextChoice, State.claim, ClaimUnit.countDown]

theorem settled_unheard {s t : State} (h : s.settled = true) (answer : Unheard s t) :
    t.settled = true := by
  cases answer with
  | same => exact h
  | reset => exact settled_heldInReset s
  | release station profile held =>
    simp only [State.settled, Bool.and_eq_true] at h ⊢
    obtain ⟨⟨⟨⟨⟨⟨_, pumped⟩, slotA⟩, slotB⟩, grantA⟩, grantB⟩, test⟩ := h
    exact ⟨⟨⟨⟨⟨⟨rfl, pumped⟩, slotA⟩, slotB⟩, grantA⟩, grantB⟩, test⟩
  | presentPin c level held => exact h
  | linkPin c level held => exact h

/-- Settles O55: every event ends with `finish`, which leaves nothing due, and the other answers leave what is
due as it was. -/
theorem stepKeepsSettled : Obligations.StepKeepsSettled := by
  intro s t h next
  unfold step at next
  split at next
  next c rest queue =>
    have same : State.settled { s with pending := rest } = true := h
    rcases exec_answers next with unheard | ⟨_, e, _, _, rfl⟩
    · exact settled_unheard same unheard
    · exact settled_finish _
  · cases next
    exact settled_idle h

end Sys2Proof.Machine
end

section
/-! PROOF. The parameter set built from an image, field by field and in its ranges, and the profile default set
(R183, R184). -/

namespace Sys2Proof.Machine

theorem imageAt_lt (image : List Byte) (i : Nat) : imageAt image i < 256 := (byteAt image i).isLt

theorem imageWord_eq (image : List Byte) (i : Nat) : imageWord image i = imageAtPair image i := rfl

theorem imageAtPair_lt (image : List Byte) (i : Nat) : imageAtPair image i < 65536 := by
  have high := imageAt_lt image i
  have low := imageAt_lt image (i + 1)
  simp only [imageAtPair]
  omega

theorem clampNat_eq {low high : Nat} (range : low ≤ high) (n : Nat) :
    clampNat low high n = intoRange low high n := by
  unfold clampNat intoRange
  split
  · omega
  · split <;> omega

theorem le_clampNat (low high n : Nat) : low ≤ clampNat low high n := Nat.le_max_left _ _

theorem clampNat_le {low high : Nat} (range : low ≤ high) (n : Nat) : clampNat low high n ≤ high :=
  Nat.max_le.2 ⟨range, Nat.min_le_left _ _⟩

/-- Of a cage's level, clamped to 0 to 31 and then judged on pinning, the judgement decides the range (R183). -/
theorem pinnedLevel_clampNat (pinned : Bool) (n : Nat) :
    pinnedLevel pinned (clampNat 0 31 n) = if pinned then intoRange 0 7 n else intoRange 8 31 n := by
  unfold pinnedLevel clampNat intoRange
  cases pinned <;> simp only [Bool.false_eq_true, if_false, if_true] <;> split <;> (try split) <;> omega

theorem imageSettings_cage (image : List Byte) (c : Cage) :
    (imageSettings image).cages[c] = imageCage image c := by
  simp [imageSettings]

/-- Each field of the parameter set comes from its own bytes of the image (R183, Table 10-3). -/
theorem imageSettings_fromImage (image : List Byte) : FromImage image (imageSettings image) where
  budget := rfl
  allowance := clampNat_eq (by decide) _
  population := by
    have high := imageAtPair_lt image 8
    have low := imageAtPair_lt image 10
    simp only [imageSettings, imageWord_eq, BitVec.toNat_ofNat]
    omega
  announce := clampNat_eq (by decide) _
  window := clampNat_eq (by decide) _
  surgeFactor := clampNat_eq (by decide) _
  debounce := clampNat_eq (by decide) _
  ready := clampNat_eq (by decide) _
  settle := clampNat_eq (by decide) _
  train := clampNat_eq (by decide) _
  verify := clampNat_eq (by decide) _
  flap := clampNat_eq (by decide) _
  thresholds below := by
    simp only [imageSettings, imageWord_eq, clampNat_eq (show 1 ≤ 16383 by decide)]
    exact ⟨if_neg (Nat.not_le.2 below), if_neg (Nat.not_le.2 below)⟩
  crossed crossed := by
    simp only [imageSettings, imageWord_eq, clampNat_eq (show 1 ≤ 16383 by decide)]
    exact ⟨if_pos crossed, if_pos crossed⟩
  decayShift := clampNat_eq (by decide) _
  tolerance := clampNat_eq (by decide) _
  decayPeriod := clampNat_eq (by decide) _
  reseat := clampNat_eq (by decide) _
  darkFloor := clampNat_eq (by decide) _
  currentScale := clampNat_eq (by decide) _
  supervisor := by
    have range := clampNat_le (show 0 ≤ 31 by decide) (byteAt image 42).toNat
    simp only [imageSettings, BitVec.toNat_ofNat]
    rw [Nat.mod_eq_of_lt (by omega), clampNat_eq (by decide)]
    rfl
  mask := by simp [imageSettings, imageAt]
  capture := rfl
  polarity := ⟨rfl, rfl, rfl⟩
  flags c := by rw [imageSettings_cage]; exact ⟨rfl, rfl⟩
  levels c := by rw [imageSettings_cage]; exact pinnedLevel_clampNat _ _
  watts c := by rw [imageSettings_cage]; exact clampNat_eq (by decide) _

/-- Settles O6: the fields by `imageSettings_fromImage`, their ranges by the clamp of each. -/
theorem configurationInRange : Obligations.ConfigurationInRange := by
  intro image k
  have clamped : ∀ {low high : Nat}, low ≤ high → ∀ n, low ≤ clampNat low high n ∧
      clampNat low high n ≤ high := fun h n => ⟨le_clampNat _ _ n, clampNat_le h n⟩
  have budget : k.budget ≤ 65535 := Nat.le_of_lt_succ (imageAtPair_lt image 4)
  have thresholds : 1 ≤ k.reuse ∧ k.reuse < k.suppress ∧ k.suppress ≤ 16383 := by
    have s := clamped (show 1 ≤ 16383 by decide) (imageWord image 28)
    have r := clamped (show 1 ≤ 16383 by decide) (imageWord image 30)
    show 1 ≤ (if _ then 750 else _) ∧ (if _ then 750 else _) < (if _ then 3000 else _) ∧
      (if _ then 3000 else _) ≤ 16383
    split <;> omega
  obtain ⟨reuse, below, suppress⟩ := thresholds
  have cages : ∀ c : Cage, 1 ≤ k.cages[c].maxWatts ∧ k.cages[c].maxWatts ≤ 100 ∧
      (k.cages[c].pinned = true → k.cages[c].level ≤ 7) ∧
      (k.cages[c].pinned = false → 8 ≤ k.cages[c].level ∧ k.cages[c].level ≤ 31) := by
    intro c
    have watts := clamped (show 1 ≤ 100 by decide) (byteAt image (48 + 3 * c.val)).toNat
    have level := (imageSettings_fromImage image).levels c
    rw [show k.cages[c] = imageCage image c from imageSettings_cage image c]
    rw [imageSettings_cage] at level
    refine ⟨watts.1, watts.2, fun pinned => ?_, fun free => ?_⟩
    · rw [level, if_pos pinned, ← clampNat_eq (by decide)]
      exact clampNat_le (by decide) _
    · rw [level, if_neg (by simp [free]), ← clampNat_eq (by decide)]
      exact clamped (by decide) _
  exact ⟨imageSettings_fromImage image, budget, clampNat_le (by decide) _,
    le_clampNat _ _ _, clampNat_le (by decide) _, le_clampNat _ _ _, clampNat_le (by decide) _,
    le_clampNat _ _ _, clampNat_le (by decide) _, le_clampNat _ _ _, clampNat_le (by decide) _,
    le_clampNat _ _ _, clampNat_le (by decide) _, le_clampNat _ _ _, clampNat_le (by decide) _,
    le_clampNat _ _ _, clampNat_le (by decide) _, le_clampNat _ _ _, clampNat_le (by decide) _,
    le_clampNat _ _ _, clampNat_le (by decide) _, reuse, below, suppress,
    le_clampNat _ _ _, clampNat_le (by decide) _, le_clampNat _ _ _, clampNat_le (by decide) _,
    le_clampNat _ _ _, clampNat_le (by decide) _, clampNat_le (by decide) _,
    le_clampNat _ _ _, clampNat_le (by decide) _, le_clampNat _ _ _, clampNat_le (by decide) _, cages⟩

/-! ### The profile default set (R184) -/

theorem profileSettings_cage (profile : Fin 4) (c : Cage) :
    (profileSettings profile).cages[c] =
      { enabled := true, pinned := false, level := 16, maxWatts := 40 } := by
  simp [profileSettings]

theorem profileSettings_atDefaults (profile : Fin 4) : AtDefaults profile (profileSettings profile) where
  budget := by revert profile; decide
  population n := by
    show (BitVec.allOnes 32).getLsbD n.val = true
    rw [BitVec.getLsbD_allOnes]
    exact decide_eq_true n.isLt
  bus := ⟨rfl, rfl, rfl⟩
  times := ⟨rfl, rfl, rfl, rfl, rfl⟩
  penalties := ⟨rfl, rfl, rfl, rfl, rfl, rfl⟩
  sampling := ⟨rfl, rfl, rfl⟩
  masks := ⟨rfl, rfl, rfl⟩
  polarity := ⟨rfl, rfl, rfl⟩
  cages c := by rw [profileSettings_cage]; exact ⟨rfl, rfl, rfl, rfl⟩

theorem profileSettings_budget_le (profile : Fin 4) : (profileSettings profile).budget ≤ 65535 := by
  revert profile; decide

theorem profileSettings_allowance_le (profile : Fin 4) : (profileSettings profile).unknownAllow ≤ 4095 := by
  revert profile; decide

end Sys2Proof.Machine
end

section
/-! PROOF. The acts of which every event is made: each changes one part of the state, under the guard that the
model's operations keep.  What an invariant asks of the events it asks of the acts. -/

namespace Sys2Proof.Machine

/-! ### The transmit queue -/

/-- The tags of the answers of a queue that are the part's own (R41). -/
def answersOf (q : List TxFrame) : List Tag :=
  q.filterMap (fun f => if f.mark = .detached then none else f.body.answerTag)

/-- The RELEASEs of a queue that are the part's own (R44, R85). -/
def releasesOf (q : List TxFrame) : List TxFrame :=
  q.filter (fun f => decide (f.mark ≠ .detached) && f.body.isRelease)

theorem answerTags_eq (s : State) : s.answerTags = answersOf s.bus.txQueue := rfl

/-- A frame is one that neither answers an intent nor releases an amount. -/
def FrameBody.plain (b : FrameBody) : Prop := b.answerTag = none ∧ b.isRelease = false

/-- A frame put in the place of another: of the same standing, answering and releasing alike, with an amount that
is pending or was carried before. -/
structure TxFrame.Follows (pending : Nat) (x y : TxFrame) : Prop where
  mark    : y.mark = .detached ↔ x.mark = .detached
  answer  : y.body.answerTag = x.body.answerTag
  release : y.body.isRelease = x.body.isRelease
  amount  : ∀ a, y.body = .release a → a ≤ pending ∨ x.body = .release a

theorem TxFrame.Follows.refl (pending : Nat) (x : TxFrame) : x.Follows pending x :=
  ⟨Iff.rfl, rfl, rfl, fun _ h => .inr h⟩

/-- What a change of the transmit queue keeps: its room, and that it holds no more answers and no more RELEASEs
than before, each of an amount that is pending or was carried before. -/
structure QueueKept (pending : Nat) (q q' : List TxFrame) : Prop where
  length   : q.length ≤ 8 → q'.length ≤ 8
  answers  : (answersOf q').length ≤ (answersOf q).length
  releases : (releasesOf q').length ≤ (releasesOf q).length
  amounts  : ∀ f ∈ q', f.mark ≠ .detached → ∀ a, f.body = .release a →
    a ≤ pending ∨ ∃ g ∈ q, g.mark ≠ .detached ∧ g.body = .release a

theorem QueueKept.trans {p : Nat} {q r t : List TxFrame} (h : QueueKept p q r) (k : QueueKept p r t) :
    QueueKept p q t where
  length room := k.length (h.length room)
  answers := k.answers.trans h.answers
  releases := k.releases.trans h.releases
  amounts f mem own a body := by
    rcases k.amounts f mem own a body with le | ⟨g, mem, own, body⟩
    · exact .inl le
    · exact h.amounts g mem own a body

theorem QueueKept.of_sublist {p : Nat} {q q' : List TxFrame} (h : q'.Sublist q) : QueueKept p q q' where
  length room := h.length_le.trans room
  answers := (h.filterMap _).length_le
  releases := (h.filter _).length_le
  amounts f mem own _ body := .inr ⟨f, h.subset mem, own, body⟩

theorem QueueKept.refl (p : Nat) (q : List TxFrame) : QueueKept p q q := .of_sublist (.refl q)

theorem QueueKept.of_forall₂ {p : Nat} {q q' : List TxFrame} (h : List.Forall₂ (TxFrame.Follows p) q q') :
    QueueKept p q q' where
  length room := h.length_eq ▸ room
  answers := by
    refine le_of_eq ?_
    induction h with
    | nil => rfl
    | @cons x y _ _ xy _ ih =>
      have same : (if y.mark = .detached then none else y.body.answerTag) =
          if x.mark = .detached then none else x.body.answerTag := by rw [xy.answer]; simp only [xy.mark]
      simp only [answersOf, List.filterMap_cons, same] at ih ⊢
      split <;> simp [ih]
  releases := by
    refine le_of_eq ?_
    induction h with
    | nil => rfl
    | @cons x y _ _ xy _ ih =>
      have same : (decide (y.mark ≠ .detached) && y.body.isRelease) =
          (decide (x.mark ≠ .detached) && x.body.isRelease) := by rw [xy.release]; simp only [ne_eq, xy.mark]
      simp only [releasesOf, List.filter_cons, same] at ih ⊢
      split
      · rw [List.length_cons, List.length_cons, ih]
      · exact ih
  amounts := by
    induction h with
    | nil => intro f mem; cases mem
    | @cons x y _ _ xy _ ih =>
      intro f mem own a body
      rcases List.mem_cons.1 mem with rfl | mem
      · exact (xy.amount a body).imp_right fun was =>
          ⟨x, List.mem_cons_self, fun d => own (xy.mark.2 d), was⟩
      · exact (ih f mem own a body).imp_right fun ⟨g, mem, rest⟩ => ⟨g, List.mem_cons_of_mem _ mem, rest⟩

theorem QueueKept.map {p : Nat} (q : List TxFrame) {f : TxFrame → TxFrame}
    (h : ∀ x, TxFrame.Follows p x (f x)) : QueueKept p q (q.map f) := by
  refine .of_forall₂ ?_
  rw [List.forall₂_map_right_iff]
  exact List.forall₂_same.2 fun x _ => h x

theorem QueueKept.modify {p i : Nat} {q : List TxFrame} {f : TxFrame → TxFrame}
    (h : ∀ x, q[i]? = some x → TxFrame.Follows p x (f x)) : QueueKept p q (q.modify i f) := by
  refine .of_forall₂ ?_
  induction q generalizing i with
  | nil => simp
  | cons x q ih =>
    cases i with
    | zero => exact .cons (h x rfl) (List.forall₂_same.2 fun y _ => .refl p y)
    | succ i => exact .cons (.refl p x) (ih fun y at_ => h y at_)

theorem QueueKept.append {p : Nat} {q : List TxFrame} (room : q.length < 8) {f : TxFrame}
    (plain : f.body.plain) : QueueKept p q (q ++ [f]) where
  length _ := by simpa using room
  answers := by simp [answersOf, plain.1]
  releases := by simp [releasesOf, plain.2]
  amounts g mem own a body := by
    rcases List.mem_append.1 mem with mem | mem
    · exact .inr ⟨g, mem, own, body⟩
    · cases List.mem_singleton.1 mem
      simp [FrameBody.plain, body, FrameBody.isRelease] at plain

/-- A report that makes room is one of the queue's frames. -/
theorem lt_length_of_worstReport {q : List TxFrame} {i : Nat} (h : worstReport 0 none q = some i) :
    i < q.length := by
  rcases worstReport_spec q 0 none i h with ⟨b, none, _⟩ | ⟨k, f, rfl, at_, _⟩
  · cases none
  · rw [Nat.zero_add]; exact (List.getElem?_eq_some_iff.1 at_).1

/-- What a new place of a frame makes of a queue: the frame at its end, after one report at most has gone. -/
theorem place_txQueue (b : BusUnit) (f : TxFrame) :
    (b.place f).txQueue = b.txQueue ∨
    ∃ q, q.Sublist b.txQueue ∧ (b.txQueue.length ≤ 8 → q.length < 8) ∧
      answersOf q = answersOf b.txQueue ∧ releasesOf q = releasesOf b.txQueue ∧
      (b.place f).txQueue = q ++ [f] := by
  unfold BusUnit.place
  split
  next room => exact .inr ⟨b.txQueue, .refl _, fun _ => room, rfl, rfl, rfl⟩
  · split
    next i worst =>
      have lt := lt_length_of_worstReport worst
      obtain ⟨x, at_, report⟩ : ∃ x, b.txQueue[i]? = some x ∧ x.body.isReport = true := by
        rcases worstReport_spec _ 0 none i worst with ⟨b, none, _⟩ | ⟨k, f, rfl, at_, _, report⟩
        · cases none
        · exact ⟨f, by rw [Nat.zero_add]; exact at_, report⟩
      have kind : x.body.answerTag = none ∧ x.body.isRelease = false := by
        cases body : x.body <;> simp_all [FrameBody.isReport, FrameBody.answerTag, FrameBody.isRelease]
      refine .inr ⟨b.txQueue.eraseIdx i, List.eraseIdx_sublist _ _, fun le => ?_,
        filterMap_eraseIdx _ _ _ x at_ (by simp [kind.1]), ?_, rfl⟩
      · rw [List.length_eraseIdx_of_lt lt]; omega
      · simp only [releasesOf, ← List.filterMap_eq_filter]
        exact filterMap_eraseIdx _ _ _ x at_ (by simp [Option.guard, kind.2])
    · exact .inl rfl

theorem QueueKept.place {p : Nat} (b : BusUnit) {f : TxFrame} (plain : f.body.plain) :
    QueueKept p b.txQueue (b.place f).txQueue := by
  rcases place_txQueue b f with same | ⟨q, sub, room, _, _, placed⟩
  · rw [same]; exact .refl _ _
  · rw [placed]
    exact {
      length := fun le => by simpa using room le
      answers := by simpa [answersOf, plain.1] using (QueueKept.of_sublist (p := p) sub).answers
      releases := by simpa [releasesOf, plain.2] using (QueueKept.of_sublist (p := p) sub).releases
      amounts := fun g mem own a body => by
        rcases List.mem_append.1 mem with mem | mem
        · exact .inr ⟨g, sub.subset mem, own, body⟩
        · cases List.mem_singleton.1 mem
          simp [FrameBody.plain, body, FrameBody.isRelease] at plain }

/-- A CAGE-REPORT in the place of another, or kept as a follow-on, changes no answer and no RELEASE (R90). -/
theorem QueueKept.report {p : Nat} (b : BusUnit) (r : CageReport) (level : Nat) :
    QueueKept p b.txQueue (b.report r level).txQueue := by
  unfold BusUnit.report
  split
  · refine .map _ fun x => ?_
    unfold replaceReport
    split
    next h =>
      obtain ⟨_, own⟩ := h
      cases body : x.body <;> rw [body] at own <;> simp [FrameBody.isReportOf] at own
      exact ⟨Iff.rfl, by rw [body]; rfl, by rw [body]; rfl, fun a release => nomatch release⟩
    · exact .refl _ _
  · split
    · refine .map _ fun x => ?_
      unfold keepFollowOn
      split
      · exact ⟨Iff.rfl, rfl, rfl, fun _ h => .inr h⟩
      · exact .refl _ _
    · split
      next room => exact .append room ⟨rfl, rfl⟩
      · exact .refl _ _

/-! ### The bus interface -/

/-- The counts of the bus interface and its two receive queues are in their ranges (Table 3-1). -/
structure BusUnit.counted (b : BusUnit) : Prop where
  budgetQueue     : b.budgetQueue.length ≤ 16
  serviceQueue    : b.serviceQueue.length ≤ 4
  txErrors        : b.txErrors ≤ 160
  rxErrors        : b.rxErrors ≤ 127
  gapCount        : b.gapCount ≤ 48
  budgetLoss      : b.budgetLoss ≤ 65535
  denied          : b.denied ≤ 65535
  serviceOverflow : b.serviceOverflow ≤ 65535
  reportDrop      : b.reportDrop ≤ 65535

/-- What a frame of the budget receive queue may announce (R80). -/
def Frame.announcesWithin (f : Frame) : Prop := ∀ k, f.body = .status k → k.total ≤ 65520

/-- What a change of the bus interface keeps, of a state with a release-pending amount. -/
structure BusKept (pending : Nat) (b b' : BusUnit) : Prop where
  queue  : QueueKept pending b.txQueue b'.txQueue
  counts : b.counted → b'.counted
  frames : ∀ f ∈ b'.budgetQueue, f ∈ b.budgetQueue ∨ f.announcesWithin

/-- A change of the transmit queue and of the marks and counts beside it. -/
theorem BusKept.of_queue {p : Nat} {b b' : BusUnit} (queue : QueueKept p b.txQueue b'.txQueue)
    (counts : b.counted → b'.counted) (frames : b'.budgetQueue = b.budgetQueue) : BusKept p b b' :=
  ⟨queue, counts, fun _ mem => .inl (frames ▸ mem)⟩

/-- A change of the counts, the health and the receive queues alone. -/
theorem BusKept.of_counts {p : Nat} {b b' : BusUnit} (queue : b'.txQueue = b.txQueue)
    (counts : b.counted → b'.counted) (frames : b'.budgetQueue = b.budgetQueue) : BusKept p b b' :=
  .of_queue (queue ▸ .refl _ _) counts frames

theorem satAdd_le (top a b : Nat) : satAdd top a b ≤ top := Nat.min_le_left _ _

theorem counted_countDrop {b : BusUnit} (h : b.counted) : b.countDrop.counted :=
  { h with reportDrop := satAdd_le _ _ _ }

theorem counted_place {b : BusUnit} (f : TxFrame) (h : b.counted) : (b.place f).counted := by
  unfold BusUnit.place
  split
  · exact { h with }
  · split
    · exact { counted_countDrop h with }
    · exact h

theorem counted_report {b : BusUnit} (r : CageReport) (level : Nat) (h : b.counted) :
    (b.report r level).counted := by
  unfold BusUnit.report
  repeat' split
  · exact { h with }
  · exact { h with }
  · exact { h with }
  · exact counted_countDrop h

theorem budgetQueue_place (b : BusUnit) (f : TxFrame) : (b.place f).budgetQueue = b.budgetQueue := by
  rw [place_bus]

theorem budgetQueue_report (b : BusUnit) (r : CageReport) (level : Nat) :
    (b.report r level).budgetQueue = b.budgetQueue := by
  rw [report_bus]

theorem BusKept.place {p : Nat} (b : BusUnit) {f : TxFrame} (plain : f.body.plain) :
    BusKept p b (b.place f) :=
  .of_queue (.place b plain) (counted_place f) (budgetQueue_place b f)

theorem BusKept.report {p : Nat} (b : BusUnit) (r : CageReport) (level : Nat) :
    BusKept p b (b.report r level) :=
  .of_queue (.report b r level) (counted_report r level) (budgetQueue_report b r level)

theorem BusKept.trans {p : Nat} {a b c : BusUnit} (h : BusKept p a b) (k : BusKept p b c) :
    BusKept p a c where
  queue := h.queue.trans k.queue
  counts ok := k.counts (h.counts ok)
  frames f mem := by
    rcases k.frames f mem with mem | within
    · exact h.frames f mem
    · exact .inr within

/-! ### The acts -/

/-- A cage's scan record is in its ranges (R134, R145). -/
def CageScan.bounded (k : CageScan) : Prop :=
  k.history.length ≤ 4 ∧ k.overRun ≤ 3 ∧ ∀ i : Fin 8, (k.windows[i]).length ≤ 4

/-- A cage's penalty record is in its ranges (R102). -/
def CagePenalty.bounded (p : CagePenalty) : Prop :=
  p.value ≤ 16383 ∧ ∀ m, p.lastModule = some m → m.stored ≤ 16383

/-- A peer entry is in its ranges (Table 2-3, R66). -/
def PeerEntry.bounded (e : PeerEntry) : Prop :=
  e.intents.length ≤ 4 ∧ e.age ≤ 4 ∧ e.confirmed ≤ 65520

/-- The part is past LOADING, or its service unit has been at work, which it never is in LOADING. -/
def State.awake (s : State) : Prop := s.startup.runState ≠ .loading ∨ s.service.phase ≠ .idle

/-- One act: what an operation of the model does to the part at once, with what its callers see to. -/
inductive Act : State → State → Prop where
  /-- The arbiters and the scanners move. -/
  | arbiters (s : State) (l : Vector Link 2) (n : Vector Scanner 2) :
      Act s { s with links := l, scan := { s.scan with scanners := n } }
  /-- The start-up block moves, with the parameter set, the straps' profile and the reset as they are. -/
  | startup (s : State) (u : Startup) (held : u.resetHeld = s.startup.resetHeld)
      (settings : u.settings = s.startup.settings) (profile : u.profile = s.startup.profile)
      (phase : u.loadPhase = .done ↔ s.startup.loadPhase = .done)
      (run : u.runState = s.startup.runState ∨ s.startup.runState ≠ .loading ∧
        (s.startup.runState = .adopting → ∀ c : Cage, (s.cage c).state ≠ .adopt)) :
      Act s { s with startup := u }
  /-- A record is made (R173). -/
  | record (s : State) (c : Cage) (kind : EventKind) (before : CageState) (cause : Option FaultCause) :
      Act s (handRecord c kind before cause s)
  /-- The penalty unit moves. -/
  | penalties (s : State) (p : PenaltyUnit)
      (bounded : (∀ c, (s.penalty c).bounded) → ∀ c : Cage, (p.cages[c]).bounded) :
      Act s { s with penalties := p }
  /-- The samples and the converter move. -/
  | scans (s : State) (u : ScanUnit)
      (bounded : (∀ c, (s.cageScan c).bounded) → ∀ c : Cage, (u.cages[c]).bounded) :
      Act s { s with scan := u }
  /-- The peer view moves. -/
  | peers (s : State) (p : Vector PeerEntry 32)
      (bounded : s.totalsBounded → (∀ n, (s.peer n).bounded) → ∀ n : Station, (p[n]).bounded) :
      Act s { s with peers := p }
  /-- The lines of a cage move, under the source in force, or with HELD lifted (R156). -/
  | lines (s : State) (c : Cage) (f : CageLines → CageLines)
      (filtered : (s.line c).filtered → (f (s.line c)).filtered)
      (named : (f (s.line c)).named = (s.line c).named)
      (latched : (f (s.line c)).latched = (s.line c).latched)
      (source : (f (s.line c)).source = (s.line c).source ∨
        (s.line c).source = .held ∧ (s.line c).named.map NamedSource.source = some (f (s.line c)).source) :
      Act s (s.updLines c f)
  /-- A cage's record moves within its state. -/
  | cage (s : State) (c : Cage) (f : CageRecord → CageRecord)
      (state : (f (s.cage c)).state = (s.cage c).state)
      (sound : (s.cage c).sound → (f (s.cage c)).sound) :
      Act s (s.updCage c f)
  /-- A cage moves from one state to another (R3), but not into POWER-UP, nor from ADOPT into
  LIGHT-SETTLE. -/
  | move (s : State) (c : Cage) (new : CageState) (cause : FaultCause)
      (live : (s.cage c).state ≠ .disabled) (adopt : new ≠ .adopt) (powerUp : new ≠ .powerUp)
      (settle : new = .lightSettle → (s.cage c).state = .powerUp)
      (faulted : new = .faulted → cause ≠ .none)
      (retries : new = .train ∨ new = .verify ∨ new = .relight →
        (s.cage c).sound → (s.cage c).trainRetries ≤ 3) :
      Act s (moveCage c new cause s)
  /-- A cage whose count of failures is spent is faulted (R9, R24). -/
  | spend (s : State) (c : Cage) (cause : FaultCause) (retries fails : Nat)
      (live : (s.cage c).state ≠ .disabled) (named : cause ≠ .none)
      (sound : (s.cage c).sound → retries ≤ 4) :
      Act s (moveCage c .faulted cause
        (s.updCage c (fun k => { k with trainRetries := retries, linkFails := fails })))
  /-- A cage in HOLD-DOWN is released (R30). -/
  | relight (s : State) (c : Cage) (held : (s.cage c).state = .holdDown) : Act s (enterRelight c s)
  /-- A cage in ADOPT goes to LIGHT-SETTLE with an adopted claim (R39, R45). -/
  | adopts (s : State) (c : Cage) (draw : Nat) (adopt : (s.cage c).state = .adopt) (most : draw ≤ 4095) :
      Act s (moveCage c .lightSettle .none (adoptClaim c draw s))
  /-- The service unit moves. -/
  | service (s : State) (u : ServiceUnit) (awake : s.awake ∨ u.phase = .idle) :
      Act s { s with service := u }
  /-- The bus interface moves. -/
  | bus (s : State) (b : BusUnit) (kept : BusKept s.claims.releasePending s.bus b) :
      Act s { s with bus := b }
  /-- The claim unit's marks, ceiling and timers move. -/
  | claimUnit (s : State) (u : ClaimUnit) (claims : u.claims = s.claims.claims)
      (intents : u.intents = s.claims.intents) (committed : u.committed = s.claims.committed)
      (pending : u.releasePending = s.claims.releasePending) :
      Act s { s with claims := u }
  /-- A claim record moves, but for its state, its d and its place on the admission list. -/
  | claim (s : State) (c : Cage) (f : Claim → Claim) (state : (f (s.claim c)).state = (s.claim c).state)
      (draw : (f (s.claim c)).draw = (s.claim c).draw)
      (listed : (f (s.claim c)).listed = (s.claim c).listed) :
      Act s (s.updClaim c f)
  /-- The windows of the own intents move. -/
  | windows (s : State) (f : OwnIntent → OwnIntent)
      (same : ∀ e, (f e).cage = e.cage ∧ (f e).draw = e.draw ∧ (f e).withdrawAtEnd = e.withdrawAtEnd) :
      Act s (s.updClaims (fun k => { k with intents := k.intents.map f }))
  /-- An own intent is cancelled (R53). -/
  | cancel (s : State) (e : OwnIntent) (mem : e ∈ s.claims.intents) : Act s (cancelIntent e s)
  /-- Every own intent is abandoned (R63, R64). -/
  | abandon (s : State) : Act s (abandonAll s)
  /-- The window of an own intent opens (R54). -/
  | opens (s : State) (e : OwnIntent) (mem : e ∈ s.claims.intents) : Act s (openWindow e s)
  /-- An own intent is judged (R57). -/
  | judge (s : State) (e : OwnIntent) (mem : e ∈ s.claims.intents) : Act s (judgeIntent e s)
  /-- An INTENT is queued for the candidate (R51). -/
  | intent (s : State) (c : Cage) (chosen : s.candidate = some c) (passes : s.testPasses c = true) :
      Act s (queueIntent c s)
  /-- A RELEASE has left with a good receipt (R44). -/
  | release (s : State) (i : Nat) (f : TxFrame) (amount : Nat) (attempt : s.underAttempt = some (i, f))
      (own : f.mark ≠ .detached) (body : f.body = .release amount) :
      Act s (releaseSent amount (judgeHealth (s.updBus (fun b => (b.sent i f).txGood))))
  /-- A parameter set is loaded (R185). -/
  | load (s : State) (k : Settings) (free : s.startup.resetHeld = false)
      (loading : s.startup.loadPhase ≠ .done) (budget : k.budget ≤ 65535) (allowance : k.unknownAllow ≤ 4095) : Act s (loadSettings k s)
  /-- A Restart latches the lines and clears the blocks (R188). -/
  | restart (s : State) (clocks : ClockHold) (awake : s.awake) :
      Act s (clearBlocks clocks (allCages.foldl latchEnabled s))

/-- Acts, one after the other. -/
abbrev Acts : State → State → Prop := Relation.ReflTransGen Act

end Sys2Proof.Machine
end

section
/-! PROOF. The acts of which the operations of the sequencer, the scanners and the arbiters are made. -/

namespace Sys2Proof.Machine

/-! ### The arbiters, the scanners and the small units -/

theorem updLink_acts (s : State) (g : Seg) (f : Link → Link) : Acts s (s.updLink g f) :=
  .single (.arbiters s _ s.scan.scanners)

theorem updScanner_acts (s : State) (g : Seg) (f : Scanner → Scanner) : Acts s (s.updScanner g f) :=
  .single (.arbiters s s.links _)

theorem putRequest_acts (g : Seg) (slot : Slot) (r : LinkRequest) (s : State) :
    Acts s (putRequest g slot r s) := updLink_acts _ _ _

theorem clearSlot_acts (g : Seg) (slot : Slot) (s : State) : Acts s (clearSlot g slot s) :=
  updLink_acts _ _ _

theorem discardScan_acts (g : Seg) (s : State) : Acts s (discardScan g s) := by
  unfold discardScan
  split
  · split
    · exact updScanner_acts _ _ _
    · exact (updScanner_acts s g _).trans (clearSlot_acts _ _ _)
  · exact updScanner_acts _ _ _

theorem dropScanOf_acts (c : Cage) (s : State) : Acts s (dropScanOf c s) := by
  unfold dropScanOf
  split
  · exact discardScan_acts _ _
  · exact .refl

theorem presentScan_acts (g : Seg) (cur : Cursor) (s : State) : Acts s (presentScan g cur s) := by
  unfold presentScan
  split
  · split
    · exact (updScanner_acts s g _).trans (putRequest_acts _ _ _ _)
    · exact updScanner_acts _ _ _
  · exact updScanner_acts _ _ _

theorem startSlot_acts (g : Seg) (s : State) : Acts s (startSlot g s) := by
  unfold startSlot
  dsimp only
  split
  · split
    · exact (updScanner_acts s g _).trans (presentScan_acts _ _ _)
    · exact .refl
  · exact .refl

theorem grantSegment_acts (g : Seg) (s : State) : Acts s (grantSegment g s) := by
  rcases grantSegment_links g s with same | ⟨_, slot, r, _, _, grant⟩
  · rw [same]
  · rw [grant]; exact updLink_acts _ _ _

theorem updScan_acts (s : State) (c : Cage) (f : CageScan → CageScan)
    (bounded : (s.cageScan c).bounded → (f (s.cageScan c)).bounded) : Acts s (s.updScan c f) := by
  refine .single (.scans s _ fun all d => ?_)
  show ((s.updScan c f).cageScan d).bounded
  by_cases h : d = c
  · subst h; rw [cageScan_updScan]; exact bounded (all d)
  · rw [cageScan_updScan_other _ _ _ _ h]; exact all d

theorem updPenalty_acts (s : State) (c : Cage) (f : CagePenalty → CagePenalty)
    (bounded : (s.penalty c).bounded → (f (s.penalty c)).bounded) : Acts s (s.updPenalty c f) := by
  refine .single (.penalties s _ fun all d => ?_)
  show ((s.updPenalty c f).penalty d).bounded
  by_cases h : d = c
  · subst h; rw [penalty_updPenalty]; exact bounded (all d)
  · rw [penalty_updPenalty_other _ _ _ _ h]; exact all d

theorem updBus_acts (s : State) (f : BusUnit → BusUnit)
    (kept : BusKept s.claims.releasePending s.bus (f s.bus)) : Acts s (s.updBus f) :=
  .single (.bus s _ kept)

theorem dueTest_acts (s : State) : Acts s (dueTest s) := .single (.claimUnit s _ rfl rfl rfl rfl)

theorem CageScan.bounded_clearWindows {k : CageScan} (h : k.bounded) : k.clearWindows.bounded :=
  ⟨h.1, h.2.1, fun i => by simp [CageScan.clearWindows]⟩

theorem clearWindows_acts (c : Cage) (s : State) : Acts s (clearWindows c s) :=
  (updScan_acts s c _ fun h => CageScan.bounded_clearWindows h).trans (dropScanOf_acts _ _)

theorem record_acts (c : Cage) (kind : EventKind) (before : CageState) (cause : Option FaultCause)
    (s : State) : Acts s (handRecord c kind before cause s) := .single (.record _ _ _ _ _)

/-! ### Requests and small changes of a cage's record -/

/-- A request put into a list keeps it at one of a kind (R7). -/
theorem addRequest_nodup {q : CrsRequest} {list : List CrsRequest}
    (h : (list.map CrsRequest.kind).Nodup) : ((addRequest q list).map CrsRequest.kind).Nodup := by
  unfold addRequest
  split
  · have same : (CrsRequest.kind ∘ fun p => if p.kind = q.kind then q else p) = CrsRequest.kind := by
      funext p
      simp only [Function.comp]
      split <;> simp_all
    rwa [List.map_map, same]
  next new =>
    rw [List.map_append, List.map_singleton, List.nodup_append_comm]
    refine List.nodup_cons.2 ⟨fun mem => new ?_, h⟩
    obtain ⟨p, listed, kind⟩ := List.mem_map.1 mem
    exact List.any_eq_true.2 ⟨p, listed, decide_eq_true kind⟩

theorem updCage_acts {s : State} {c : Cage} (f : CageRecord → CageRecord)
    (state : (f (s.cage c)).state = (s.cage c).state) (sound : (s.cage c).sound → (f (s.cage c)).sound) :
    Acts s (s.updCage c f) := .single (.cage s c f state sound)

theorem ask_acts (c : Cage) (kind : CrsKind) (value : Byte) (s : State) : Acts s (ask c kind value s) :=
  .single (.cage s c _ rfl fun h => { h with requests := addRequest_nodup h.requests })

theorem askPoll_acts (c : Cage) (s : State) : Acts s (askPoll c s) := by
  unfold askPoll
  split
  · exact .refl
  · exact ask_acts _ _ _ _

theorem wantTx_acts (c : Cage) (value : Byte) (s : State) : Acts s (wantTx c value s) := by
  unfold wantTx
  exact (updCage_acts (fun k => { k with wantedTx := some value }) rfl fun h => { h with }).trans
    (ask_acts _ _ _ _)

theorem zeroRetries_acts (c : Cage) (s : State) : Acts s (zeroRetries c s) :=
  .single (.cage s c _ rfl fun h => { h with retries := ⟨Nat.zero_le _, fun _ => Nat.zero_le _⟩ })

theorem keepIdentity_acts (c : Cage) (id : Identity) (s : State) : Acts s (keepIdentity c id s) :=
  .single (.cage s c _ rfl fun h => { h with })

theorem readIdentity_acts (c : Cage) (s : State) (few : (s.cage c).identReads < 3) :
    Acts s (readIdentity c s) := by
  unfold readIdentity
  exact (updCage_acts (fun k => { k with identReads := k.identReads + 1 }) rfl
    fun h => { h with reads := few }).trans (ask_acts _ _ _ _)

theorem pumpCage_acts (s : State) (c : Cage) : Acts s (pumpCage s c) := by
  unfold pumpCage
  split
  next q rest _ list =>
    have handed : ∀ {l : List CrsRequest}, (s.cage c).requests = q :: l →
        (s.cage c).sound → (l.map CrsRequest.kind).Nodup := fun list h =>
      (List.nodup_cons.1 (by simpa [list] using h.requests)).2
    split
    · exact .head (.cage s c (fun k => { k with requests := rest }) rfl
        fun h => { h with requests := handed list h }) (putRequest_acts _ _ _ _)
    · exact .single (.cage s c _ rfl fun h => { h with requests := .nil })
  · exact .refl

/-! ### Moves -/

@[simp] theorem moveCage_state (c : Cage) (new : CageState) (cause : FaultCause) (s : State) :
    ((moveCage c new cause s).cage c).state = new := by rw [moveCage_cage]; rfl

@[simp] theorem moveCage_retries (c : Cage) (new : CageState) (cause : FaultCause) (s : State) :
    ((moveCage c new cause s).cage c).trainRetries = (s.cage c).trainRetries := by
  rw [moveCage_cage]; rfl

/-- A powered cage is not in DISABLED. -/
theorem CageState.ne_disabled_of_powered {st : CageState} (h : st.powered = true) : st ≠ .disabled := by
  rintro rfl; cases h

/-- A move to a state that asks nothing of the training retry count. -/
theorem move_acts {c : Cage} {new : CageState} {cause : FaultCause} {s : State}
    (live : (s.cage c).state ≠ .disabled)
    (new_ : new ≠ .adopt ∧ new ≠ .powerUp ∧ new ≠ .lightSettle ∧ (new = .faulted → cause ≠ .none) ∧
      new ≠ .train ∧ new ≠ .verify ∧ new ≠ .relight) : Acts s (moveCage c new cause s) := by
  obtain ⟨adopt, powerUp, settle, faulted, train, verify, relight⟩ := new_
  exact .single (.move s c new cause live adopt powerUp (absurd · settle) faulted fun h =>
    h.elim (absurd · train) (·.elim (absurd · verify) (absurd · relight)))

/-- A move along training, where the count has room. -/
theorem trainMove_acts {c : Cage} {new : CageState} {s : State} (live : (s.cage c).state ≠ .disabled)
    (train : new = .train ∨ new = .verify)
    (room : (s.cage c).sound → (s.cage c).trainRetries ≤ 3) : Acts s (moveCage c new .none s) := by
  rcases train with rfl | rfl
  all_goals exact .single (.move s c _ _ live (by simp) (by simp) (by simp) (by simp) fun _ => room)

theorem enterIdentify_acts {c : Cage} {s : State} (live : (s.cage c).state ≠ .disabled) :
    Acts s (enterIdentify c s) :=
  (move_acts live (by simp)).tail (.cage _ c _ rfl fun h => { h with reads := Nat.zero_le _ })

theorem enterFaulted_acts {c : Cage} {cause : FaultCause} {s : State}
    (live : (s.cage c).state ≠ .disabled) (named : cause ≠ .none) : Acts s (enterFaulted c cause s) :=
  (record_acts c _ _ _ s).trans (move_acts live (by simp [named]))

theorem startSettling_acts (c : Cage) (s : State) : Acts s (startSettling c s) :=
  ((wantTx_acts c 0 s).trans (clearWindows_acts _ _)).tail (.cage _ c _ rfl fun h => { h with })

theorem enterHoldDown_acts {c : Cage} {s : State} (live : (s.cage c).state ≠ .disabled) :
    Acts s (enterHoldDown c s) :=
  (move_acts live (by simp)).trans (wantTx_acts _ _ _)

theorem ask_state (c : Cage) (kind : CrsKind) (value : Byte) (s : State) (d : Cage) :
    ((ask c kind value s).cage d).state = (s.cage d).state := by
  by_cases h : d = c
  · subst h; simp [ask]
  · simp [ask, cage_updCage_other, h]

theorem enterTrain_acts {c : Cage} {restart : Bool} {s : State} (live : (s.cage c).state ≠ .disabled)
    (room : (s.cage c).sound → (s.cage c).trainRetries ≤ 3) : Acts s (enterTrain c restart s) := by
  have train := trainMove_acts (new := .train) live (.inl rfl) room
  have onward : ∀ {u : State}, Acts s u → (u.cage c).state = .train →
      Acts s (if (u.line c).link then moveCage c .verify .none u else u) := fun acts state => by
    split
    · exact acts.trans (trainMove_acts (by simp [state]) (.inr rfl) fun h => h.retries.2 (.inl state))
    · exact acts
  unfold enterTrain
  cases restart
  · exact onward train (moveCage_state _ _ _ _)
  · exact onward (train.trans (ask_acts _ _ _ _)) ((ask_state _ _ _ _ _).trans (moveCage_state _ _ _ _))

theorem enterTrainAfresh_acts {c : Cage} {s : State} (live : (s.cage c).state ≠ .disabled) :
    Acts s (enterTrainAfresh c s) :=
  (zeroRetries_acts c s).trans (enterTrain_acts (by simpa [zeroRetries] using live)
    fun _ => by simp [zeroRetries])

theorem trainingRetry_acts {c : Cage} {timeout : Bool} {s : State}
    (training : (s.cage c).state = .train ∨ (s.cage c).state = .verify) :
    Acts s (trainingRetry c timeout s) := by
  have live : (s.cage c).state ≠ .disabled := by rcases training with h | h <;> simp [h]
  have few : (s.cage c).sound → (s.cage c).trainRetries ≤ 3 := fun h =>
    h.retries.2 (training.imp_right .inl)
  unfold trainingRetry
  dsimp only
  split
  · exact (record_acts c _ _ _ s).tail
      (.spend _ c _ ((s.cage c).trainRetries + 1) (s.cage c).linkFails live (by simp)
        fun h => Nat.succ_le_succ (few h))
  next room =>
    have le : (s.cage c).trainRetries + 1 ≤ 3 := by omega
    refine .head (.cage s c (fun k => { k with trainRetries := (s.cage c).trainRetries + 1 }) rfl
      fun h => { h with retries := ⟨le.trans (by decide), fun _ => le⟩ }) ?_
    exact enterTrain_acts (by simpa using live) fun _ => by simpa using le

theorem takeFlap_acts {c : Cage} {s : State} (live : (s.cage c).state ≠ .disabled) :
    Acts s (takeFlap c s) := by
  have flap : Acts s (handRecord c .flap .inService none (flapPenalty c s)) :=
    (updPenalty_acts s c _ fun h => ⟨satAdd_le _ _ _, h.2⟩).trans (record_acts _ _ _ _ _)
  unfold takeFlap
  dsimp only
  split
  · exact (flap.trans (record_acts _ _ _ _ _)).trans (enterHoldDown_acts live)
  · exact flap.trans (enterTrainAfresh_acts live)

theorem enterLightSettle_acts {c : Cage} {s : State} (state : (s.cage c).state = .powerUp) :
    Acts s (enterLightSettle c s) :=
  .head (.move s c .lightSettle .none (by simp [state]) (by simp) (by simp) (fun _ => state) (by simp)
    (by simp)) (startSettling_acts _ _)

theorem observe_acts (c : Cage) (o : Observation) (s : State) : Acts s (observe c o s) := by
  unfold observe
  dsimp only
  split
  · exact .refl
  next powered =>
    have live : (s.cage c).state ≠ .disabled := CageState.ne_disabled_of_powered (by simpa using powered)
    split
    · exact enterFaulted_acts live (by simp)
    · split
      next state =>
        split
        · exact trainingRetry_acts (.inr state)
        · exact .refl
      next state =>
        split
        · exact enterFaulted_acts live (by simp)
        · split
          · exact takeFlap_acts live
          · exact .refl
      next state =>
        split
        · exact enterTrainAfresh_acts live
        · exact .refl
      next state =>
        split
        · exact enterLightSettle_acts state
        · exact .refl
      · exact .refl

/-! ### Verdicts -/

theorem settlePair_acts (c : Cage) (s : State) : Acts s (settlePair c s) := by
  unfold settlePair
  dsimp only
  split
  next h => exact enterTrainAfresh_acts (by simp [h.1])
  · exact .refl

theorem takeLaneVerdict_acts (c : Cage) (verdict : Bool) (s : State) :
    Acts s (takeLaneVerdict c verdict s) := by
  have noted : Acts s (s.updCage c (fun k => { k with laneStable := verdict })) :=
    .single (.cage s c _ rfl fun h => { h with })
  unfold takeLaneVerdict
  split
  · exact noted.trans (settlePair_acts _ _)
  next state =>
    dsimp only
    split
    · exact noted.trans (enterTrain_acts (by simp [state]) fun h =>
        h.retries.2 (.inr (.inr (by simpa using state))))
    · exact noted
  · exact .refl

theorem takeSettledVerdict_acts (c : Cage) (verdict : Bool) (s : State) :
    Acts s (takeSettledVerdict c verdict s) := by
  unfold takeSettledVerdict
  split
  · exact (updCage_acts (fun k => { k with drawSettled := verdict }) rfl fun h => { h with }).trans
      (settlePair_acts _ _)
  · exact .refl

theorem takeOverdraw_acts (c : Cage) (s : State) : Acts s (takeOverdraw c s) := by
  unfold takeOverdraw
  split
  next powered => exact enterFaulted_acts (CageState.ne_disabled_of_powered powered) (by simp)
  · exact .refl

theorem takeReuse_acts (c : Cage) (s : State) : Acts s (takeReuse c s) := by
  unfold takeReuse
  split
  next h => exact .single (.relight s c h.1)
  · exact .refl

/-! ### Line changes -/

theorem presentAsserted_acts (c : Cage) (s : State) : Acts s (presentAsserted c s) := by
  unfold presentAsserted
  split
  next h => exact move_acts (by simp [h.2]) (by simp)
  · exact .refl

theorem handSerial_acts (c : Cage) (s : State) : Acts s (handSerial c s) := by
  unfold handSerial
  split
  · exact updPenalty_acts s c _ fun h => ⟨h.1, fun m stored => by cases stored; exact h.1⟩
  · exact .refl

theorem handSerial_cage (c d : Cage) (s : State) : (handSerial c s).cage d = s.cage d := by
  simp [State.cage]

theorem removeModule_acts {c : Cage} {s : State} (live : (s.cage c).state ≠ .disabled) :
    Acts s (removeModule c s) := by
  have cleared : ∀ u : State, Acts u (u.updCage c CageRecord.cleared) := fun u =>
    updCage_acts CageRecord.cleared rfl fun h => { h with
      reads := Nat.zero_le _, retries := ⟨Nat.zero_le _, fun _ => Nat.zero_le _⟩
      failures := Nat.zero_le _ }
  have removed : ∀ (u : State) (old : CageState), (u.cage c).state ≠ .disabled →
      Acts u ((moveCage c .vacant .none (handSerial c (handRecord c .removed old none u))).updCage c
        CageRecord.cleared) := fun u old live =>
    ((record_acts c _ old _ u).trans (handSerial_acts _ _)).trans
      ((move_acts (by rw [handSerial_cage]; exact live) (by simp)).trans (cleared _))
  unfold removeModule
  dsimp only
  split
  · exact (record_acts c _ _ _ s).trans (removed _ _ live)
  · exact removed s _ live

theorem removeHeld_acts (c : Cage) (s : State) : Acts s (removeHeld c s) := by
  unfold removeHeld
  exact (((record_acts c _ _ _ s).trans (handSerial_acts _ _)).trans
    (updCage_acts (fun k => { k with identity := none, trainRetries := 0 }) rfl fun h => { h with
      retries := ⟨Nat.zero_le _, fun _ => Nat.zero_le _⟩ })).trans (updScan_acts _ c _ fun h => h)

theorem presentDeasserted_acts (c : Cage) (s : State) : Acts s (presentDeasserted c s) := by
  unfold presentDeasserted
  split
  · exact .refl
  · exact .refl
  next state => exact (move_acts (by simp [state]) (by simp)).trans (zeroRetries_acts _ _)
  · exact removeHeld_acts _ _
  next disabled _ _ => exact removeModule_acts disabled

theorem linkAsserted_acts (c : Cage) (s : State) : Acts s (linkAsserted c s) := by
  unfold linkAsserted
  split
  next state => exact trainMove_acts (by simp [state]) (.inr rfl) fun h => h.retries.2 (.inl state)
  next state => exact enterTrainAfresh_acts (by simp [state])
  · exact .refl

theorem linkDeasserted_acts (c : Cage) (s : State) : Acts s (linkDeasserted c s) := by
  unfold linkDeasserted
  split
  next state => exact trainingRetry_acts (.inr state)
  next state => exact takeFlap_acts (by simp [state])
  · exact .refl

theorem takeAlert_acts (c : Cage) (s : State) : Acts s (takeAlert c s) := by
  unfold takeAlert
  split
  · exact ask_acts _ _ _ _
  · exact .refl

/-- An init wait fits a cage in IDENTIFY alone (Table 1-3). -/
theorem CageTimers.fit_startInit {t : CageTimers} (now : Nat) (h : t.fit .identify = true) :
    (t.startInit now).fit .identify = true := by
  simpa [CageTimers.fit, CageTimers.startInit] using h

theorem sequencerReport_acts (c : Cage) (s : State) : Acts s (sequencerReport c s) := by
  unfold sequencerReport
  dsimp only
  split
  next h =>
    refine updCage_acts _ rfl fun k => { k with timers := ?_ }
    have fit := k.timers
    rw [h.1] at fit
    show CageTimers.fit _ (s.cage c).state = true
    rw [h.1]
    exact CageTimers.fit_startInit _ fit
  · exact .refl

/-! ### Identity reads -/

theorem CagePenalty.bounded_reseat {p : CagePenalty} (now : StationTime) (limit : Nat) (serial : List Byte)
    (h : p.bounded) : (⟨reseatPenalty now limit serial p, none⟩ : CagePenalty).bounded := by
  refine ⟨?_, fun m stored => nomatch stored⟩
  show reseatPenalty now limit serial p ≤ 16383
  unfold reseatPenalty
  split
  · exact h.1
  next m record =>
    have stored := h.2 m record
    repeat' split
    all_goals omega

theorem judgeContent_acts {c : Cage} (block : List Byte) {s : State}
    (live : (s.cage c).state ≠ .disabled) : Acts s (judgeContent c block s) := by
  have live' : ∀ id, ((keepIdentity c id s).cage c).state ≠ .disabled := fun id => by
    simpa [keepIdentity] using live
  unfold judgeContent
  dsimp only
  split
  · exact enterFaulted_acts live (by simp)
  · split
    · exact (keepIdentity_acts _ _ _).trans (enterFaulted_acts (live' _) (by simp))
    · exact ((keepIdentity_acts _ _ _).trans
        (updPenalty_acts _ c _ fun h => CagePenalty.bounded_reseat _ _ _ h)).trans (move_acts (live' _) (by simp))

theorem identityFailed_acts {c : Cage} {cause : FaultCause} {s : State}
    (live : (s.cage c).state ≠ .disabled) (named : cause ≠ .none) : Acts s (identityFailed c cause s) := by
  unfold identityFailed
  split
  next few => exact readIdentity_acts _ _ few
  · exact enterFaulted_acts live named

theorem identityEnds_acts {c : Cage} (outcome : LinkOutcome) {s : State}
    (live : (s.cage c).state ≠ .disabled) : Acts s (identityEnds c outcome s) := by
  unfold identityEnds
  split
  · split
    · exact judgeContent_acts _ live
    · exact identityFailed_acts live (by simp)
  · exact identityFailed_acts live (by simp)
  · exact identityFailed_acts live (by simp)
  · exact .refl

theorem surgeDraw_le (pm surgeFactor : Nat) : surgeDraw pm surgeFactor ≤ 4095 :=
  clampNat_le (by decide) _

theorem placeAdopted_acts {c : Cage} (block : List Byte) {s : State} (state : (s.cage c).state = .adopt) :
    Acts s (placeAdopted c block s) := by
  have kept : Acts s (handAdopted c (keepIdentity c (identityOf s.conf block) s)) :=
    (keepIdentity_acts _ _ _).trans (record_acts _ _ _ _ _)
  have state' : ((handAdopted c (keepIdentity c (identityOf s.conf block) s)).cage c).state = .adopt := by
    show ((keepIdentity c _ s).cage c).state = .adopt
    rw [keepIdentity, cage_updCage]
    exact state
  unfold placeAdopted
  dsimp only
  split
  · exact kept.trans (move_acts (by simp [state']) (by simp))
  · exact kept.trans (.head (.adopts _ c _ state' (surgeDraw_le _ _)) (startSettling_acts _ _))

theorem adoptionFailed_acts {c : Cage} {s : State} (live : (s.cage c).state ≠ .disabled) :
    Acts s (adoptionFailed c s) := by
  unfold adoptionFailed
  split
  next few => exact readIdentity_acts _ _ few
  · exact (record_acts c _ _ _ s).trans (enterFaulted_acts live (by simp))

theorem adoptionEnds_acts {c : Cage} (outcome : LinkOutcome) {s : State}
    (state : (s.cage c).state = .adopt) : Acts s (adoptionEnds c outcome s) := by
  have live : (s.cage c).state ≠ .disabled := by simp [state]
  unfold adoptionEnds
  split
  · split
    · exact placeAdopted_acts _ state
    · exact adoptionFailed_acts live
  · exact adoptionFailed_acts live
  · exact adoptionFailed_acts live
  · exact .refl

theorem examineAdopted_acts {c : Cage} {s : State} (state : (s.cage c).state = .adopt)
    (few : (s.cage c).identReads < 3) : Acts s (examineAdopted c s) := by
  have live : (s.cage c).state ≠ .disabled := by simp [state]
  unfold examineAdopted
  split
  · exact (record_acts c _ _ _ s).trans (move_acts live (by simp))
  · split
    · exact (record_acts c _ _ _ s).trans (enterIdentify_acts live)
    · exact readIdentity_acts _ _ few

/-! ### Outcomes of transactions -/

theorem countFailure_acts (c : Cage) (good : Bool) (s : State) : Acts s (countFailure c good s) := by
  unfold countFailure
  dsimp only
  split
  · exact .refl
  next powered =>
    have live : (s.cage c).state ≠ .disabled := CageState.ne_disabled_of_powered (by simpa using powered)
    split
    · exact .single (.cage s c _ rfl fun h => { h with failures := Nat.zero_le _ })
    · split
      · exact (record_acts c _ _ _ s).tail
          (.spend _ c _ (s.cage c).trainRetries ((s.cage c).linkFails + 1) live (by simp)
            fun h => h.retries.1)
      · exact .single (.cage s c _ rfl fun h => { h with
          failures := show (s.cage c).linkFails + 1 ≤ 2 by omega })

theorem actOnIdentity_acts (c : Cage) (outcome : LinkOutcome) (s : State) :
    Acts s (actOnIdentity c outcome s) := by
  unfold actOnIdentity
  split
  next state => exact identityEnds_acts _ (by simp [state])
  next state => exact adoptionEnds_acts _ state
  · exact .refl

theorem actOnStatus_acts (c : Cage) (outcome : LinkOutcome) (s : State) :
    Acts s (actOnStatus c outcome s) := by
  unfold actOnStatus
  split
  · exact observe_acts _ _ _
  all_goals exact .refl

theorem actOnOutcome_acts (c : Cage) (q : CrsRequest) (outcome : LinkOutcome) (s : State) :
    Acts s (actOnOutcome c q outcome s) := by
  have asked : ∀ {p : Prop} [Decidable p] {kind : CrsKind} {value : Byte},
      Acts s (if p then ask c kind value s else s) := by
    intro p _ kind value
    split
    · exact ask_acts _ _ _ _
    · exact .refl
  unfold actOnOutcome retryTx retryRestart
  dsimp only
  split
  · split
    · exact actOnIdentity_acts _ _ _
    · exact .refl
  · split
    · exact actOnStatus_acts _ _ _
    · exact .refl
  · split
    · exact actOnStatus_acts _ _ _
    · exact .refl
  · split
    · exact .refl
    · exact asked
  · split
    · exact .refl
    · exact asked

theorem crsOutcome_acts (c : Cage) (q : CrsRequest) (discard : Bool) (outcome : LinkOutcome) (s : State) :
    Acts s (crsOutcome c q discard outcome s) := by
  unfold crsOutcome
  split
  · exact .refl
  · dsimp only
    split
    · exact countFailure_acts _ _ _
    · exact (countFailure_acts _ _ _).trans (actOnOutcome_acts _ _ _ _)

/-! ### Scans and conversions -/

theorem keepSample_acts (c : Cage) (lanes : Nat) (bytes : List Byte) (s : State) :
    Acts s (keepSample c lanes bytes s) := updScan_acts s c _ fun h => h

theorem windowAdd_length {w : List Nat} (h : w.length ≤ 4) (v : Nat) : (windowAdd w v).length ≤ 4 := by
  unfold windowAdd
  split <;> simp <;> omega

theorem historyAdd_length {l : List Draw} (h : l.length ≤ 4) (d : Draw) : (historyAdd l d).length ≤ 4 := by
  unfold historyAdd
  split <;> simp <;> omega

theorem fillWindows_acts (c : Cage) (lanes : Nat) (bytes : List Byte) (s : State) :
    Acts s (fillWindows c lanes bytes s) := by
  refine updScan_acts s c _ fun ⟨history, run, windows⟩ => ⟨history, run, fun i => ?_⟩
  simp only [CageScan.fill, Fin.getElem_fin, Vector.getElem_ofFn]
  split
  · exact windowAdd_length (windows i) _
  · exact windows i

theorem handLanes_acts (cur : Cursor) (bytes : List Byte) (s : State) : Acts s (handLanes cur bytes s) :=
  (fillWindows_acts _ _ _ _).trans (takeLaneVerdict_acts _ _ _)

theorem completeScan_acts (g : Seg) (cur : Cursor) (bytes : List Byte) (s : State) :
    Acts s (completeScan g cur bytes s) := by
  have ended := ((keepSample_acts cur.cage cur.lanes bytes s).trans
    (observe_acts cur.cage (observationOf true bytes) _)).trans (updScanner_acts _ g (Scanner.ended .idle))
  unfold completeScan
  dsimp only
  split
  · exact ended
  · exact ended.trans (handLanes_acts _ _ _)

theorem scanOutcome_acts (g : Seg) (outcome : LinkOutcome) (s : State) :
    Acts s (scanOutcome g outcome s) := by
  unfold scanOutcome advanceScan
  dsimp only
  split
  · split
    · exact (updScanner_acts _ _ _).trans (presentScan_acts _ _ _)
    · exact completeScan_acts _ _ _ _
  · exact .refl
  · exact updScanner_acts _ _ _

theorem nextRun_le (st : CageState) (id : Option Identity) (d : Draw) (run : Nat) :
    nextRun st id d run ≤ 3 := by
  unfold nextRun
  repeat' split
  all_goals omega

theorem convertChannel_acts (c : Cage) (code : BitVec 10) (s : State) :
    Acts s (convertChannel c code s) := by
  unfold convertChannel
  refine .tail (updScan_acts s c _ fun ⟨history, _, windows⟩ => ?_) (.scans _ _ fun h => h)
  exact ⟨historyAdd_length history _, nextRun_le _ _ _ _, windows⟩

theorem takeConversion_acts (code : BitVec 10) (s : State) : Acts s (takeConversion code s) := by
  have converted := convertChannel_acts s.scan.channel code s
  unfold takeConversion
  dsimp only
  refine .trans ?_ (takeSettledVerdict_acts _ _ _)
  split
  · exact converted.trans (takeOverdraw_acts _ _)
  · exact converted

/-! ### Timers and requests against a cage -/

theorem debounceEnds_acts {c : Cage} {s : State} (live : (s.cage c).state ≠ .disabled) :
    Acts s (debounceEnds c s) :=
  (record_acts c _ _ _ s).trans (enterIdentify_acts live)

theorem CageTimers.fit_stopInit {t : CageTimers} {st : CageState} (h : t.fit st = true) :
    t.stopInit.fit st = true := by
  simp only [CageTimers.fit, CageTimers.stopInit, Bool.and_eq_true] at h ⊢
  tauto

theorem initWaitEnds_acts (c : Cage) (s : State) : Acts s (initWaitEnds s c) := by
  unfold initWaitEnds
  exact (updCage_acts (fun k => { k with timers := k.timers.stopInit, identReads := 0 }) rfl
    fun h => { h with timers := CageTimers.fit_stopInit h.timers, reads := Nat.zero_le _ }).trans
    (readIdentity_acts _ _ (by simp))

theorem initWaitsEnd_acts (c : Cage) (s : State) : Acts s (initWaitsEnd c s) := by
  unfold initWaitsEnd
  generalize s.startedWith c = cs
  induction cs generalizing s with
  | nil => exact .refl
  | cons d cs ih => exact (initWaitEnds_acts d s).trans (ih _)

theorem pollDue_acts {c : Cage} {s : State} (state : (s.cage c).state = .powerUp) :
    Acts s (pollDue c s) := by
  have fit : (s.cage c).sound →
      CageTimers.fit { (s.cage c).timers with poll := some 50 } (s.cage c).state = true := fun h => by
    simpa [state, CageTimers.fit] using h.timers
  unfold pollDue
  exact (updCage_acts (fun k => { k with timers := { k.timers with poll := some 50 } }) rfl
    fun h => { h with timers := fit h }).trans (askPoll_acts _ _)

theorem trainEnds_acts {c : Cage} {s : State} (state : (s.cage c).state = .train) :
    Acts s (trainEnds c s) := by
  unfold trainEnds
  split
  · exact move_acts (by simp [state]) (by simp)
  · exact trainingRetry_acts (.inl state)

theorem verifyEnds_acts {c : Cage} {s : State} (state : (s.cage c).state = .verify) :
    Acts s (verifyEnds c s) :=
  (record_acts c _ _ _ s).trans (move_acts (by
    rw [show ((handRecord c .inService .verify none s).cage c).state = (s.cage c).state from rfl, state]
    simp) (by simp))

theorem holdCage_acts (c : Cage) (s : State) : Acts s (holdCage c s).2 := by
  unfold holdCage
  split
  · exact .refl
  · exact .refl
  · exact .refl
  next old disabled _ _ =>
    exact (record_acts c _ _ _ s).trans (move_acts disabled (by simp))

theorem unholdCage_acts (c : Cage) (s : State) : Acts s (unholdCage c s).2 := by
  unfold unholdCage
  split
  next state =>
    have freed : Acts s (zeroRetries c (handRecord c .manual .manualHold none s)) :=
      (record_acts c _ _ _ s).trans (zeroRetries_acts _ _)
    have live : ((zeroRetries c (handRecord c .manual .manualHold none s)).cage c).state ≠ .disabled := by
      rw [zeroRetries, cage_updCage]
      show (s.cage c).state ≠ .disabled
      simp [state]
    dsimp only
    split
    · exact freed.trans (enterIdentify_acts live)
    · exact (freed.trans (move_acts live (by simp))).tail (.cage _ c _ rfl fun h => { h with })
  · exact .refl

theorem retryCage_acts (c : Cage) (s : State) : Acts s (retryCage c s).2 := by
  unfold retryCage
  split
  next state =>
    refine ((record_acts c _ _ _ s).trans (zeroRetries_acts _ _)).trans (enterIdentify_acts ?_)
    rw [zeroRetries, cage_updCage]
    show (s.cage c).state ≠ .disabled
    simp [state]
  · exact .refl

theorem clearPenaltyOf_acts (c : Cage) (s : State) : Acts s (clearPenaltyOf c s) := by
  have cleared : Acts s (zeroPenalty c s) := updPenalty_acts s c _ fun h =>
    ⟨Nat.zero_le _, fun m stored => by
      obtain ⟨n, _, rfl⟩ := Option.map_eq_some_iff.1 stored; exact Nat.zero_le _⟩
  unfold clearPenaltyOf
  dsimp only
  split
  next state => exact cleared.tail (.relight _ c state)
  · exact cleared

end Sys2Proof.Machine
end

section
/-! PROOF. The acts of which the judgements, the service unit, the bus interface and the start-up block are made,
and with them every event. -/

namespace Sys2Proof.Machine

/-! ### Folds -/

theorem foldl_acts {α : Type} {f : State → α → State} (step : ∀ s a, Acts s (f s a)) (l : List α)
    (s : State) : Acts s (l.foldl f s) := by
  induction l generalizing s with
  | nil => exact .refl
  | cons a l ih => exact (step s a).trans (ih _)

theorem ite_acts {p : Prop} [Decidable p] {s t u : State} (h : Acts s t) (k : Acts s u) :
    Acts s (if p then t else u) := by
  split
  · exact h
  · exact k

/-! ### The claim unit -/

theorem updClaims_acts (s : State) (f : ClaimUnit → ClaimUnit)
    (same : (f s.claims).claims = s.claims.claims ∧ (f s.claims).intents = s.claims.intents ∧
      (f s.claims).committed = s.claims.committed ∧
      (f s.claims).releasePending = s.claims.releasePending) : Acts s (s.updClaims f) :=
  .single (.claimUnit s _ same.1 same.2.1 same.2.2.1 same.2.2.2)

theorem updIntent_acts (tag : Tag) (f : OwnIntent → OwnIntent)
    (same : ∀ e, (f e).cage = e.cage ∧ (f e).draw = e.draw ∧ (f e).withdrawAtEnd = e.withdrawAtEnd)
    (s : State) : Acts s (updIntent tag f s) := by
  refine .single (.windows s (fun e => if e.tag = tag then f e else e) fun e => ?_)
  split
  · exact same e
  · exact ⟨rfl, rfl, rfl⟩

theorem intentOf_mem {s : State} {tag : Tag} {e : OwnIntent} (h : s.intentOf tag = some e) :
    e ∈ s.claims.intents := List.mem_of_find?_eq_some h

theorem windowEnds_acts {e : OwnIntent} {s : State} (mem : e ∈ s.claims.intents) :
    Acts s (windowEnds e s) := by
  unfold windowEnds
  split
  · exact .single (.judge s e mem)
  · exact updIntent_acts _ (OwnIntent.waitFor _) (fun _ => ⟨rfl, rfl, rfl⟩) s

theorem judgeDue_acts (s : State) : Acts s (judgeDue s) := by
  refine .head (.windows s OwnIntent.counted fun e => ⟨rfl, rfl, rfl⟩) (foldl_acts (fun s e => ?_) _ _)
  split
  next e found => exact .single (.judge s e (intentOf_mem found))
  · exact .refl

theorem enterBlind_acts (s : State) : Acts s (enterBlind s) :=
  (updClaims_acts s _ ⟨rfl, rfl, rfl, rfl⟩).tail (.abandon _)

theorem healthReport_acts (before : BusHealth) (s : State) : Acts s (healthReport before s) := by
  unfold healthReport
  split
  · exact .refl
  · split
    · exact .single (.abandon s)
    · exact dueTest_acts s
    all_goals exact .refl

theorem judgeHealth_acts (s : State) : Acts s (judgeHealth s) :=
  (updBus_acts s BusUnit.judged (.of_counts rfl (fun h => { h with }) rfl)).trans (healthReport_acts _ _)

theorem runDueTest_acts (s : State) : Acts s (runDueTest s) := by
  have tests : ∀ (n : Nat) (s : State), Acts s (queueTests n s) := fun n => by
    induction n with
    | zero => exact fun s => .refl
    | succ n ih =>
      intro s
      unfold queueTests
      split
      next c chosen =>
        split
        next passes => exact .head (.intent s c chosen passes) (ih _)
        · exact .refl
      · exact .refl
  unfold runDueTest
  split
  · exact (updClaims_acts s _ ⟨rfl, rfl, rfl, rfl⟩).trans (tests _ _)
  · exact .refl

/-! ### The peer view -/

theorem PeerEntry.bounded_credit {e : PeerEntry} (amount : Nat) (h : e.bounded) :
    (e.credit amount).bounded := ⟨h.1, h.2.1, satAdd_le _ _ _⟩

theorem PeerEntry.bounded_without {e : PeerEntry} (tag : Tag) (h : e.bounded) :
    (e.without tag).bounded := ⟨(List.length_filter_le _ _).trans h.1, h.2⟩

theorem PeerEntry.bounded_promote {e : PeerEntry} (tag : Tag) (h : e.bounded) :
    (e.promote tag).bounded := by
  unfold PeerEntry.promote
  split
  · exact PeerEntry.bounded_without _ (PeerEntry.bounded_credit _ h)
  · exact h

theorem PeerEntry.bounded_makeRoom {e : PeerEntry} (h : e.bounded) :
    e.makeRoom.bounded ∧ e.makeRoom.intents.length ≤ 3 := by
  obtain ⟨few, age, confirmed⟩ := h
  unfold PeerEntry.makeRoom
  split
  next i rest list =>
    have length : e.intents.length = rest.length + 1 := by rw [list]; rfl
    split
    · exact ⟨⟨show rest.length ≤ 4 by omega, age, satAdd_le _ _ _⟩, show rest.length ≤ 3 by omega⟩
    · exact ⟨⟨few, age, confirmed⟩, by omega⟩
  next list => exact ⟨⟨few, age, confirmed⟩, by simp [list]⟩

theorem PeerEntry.bounded_tick {e : PeerEntry} (h : e.bounded) : e.tick.bounded := by
  obtain ⟨few, age, confirmed⟩ := h
  unfold PeerEntry.tick
  split
  · split
    · exact ⟨few, le_rfl, confirmed⟩
    next young => exact ⟨few, show e.age + 1 ≤ 4 by omega, confirmed⟩
  · exact ⟨few, age, confirmed⟩
  · exact ⟨few, age, confirmed⟩

theorem PeerEntry.bounded_take {e : PeerEntry} {allow : Nat} {f : Frame} (h : e.bounded)
    (small : allow ≤ 4095) (within : f.announcesWithin) : (e.take allow f).bounded := by
  have ready : (e.ready allow f.body.isStatus).bounded := by
    refine ⟨h.1, Nat.zero_le _, ?_⟩
    simp only [PeerEntry.ready]
    split
    · omega
    · exact h.2.2
  unfold PeerEntry.take PeerEntry.takeBody
  split
  · obtain ⟨⟨_, age, confirmed⟩, room⟩ := PeerEntry.bounded_makeRoom (PeerEntry.bounded_promote _ ready)
    exact ⟨by simpa [PeerEntry.takeIntent] using Nat.lt_succ_of_le room, age, confirmed⟩
  · exact PeerEntry.bounded_credit _ (PeerEntry.bounded_without _ ready)
  · exact PeerEntry.bounded_without _ ready
  · exact ⟨ready.1, ready.2.1, (Nat.sub_le _ _).trans ready.2.2⟩
  next content body =>
    exact ⟨(List.length_filter_le _ _).trans ready.1, ready.2.1, within content body⟩
  all_goals exact ready

theorem updPeer_acts (s : State) (n : Station) (f : PeerEntry → PeerEntry)
    (bounded : s.totalsBounded → (s.peer n).bounded → (f (s.peer n)).bounded) :
    Acts s (s.updPeer n f) := by
  refine .single (.peers s _ fun totals all m => ?_)
  show ((s.updPeer n f).peer m).bounded
  by_cases h : m = n
  · subst h; rw [peer_updPeer]; exact bounded totals (all m)
  · rw [peer_updPeer_other _ _ _ _ h]; exact all m

theorem tickPeers_acts (s : State) : Acts s (tickPeers s) :=
  .single (.peers s _ fun _ all n => by
    rw [Fin.getElem_fin, Vector.getElem_map]; exact PeerEntry.bounded_tick (all n))

theorem applyOldest_acts (s : State) : Acts s (applyOldest s) := by
  unfold applyOldest
  split
  next f rest queue =>
    have sub : rest.Sublist s.bus.budgetQueue := queue ▸ List.sublist_cons_self _ _
    refine .trans ?_ (judgeDue_acts _)
    refine ((updPeer_acts s f.source _ fun totals h => PeerEntry.bounded_take h totals.allowance
      (totals.queue f (queue ▸ List.mem_cons_self))).trans (dueTest_acts _)).trans
      (updBus_acts _ (fun b => { b with budgetQueue := rest }) ⟨.refl _ _, fun h => ?_, fun g mem => ?_⟩)
    · exact { h with budgetQueue := sub.length_le.trans h.budgetQueue }
    · exact .inl (sub.subset mem)
  · exact .refl

/-! ### The service unit -/

theorem awake_congr {s t : State} (startup : t.startup = s.startup) (service : t.service = s.service) :
    t.awake ↔ s.awake := by simp only [State.awake, startup, service]

theorem queueFrame_acts {level : Nat} {body : FrameBody} (plain : body.plain) (s : State) :
    Acts s (queueFrame level body s) := updBus_acts _ _ (.place _ plain)

theorem setService_acts {phase : ServicePhase} {request : Option Request} {s : State} (awake : s.awake) :
    Acts s (setService phase request s) := .single (.service s _ (.inl awake))

theorem answer_acts {r : Request} {result : Result} {data : List Byte} {s : State} (awake : s.awake) :
    Acts s (answer r result data s) :=
  (queueFrame_acts ⟨rfl, rfl⟩ s).trans (setService_acts awake)

theorem answerCage_acts {r : Request} {c : Cage} {outcome : Result × State} {s : State}
    (done : Acts s outcome.2) (awake : outcome.2.awake) : Acts s (answerCage r c outcome) :=
  done.trans (answer_acts awake)

theorem holdCage_startup (c : Cage) (s : State) : (holdCage c s).2.startup = s.startup := by
  unfold holdCage; split <;> simp

theorem unholdCage_startup (c : Cage) (s : State) : (unholdCage c s).2.startup = s.startup := by
  unfold unholdCage
  split
  · dsimp only
    split <;> simp
  · rfl

theorem retryCage_startup (c : Cage) (s : State) : (retryCage c s).2.startup = s.startup := by
  unfold retryCage; split <;> simp

theorem holdCage_service (c : Cage) (s : State) : (holdCage c s).2.service = s.service := by
  unfold holdCage; split <;> simp

theorem unholdCage_service (c : Cage) (s : State) : (unholdCage c s).2.service = s.service := by
  unfold unholdCage
  split
  · dsimp only
    split <;> simp
  · rfl

theorem retryCage_service (c : Cage) (s : State) : (retryCage c s).2.service = s.service := by
  unfold retryCage; split <;> simp

theorem clearPenaltyOf_service (c : Cage) (s : State) : (clearPenaltyOf c s).service = s.service := by
  simp

theorem clearPenaltyOf_startup (c : Cage) (s : State) : (clearPenaltyOf c s).startup = s.startup := by
  simp

theorem presentPassThrough_acts {r : Request} {t : LinkRequest} {s : State} (awake : s.awake) :
    Acts s (presentPassThrough r t s) := by
  unfold presentPassThrough
  split
  · exact (putRequest_acts _ _ _ s).trans (setService_acts awake)
  · exact answer_acts awake

theorem serveHealth_acts {r : Request} {s : State} (awake : s.awake) : Acts s (serveHealth r s) := by
  have noted : Acts s (s.updBus (BusUnit.noteError .none)) :=
    updBus_acts s _ (.of_counts rfl (fun h => { h with }) rfl)
  unfold serveHealth
  dsimp only
  split
  · exact noted.trans (answer_acts awake)
  · exact answer_acts awake

theorem serveWrite_acts {r : Request} {s : State} (awake : s.awake) : Acts s (serveWrite r s) := by
  unfold serveWrite
  dsimp only
  repeat' split
  · exact answer_acts awake
  · exact answer_acts awake
  · exact presentPassThrough_acts awake

theorem serveCeiling_acts {r : Request} {s : State} (awake : s.awake) : Acts s (serveCeiling r s) := by
  unfold serveCeiling
  exact ((updClaims_acts s _ ⟨rfl, rfl, rfl, rfl⟩).trans (dueTest_acts _)).trans (answer_acts awake)

theorem serveRestart_acts {r : Request} {s : State} (awake : s.awake) : Acts s (serveRestart r s) :=
  (answer_acts awake).tail (.service _ _ (.inl (.inr nofun)))

theorem carryOut_acts {r : Request} {s : State} (awake : s.awake) : Acts s (carryOut r s) := by
  have kept : ∀ {t : State}, t.startup = s.startup → t.service = s.service → t.awake :=
    fun a b => (awake_congr a b).2 awake
  unfold carryOut
  split
  · exact answer_acts awake
  · exact answer_acts awake
  · exact answer_acts awake
  · exact serveHealth_acts awake
  · exact answerCage_acts (holdCage_acts _ _) (kept (holdCage_startup _ _) (holdCage_service _ _))
  · exact answerCage_acts (unholdCage_acts _ _) (kept (unholdCage_startup _ _) (unholdCage_service _ _))
  · exact answerCage_acts (retryCage_acts _ _) (kept (retryCage_startup _ _) (retryCage_service _ _))
  · exact answerCage_acts (clearPenaltyOf_acts _ _)
      (kept (clearPenaltyOf_startup _ _) (clearPenaltyOf_service _ _))
  · exact serveCeiling_acts awake
  · exact presentPassThrough_acts awake
  · exact serveWrite_acts awake
  · exact serveRestart_acts awake

theorem serveRequest_acts {r : Request} {s : State} (awake : s.awake) : Acts s (serveRequest r s) := by
  unfold serveRequest
  split
  · exact answer_acts awake
  · exact carryOut_acts awake

theorem serveNext_acts {s : State} (awake : s.awake) : Acts s (serveNext s) := by
  unfold serveNext
  split
  next r rest queue =>
    refine (updBus_acts s (fun b => { b with serviceQueue := rest })
      (.of_counts rfl (fun h => { h with serviceQueue := ?_ }) rfl)).trans (serveRequest_acts awake)
    have few := h.serviceQueue
    rw [queue, List.length_cons] at few
    exact (Nat.le_succ _).trans few
  · exact .single (.service s _ (.inr rfl))

theorem acceptRequest_acts {r : Request} {s : State} (awake : s.awake) : Acts s (acceptRequest r s) := by
  unfold acceptRequest
  split
  next room =>
    have queued : Acts s (s.updBus (fun b => { b with serviceQueue := b.serviceQueue ++ [r] })) :=
      updBus_acts s _ (.of_counts rfl (fun h => { h with serviceQueue := by simpa using room }) rfl)
    dsimp only
    split
    · exact queued.trans (serveNext_acts awake)
    · exact queued
  · exact updBus_acts s _ (.of_counts rfl (fun h => { h with serviceOverflow := satAdd_le _ _ _ }) rfl)

theorem checkRequest_acts {source : Station} {r : Request} {s : State} (awake : s.awake) :
    Acts s (checkRequest source r s) := by
  unfold checkRequest
  split
  · exact acceptRequest_acts awake
  · exact updBus_acts s _ (.of_counts rfl (fun h => { h with denied := satAdd_le _ _ _ }) rfl)

theorem passOutcome_acts (outcome : LinkOutcome) (s : State) : Acts s (passOutcome outcome s) := by
  unfold passOutcome
  split
  next phase _ => exact answer_acts (.inr (by rw [phase]; nofun))
  · exact .refl

/-! ### The arbiters' outcomes -/

theorem deliver_acts (s : State) (e : Ended) : Acts s (deliver s e) := by
  unfold deliver
  split
  · exact crsOutcome_acts _ _ _ _ _
  · exact passOutcome_acts _ _
  · exact scanOutcome_acts _ _ _

theorem deliverAll_acts {s : State} {r : State × List Ended} (ended : Acts s r.1) :
    Acts s (deliverAll r) :=
  ended.trans (foldl_acts deliver_acts _ _)

theorem endRequest_acts (g : Seg) (k : Chunk) (state : LinkState) (deselect : Bool)
    (outcome : LinkOutcome) (s : State) : Acts s (endRequest g k state deselect outcome s).1 := by
  unfold endRequest
  dsimp only
  split <;> exact updLink_acts _ _ _

theorem chunkCompletes_acts (g : Seg) (k : Chunk) (data : List Byte) (s : State) :
    Acts s (chunkCompletes g k data s).1 := by
  unfold chunkCompletes
  split
  · dsimp only
    split
    · exact endRequest_acts _ _ _ _ _ _
    · exact updLink_acts _ _ _
  · exact updLink_acts _ _ _

theorem tryCompletes_acts (g : Seg) (data : List Byte) (s : State) :
    Acts s (tryCompletes g data s).1 := by
  unfold tryCompletes
  repeat' split
  · exact chunkCompletes_acts _ _ _ _
  · exact endRequest_acts _ _ _ _ _ _
  · exact .refl

theorem tryFails_acts (g : Seg) (s : State) : Acts s (tryFails g s).1 := by
  unfold tryFails
  repeat' split
  · exact endRequest_acts _ _ _ _ _ _
  · exact updLink_acts _ _ _
  · exact endRequest_acts _ _ _ _ _ _
  · exact .refl

theorem stretchEnds_acts (g : Seg) (s : State) : Acts s (stretchEnds g s).1 := by
  unfold stretchEnds
  split
  · exact endRequest_acts _ _ _ _ _ _
  · exact .refl

theorem boundary_acts (g : Seg) (s : State) : Acts s (boundary g s) := by
  unfold boundary
  split
  · exact deliverAll_acts (endRequest_acts _ _ _ _ _ _)
  · exact .refl

theorem answerAbsent_acts (g : Seg) (slots : List Slot) (s : State) :
    Acts s (answerAbsent g slots s).1 := by
  induction slots generalizing s with
  | nil => exact .refl
  | cons slot slots ih =>
    have rest := (clearSlot_acts g slot s).trans (ih (clearSlot g slot s))
    unfold answerAbsent
    dsimp only
    split <;> exact rest

theorem linkRemoval_acts (c : Cage) (moment : RemovalMoment) (s : State) :
    Acts s (linkRemoval c moment s).1 := by
  have moved : ∀ (g : Seg) (f : Link → Link) (slots : List Slot),
      Acts s (answerAbsent g slots (s.updLink g f)).1 :=
    fun g f slots => (updLink_acts s g f).trans (answerAbsent_acts _ _ _)
  unfold linkRemoval
  dsimp only
  split
  · split
    · exact moved _ _ _
    · split
      · exact moved _ _ _
      · split
        · exact moved _ _ _
        · split <;> exact moved _ _ _
  · split
    · exact answerAbsent_acts _ _ _
    · exact moved _ _ _
  · exact moved _ _ _
  · exact answerAbsent_acts _ _ _

/-! ### The lines -/

theorem updLines_acts (s : State) (c : Cage) (f : CageLines → CageLines)
    (filtered : (s.line c).filtered → (f (s.line c)).filtered)
    (same : (f (s.line c)).named = (s.line c).named ∧ (f (s.line c)).latched = (s.line c).latched ∧
      (f (s.line c)).source = (s.line c).source) : Acts s (s.updLines c f) :=
  .single (.lines s c f filtered same.1 same.2.1 (.inl same.2.2))

theorem filtered_presentChange {l : CageLines} (level : Bool) (h : l.filtered) :
    (l.presentChange level).filtered := by
  refine ⟨?_, h.2⟩
  simp only [CageLines.presentChange]
  split
  next same => simp [same]
  next away => split <;> simpa using away

theorem filtered_linkChange {l : CageLines} (level : Bool) (h : l.filtered) :
    (l.linkChange level).filtered := by
  refine ⟨h.1, ?_⟩
  simp only [CageLines.linkChange]
  split
  next same => simp [same]
  next away => split <;> simpa using away

theorem takePresent_acts (c : Cage) (moment : RemovalMoment) (s : State) :
    Acts s (takePresent c moment s) := by
  have taken : Acts s (s.updLines c CageLines.presentTaken) :=
    updLines_acts s c _ (fun h => ⟨by simp [CageLines.presentTaken], h.2⟩) ⟨rfl, rfl, rfl⟩
  unfold takePresent
  dsimp only
  split
  · exact taken.trans (presentAsserted_acts _ _)
  · exact taken.trans ((deliverAll_acts (linkRemoval_acts _ _ _)).trans (presentDeasserted_acts _ _))

theorem takeLink_acts (c : Cage) (s : State) : Acts s (takeLink c s) := by
  have taken : Acts s (s.updLines c CageLines.linkTaken) :=
    updLines_acts s c _ (fun h => ⟨h.1, by simp [CageLines.linkTaken]⟩) ⟨rfl, rfl, rfl⟩
  unfold takeLink
  dsimp only
  split
  · exact taken.trans (linkAsserted_acts _ _)
  · exact taken.trans (linkDeasserted_acts _ _)

/-! ### The bus interface -/

theorem nextFrame_waiting {s : State} {i : Nat} {f : TxFrame} (next : s.nextFrame = some i)
    (at_ : s.bus.txQueue[i]? = some f) : f.mark = .waiting := by
  unfold State.nextFrame at next
  split at next
  · cases next
  next none =>
    by_contra marked
    have mem := List.mem_of_getElem? at_
    exact absurd (List.findIdx?_eq_none_iff.1 none f mem) (by simpa using marked)

/-- A frame under attempt stands for the one that waited: its content alone is another, where it is a STATUS. -/
theorem TxFrame.follows_begin (p : Nat) (content : StatusContent) {f : TxFrame} (waiting : f.mark = .waiting) :
    TxFrame.Follows p f (f.begin content) := by
  obtain ⟨level, body, mark, follow⟩ := f
  cases waiting
  cases body with
  | status k => exact ⟨by simp [TxFrame.begin], rfl, rfl, fun a release => nomatch release⟩
  | _ => exact ⟨by simp [TxFrame.begin], rfl, rfl, fun a release => .inr release⟩

theorem beginAttempt_acts (s : State) : Acts s (beginAttempt s) := by
  unfold beginAttempt
  split
  next i next =>
    exact updBus_acts s _ (.of_queue
      (.modify fun f at_ => TxFrame.follows_begin _ _ (nextFrame_waiting next at_)) (fun h => { h with }) rfl)
  · exact .refl

theorem underAttempt_getElem {s : State} {i : Nat} {f : TxFrame} (h : s.underAttempt = some (i, f)) :
    s.bus.txQueue[i]? = some f := by
  unfold State.underAttempt at h
  split at h
  next j _ =>
    obtain ⟨g, at_, same⟩ := Option.map_eq_some_iff.1 h
    cases same
    exact at_
  · cases h

/-- What is renewed after a good receipt is one frame at most, which answers and releases nothing. -/
theorem renewal_cases (renew : Bool) (f : TxFrame) :
    renewal renew f = [] ∨ ∃ g, renewal renew f = [g] ∧ g.body.plain := by
  unfold renewal
  split
  · split
    · exact .inr ⟨_, rfl, rfl, rfl⟩
    · exact .inl rfl
  · exact .inr ⟨_, rfl, rfl, rfl⟩
  · exact .inl rfl

theorem QueueKept.sent {p i : Nat} {f : TxFrame} {q : List TxFrame} (renew : Bool) (at_ : q[i]? = some f) :
    QueueKept p q (q.eraseIdx i ++ renewal renew f) := by
  have sub : QueueKept p q (q.eraseIdx i) := .of_sublist (List.eraseIdx_sublist _ _)
  have lt : i < q.length := (List.getElem?_eq_some_iff.1 at_).1
  rcases renewal_cases renew f with none | ⟨g, one, plain⟩
  · rw [none, List.append_nil]; exact sub
  · rw [one]
    have shorter : (q.eraseIdx i).length + 1 = q.length := by
      rw [List.length_eraseIdx_of_lt lt]; omega
    exact {
      length := fun le => by simpa [shorter] using le
      answers := by simpa [answersOf, plain.1] using sub.answers
      releases := by simpa [releasesOf, plain.2] using sub.releases
      amounts := fun x mem own a body => by
        rcases List.mem_append.1 mem with mem | mem
        · exact sub.amounts x mem own a body
        · cases List.mem_singleton.1 mem
          simp [FrameBody.plain, body, FrameBody.isRelease] at plain }

theorem counted_txGood {b : BusUnit} (h : b.counted) : b.txGood.counted := by
  unfold BusUnit.txGood
  split
  · exact { h with txErrors := (Nat.sub_le _ _).trans h.txErrors }
  · exact h

theorem BusUnit.txGood_queues (b : BusUnit) :
    b.txGood.txQueue = b.txQueue ∧ b.txGood.budgetQueue = b.budgetQueue := by
  unfold BusUnit.txGood; split <;> exact ⟨rfl, rfl⟩

theorem BusKept.sent {p i : Nat} {f : TxFrame} {b : BusUnit} (at_ : b.txQueue[i]? = some f) :
    BusKept p b (b.sent i f).txGood := by
  obtain ⟨queue, budget⟩ := (b.sent i f).txGood_queues
  exact .of_queue (queue ▸ .sent b.statusRenew at_) (fun h => counted_txGood { h with }) budget

/-- A frame of the part's own that waits again stands for the one under attempt. -/
theorem TxFrame.follows_again (pending : Nat) {f : TxFrame} (own : f.mark ≠ .detached) :
    TxFrame.Follows pending f (f.again pending) := by
  unfold TxFrame.again
  split
  next a body =>
    exact ⟨by simp [own], by simp [body, FrameBody.answerTag], by simp [body, FrameBody.isRelease],
      fun b release => .inl (by cases release; exact le_rfl)⟩
  next r k body follow =>
    exact ⟨by simp [own], by simp [body, FrameBody.answerTag], by simp [body, FrameBody.isRelease],
      fun b release => nomatch release⟩
  · exact ⟨by simp [own], rfl, rfl, fun b release => .inr release⟩

theorem BusKept.kept {i : Nat} {f : TxFrame} {b : BusUnit} (pending : Nat) (at_ : b.txQueue[i]? = some f)
    (own : f.mark ≠ .detached) : BusKept pending b (b.kept pending i f) :=
  .of_queue (.modify fun x found => by
    cases at_.symm.trans found
    exact TxFrame.follows_again pending own) (fun h => { h with }) rfl

theorem remove_acts (i : Nat) (s : State) : Acts s (s.updBus (BusUnit.remove i)) :=
  updBus_acts s _ (.of_queue (.of_sublist (List.eraseIdx_sublist _ _)) (fun h => { h with }) rfl)

theorem noteError_acts (e : BusError) (s : State) : Acts s (s.updBus (BusUnit.noteError e)) :=
  updBus_acts s _ (.of_counts rfl (fun h => { h with }) rfl)

theorem txFailed_acts (s : State) : Acts s (s.updBus BusUnit.txFailed) := by
  refine updBus_acts s _ ?_
  unfold BusUnit.txFailed
  split
  · exact .of_counts rfl (fun h => { h with txErrors := satAdd_le _ _ _ }) rfl
  · exact .of_counts rfl id rfl

theorem rxFailed_acts (s : State) : Acts s (s.updBus BusUnit.rxFailed) := by
  refine updBus_acts s _ ?_
  unfold BusUnit.rxFailed
  split
  · exact .of_counts rfl (fun h => { h with rxErrors := satAdd_le _ _ _ }) rfl
  · exact .of_counts rfl id rfl

theorem rxGood_acts (s : State) : Acts s (s.updBus BusUnit.rxGood) := by
  refine updBus_acts s _ ?_
  unfold BusUnit.rxGood
  split
  · exact .of_counts rfl (fun h => { h with rxErrors := (Nat.sub_le _ _).trans h.rxErrors }) rfl
  · exact .of_counts rfl id rfl

theorem reportKept_acts (body : FrameBody) (s : State) : Acts s (reportKept body s) := by
  unfold reportKept
  repeat' split
  next found _ => exact .single (.cancel s _ (intentOf_mem found))
  all_goals exact .refl

theorem attemptLost_acts (s : State) : Acts s (attemptLost s) := by
  unfold attemptLost
  split
  next i f attempt =>
    split
    · exact remove_acts _ _
    next own =>
      exact (updBus_acts s _ (.kept _ (underAttempt_getElem attempt) own)).trans (reportKept_acts _ _)
  · exact .refl

theorem attemptFailed_acts (e : TxError) (s : State) : Acts s (attemptFailed e s) := by
  unfold attemptFailed
  split
  next i f attempt =>
    refine (noteError_acts (txBusError e) s).trans ?_
    dsimp only
    split
    · exact remove_acts _ _
    next own =>
      exact (((updBus_acts (s.updBus (BusUnit.noteError (txBusError e))) _
        (.kept _ (underAttempt_getElem attempt) own)).trans
        (reportKept_acts f.body _)).trans (txFailed_acts _)).trans (judgeHealth_acts _)
  · exact .refl

theorem receptionFailed_acts (e : RxError) (s : State) : Acts s (receptionFailed e s) :=
  ((noteError_acts _ s).trans (rxFailed_acts _)).trans (judgeHealth_acts _)

theorem takeBudgetFrame_acts {f : Frame} (within : f.announcesWithin) (s : State) :
    Acts s (takeBudgetFrame f s) := by
  unfold takeBudgetFrame
  split
  next room =>
    refine updBus_acts s _ ⟨.refl _ _, fun h => { h with budgetQueue := by simpa using room }, ?_⟩
    intro g mem
    rcases List.mem_append.1 mem with mem | mem
    · exact .inl mem
    · exact .inr (List.mem_singleton.1 mem ▸ within)
  · exact (updBus_acts s _ (.of_counts rfl (fun h => { h with budgetLoss := satAdd_le _ _ _ })
      rfl)).trans (enterBlind_acts _)

theorem routeFrame_acts {f : Frame} {s : State} (within : f.announcesWithin) (awake : s.awake) :
    Acts s (routeFrame f s) := by
  unfold routeFrame
  split
  · exact .refl
  · split
    · exact takeBudgetFrame_acts within s
    · exact takeBudgetFrame_acts within s
    · exact takeBudgetFrame_acts within s
    · exact takeBudgetFrame_acts within s
    · exact takeBudgetFrame_acts within s
    · split
      · exact checkRequest_acts awake
      · exact .refl
    · exact .refl
    · exact .refl

/-- A STATUS that passes the content check announces at most 65520 (R80). -/
theorem contentOf_status {kind : Nat} {payload : List Byte} {k : StatusContent}
    (h : contentOf kind payload = some (.status k)) : k.total ≤ 65520 := by
  unfold contentOf at h
  split at h
  all_goals simp only [Option.bind_eq_bind, Option.bind_eq_some_iff, Option.pure_def, Option.some.injEq,
    FrameBody.status.injEq, reduceCtorEq, and_false, exists_false, Option.ite_none_right_eq_some] at h
  obtain ⟨_, _, _, _, _, _, _, _, ⟨le, _⟩, rfl⟩ := h
  exact le

theorem decodeFrame_within {first : Bool} {raw : RawFrame} {f : Frame}
    (h : decodeFrame first raw = .ok f) : f.announcesWithin := by
  intro k body
  unfold decodeFrame at h
  split at h
  · cases h
  · dsimp only at h
    split at h
    next b content =>
      split at h
      · cases h
        split at content
        · exact contentOf_status (by rw [content]; exact congrArg some body)
        · cases content
      · cases h
    · split at h
      · cases h
      · cases h

theorem abandonIntent_unit (e : OwnIntent) (s : State) :
    (abandonIntent e s).startup = s.startup ∧ (abandonIntent e s).service = s.service := by simp

theorem abandonAll_unit (s : State) :
    (abandonAll s).startup = s.startup ∧ (abandonAll s).service = s.service :=
  ⟨foldl_keeps State.startup _ (fun s e => (abandonIntent_unit e s).1) _ _,
    foldl_keeps State.service _ (fun s e => (abandonIntent_unit e s).2) _ _⟩

theorem judgeHealth_unit (s : State) :
    (judgeHealth s).startup = s.startup ∧ (judgeHealth s).service = s.service := by
  unfold judgeHealth healthReport
  repeat' split
  · exact ⟨rfl, rfl⟩
  · exact abandonAll_unit _
  all_goals exact ⟨rfl, rfl⟩

theorem awake_judgeHealth {s : State} (h : s.awake) : (judgeHealth s).awake :=
  (awake_congr (judgeHealth_unit s).1 (judgeHealth_unit s).2).2 h

theorem receive_acts {raw : RawFrame} {s : State} (awake : s.awake) : Acts s (receive raw s) := by
  unfold receive
  split
  next f decoded =>
    exact ((rxGood_acts s).trans (judgeHealth_acts _)).trans
      (routeFrame_acts (decodeFrame_within decoded) (awake_judgeHealth awake))
  · exact receptionFailed_acts _ _

theorem endRecovery_acts (s : State) : Acts s (endRecovery s) :=
  (updBus_acts s _ (.of_counts rfl (fun h => { h with
    txErrors := Nat.zero_le _, rxErrors := Nat.zero_le _, gapCount := le_rfl }) rfl)).trans
    (dueTest_acts _)

theorem beginRecovery_acts (s : State) : Acts s (beginRecovery s) :=
  updBus_acts s _ (.of_counts rfl (fun h => { h with gapCount := Nat.zero_le _ }) rfl)

theorem countGap_acts (s : State) : Acts s (countGap s) := by
  unfold countGap
  split
  · exact endRecovery_acts s
  next few =>
    exact updBus_acts s _ (.of_counts rfl (fun h => { h with
      gapCount := show s.bus.gapCount + 1 ≤ 48 by omega }) rfl)

/-! ### The start-up block -/

theorem updStartup_acts (s : State) (f : Startup → Startup)
    (same : (f s.startup).resetHeld = s.startup.resetHeld ∧ (f s.startup).settings = s.startup.settings ∧
      (f s.startup).profile = s.startup.profile ∧ (f s.startup).loadPhase = s.startup.loadPhase ∧
      (f s.startup).runState = s.startup.runState) : Acts s (s.updStartup f) := by
  obtain ⟨held, settings, profile, phase, run⟩ := same
  exact .single (.startup s _ held settings profile (by rw [phase]) (.inl run))

theorem liftHeld_acts (s : State) (c : Cage) : Acts s (liftHeld s c) := by
  unfold liftHeld
  split
  next held =>
    have lifted : Acts s (s.updLines c CageLines.lift) := by
      refine .single (.lines s c _ (fun h => ?_) ?_ ?_ ?_)
      all_goals unfold CageLines.lift
      · split <;> exact h
      · split <;> rfl
      · split <;> rfl
      · split
        next named => exact .inr ⟨held, by rw [named]; rfl⟩
        · exact .inl rfl
    dsimp only
    split
    · exact lifted.trans (sequencerReport_acts _ _)
    · exact lifted
  · exact .refl

theorem endListening_acts {s : State} (listening : s.startup.runState = .listening) :
    Acts s (endListening s) := by
  have running : Acts s (s.updStartup (fun u => { u with runState := .running, listenTicks := 2 })) :=
    .single (.startup s _ rfl rfl rfl Iff.rfl (.inr (by rw [listening]; exact ⟨nofun, nofun⟩)))
  unfold endListening
  dsimp only
  exact (running.trans (foldl_acts liftHeld_acts allCages _)).trans (dueTest_acts _)

theorem listenTick_acts (s : State) : Acts s (listenTick s) := by
  unfold listenTick
  split
  next listening =>
    split
    · exact endListening_acts listening
    · exact updStartup_acts s (fun u => { u with listenTicks := u.listenTicks + 1 }) ⟨rfl, rfl, rfl, rfl, rfl⟩
  · exact .refl

theorem announce_acts (s : State) : Acts s (announce s) := by
  have status : BusKept s.claims.releasePending s.bus s.bus.tickStatus := by
    unfold BusUnit.tickStatus
    repeat' split
    · exact .of_counts rfl id rfl
    · exact .of_counts rfl (fun h => { h with }) rfl
    · exact .place _ ⟨rfl, rfl⟩
  have ticked : Acts s (s.updBus (fun b => { b.tickStatus with announce := some s.conf.announce })) :=
    updBus_acts s _ (status.trans (.of_counts rfl (fun h => { h with }) rfl))
  exact ((ticked.trans (tickPeers_acts _)).trans (dueTest_acts _)).trans (listenTick_acts _)

theorem readEnds_acts {image : List Byte} {s : State} (free : s.startup.resetHeld = false)
    (selected : s.memorySelected = true) : Acts s (readEnds image s) := by
  have loading : s.startup.loadPhase ≠ .done := fun done => by
    simp [State.memorySelected, State.spiRead, done] at selected
  unfold readEnds
  split
  · refine .single (.load s _ free loading ?_ (clampNat_le (by decide) _))
    rw [(imageSettings_fromImage image).budget]
    exact Nat.le_of_lt_succ (imageAtPair_lt image 4)
  · split
    next phase => exact .single (.startup s _ rfl rfl rfl (by rw [phase]; simp) (.inl rfl))
    · exact .single (.load s _ free loading (profileSettings_budget_le _) (profileSettings_allowance_le _))
    · exact .refl
    · exact .refl

theorem examineCage_acts {c : Cage} {s : State}
    (few : (s.cage c).state = .adopt → (s.cage c).identReads < 3) : Acts s (examineCage s c) := by
  unfold examineCage
  split
  next state => exact examineAdopted_acts state (few state)
  · exact .refl

theorem readIdentity_onlyCage (c : Cage) (s : State) : OnlyCage c s (readIdentity c s) :=
  (updCage_onlyCage c _ s).trans (updCage_onlyCage c _ _)

theorem enterIdentify_onlyCage (c : Cage) (s : State) : OnlyCage c s (enterIdentify c s) :=
  (moveCage_onlyCage c _ _ s).trans (updCage_onlyCage c _ _)

theorem examineCage_onlyCage (c : Cage) (s : State) : OnlyCage c s (examineCage s c) := by
  unfold examineCage examineAdopted handAdopted
  repeat' split
  · exact (handRecord_onlyCage c _ _ _ s).trans (moveCage_onlyCage c _ _ _)
  · exact (handRecord_onlyCage c _ _ _ s).trans (enterIdentify_onlyCage c _)
  · exact readIdentity_onlyCage c s
  · exact .refl c s

theorem examineAll_acts {cs : List Cage} (distinct : cs.Nodup) {s : State}
    (few : ∀ c ∈ cs, (s.cage c).identReads < 3) : Acts s (cs.foldl examineCage s) := by
  induction cs generalizing s with
  | nil => exact .refl
  | cons c cs ih =>
    obtain ⟨new, distinct⟩ := List.nodup_cons.1 distinct
    refine (examineCage_acts fun _ => few c List.mem_cons_self).trans (ih distinct fun d mem => ?_)
    rw [(examineCage_onlyCage c s).cages d (fun same => new (same ▸ mem))]
    exact few d (List.mem_cons_of_mem _ mem)

theorem cage_clearBlocks (clocks : ClockHold) (s : State) (c : Cage) :
    (clearBlocks clocks s).cage c = (s.cage c).atRestart (s.cageConf c).enabled := by
  simp [State.cage, clearBlocks]

theorem openOrder_nodup (s : State) : (s.openOrder allCages).Nodup :=
  (openOrder_perm s allCages).nodup_iff.2 (List.nodup_finRange 16)

theorem takeRestart_acts {clocks : ClockHold} {s : State} (awake : s.awake) :
    Acts s (takeRestart clocks s) := by
  unfold takeRestart
  refine .head (.restart s clocks awake) (examineAll_acts (openOrder_nodup s) fun c _ => ?_)
  rw [cage_clearBlocks]
  exact Nat.zero_lt_succ _

theorem replySent_acts (clocks : ClockHold) (s : State) : Acts s (replySent clocks s) := by
  unfold replySent
  split
  next phase => exact serveNext_acts (.inr (by rw [phase]; nofun))
  next phase => exact takeRestart_acts (.inr (by rw [phase]; nofun))
  · exact .refl
  · exact .refl

theorem attemptSent_acts (clocks : ClockHold) (s : State) : Acts s (attemptSent clocks s) := by
  unfold attemptSent
  split
  next i f attempt =>
    split
    · exact remove_acts _ _
    next own =>
      have left : Acts s (judgeHealth (s.updBus (fun b => (b.sent i f).txGood))) :=
        (updBus_acts s _ (.sent (underAttempt_getElem attempt))).trans (judgeHealth_acts _)
      unfold reportSent
      split
      · split
        next found => exact left.tail (.opens _ _ (intentOf_mem found))
        · exact left
      · exact left.trans (dueTest_acts _)
      · exact left.trans (dueTest_acts _)
      next amount body => exact .single (.release s i f amount attempt own body)
      · exact left.trans (replySent_acts _ _)
      · exact left
      · exact left
      · exact left
  · exact .refl

theorem decay_acts (s : State) : Acts s (decay s) := by
  have step : ∀ (shift p : Nat), decayStep shift p ≤ p := fun shift p => by
    unfold decayStep
    split
    · exact Nat.zero_le _
    · exact Nat.sub_le _ _
  have lowered : Acts s (decayPenalties s) := .single (.penalties s _ fun all c => by
    rw [Fin.getElem_fin, Vector.getElem_map]
    refine ⟨(step _ _).trans (all c).1, fun m stored => ?_⟩
    obtain ⟨n, record, rfl⟩ := Option.map_eq_some_iff.1 stored
    exact (all c).2 n record)
  have timed : ∀ (u : State) (n : Timer),
      Acts u { u with penalties := { u.penalties with decay := n } } := fun u n =>
    .single (.penalties u _ fun all => all)
  unfold decay
  dsimp only
  exact (lowered.trans (timed _ _)).trans (foldl_acts (fun s c => takeReuse_acts c s) _ _)

/-! ### Every event -/

theorem endAdopting_acts (s : State) : Acts s (endAdopting s) := by
  unfold endAdopting
  split
  next h =>
    obtain ⟨adopting, none⟩ := h
    refine .single (.startup s _ rfl rfl rfl Iff.rfl (.inr ⟨by rw [adopting]; nofun, fun _ c state => ?_⟩))
    simp only [State.anyAdopt, List.any_eq_false, decide_eq_true_eq] at none
    exact none c (mem_allCages c) state
  · exact .refl

theorem finish_acts (s : State) : Acts s (finish s) := by
  have handed : Acts s (allCages.foldl pumpCage (endAdopting s)) :=
    (endAdopting_acts s).trans (foldl_acts pumpCage_acts allCages _)
  unfold finish
  dsimp only
  exact ((((handed.trans (startSlot_acts 0 _)).trans (startSlot_acts 1 _)).trans
    (grantSegment_acts 0 _)).trans (grantSegment_acts 1 _)).trans (runDueTest_acts _)

end Sys2Proof.Machine
end

section
/-! PROOF. Every event is made of acts, and so an invariant of the acts is one of every command. -/

namespace Sys2Proof.Machine

theorem awake_of_onBus {s : State} (h : s.onBus = true) : s.awake := .inl (by simpa [State.onBus] using h)

theorem CageState.ne_disabled_of_settling {st : CageState} (h : st.settling = true) : st ≠ .disabled := by
  rintro rfl; cases h

theorem updClaim_acts (s : State) (c : Cage) (f : Claim → Claim)
    (same : (f (s.claim c)).state = (s.claim c).state ∧ (f (s.claim c)).draw = (s.claim c).draw ∧
      (f (s.claim c)).listed = (s.claim c).listed) : Acts s (s.updClaim c f) :=
  .single (.claim s c f same.1 same.2.1 same.2.2)

theorem beginRead_acts {s : State} (phase : s.startup.loadPhase = .startDelay) : Acts s (beginRead s) := by
  unfold beginRead
  exact .single (.startup s _ rfl rfl rfl (by rw [phase]; simp) (.inl rfl))

theorem timerEvent_acts {i : Instr} {s : State} {e : Event} (h : s.timerEvent i = some e)
    (occurs : e.occurs = true) : Acts s (e.effect s) := by
  cases i <;> cases h <;> simp only [Bool.and_eq_true, decide_eq_true_eq] at occurs
  case debounceTimerExpiry c => exact debounceEnds_acts (by simp [occurs.1])
  case initWaitExpiry c => exact initWaitsEnd_acts _ _
  case pollTimerExpiry c => exact pollDue_acts occurs.1
  case readyTimerExpiry c => exact enterFaulted_acts (by simp [occurs.1]) (by simp)
  case settleTimerExpiry c =>
    exact enterFaulted_acts (CageState.ne_disabled_of_settling occurs.1) (by simp)
  case trainTimerExpiry c => exact trainEnds_acts occurs.1
  case verifyTimerExpiry c => exact verifyEnds_acts occurs.1

theorem linkEvent_acts {i : Instr} {s : State} {e : Event} (h : s.linkEvent i = some e) :
    Acts s (e.effect s) := by
  cases i <;> cases h
  case chunkDone g data => exact deliverAll_acts (tryCompletes_acts _ _ _)
  case chunkNak g => exact deliverAll_acts (tryFails_acts _ _)
  case retryTimerExpiry g => exact updLink_acts _ _ _
  case stretchTimeout g => exact deliverAll_acts (stretchEnds_acts _ _)
  case recoverySequenceEnd g => exact updLink_acts _ _ _
  case removalByteBoundary g => exact boundary_acts _ _
  case slotTimerExpiry g => exact updScanner_acts _ _ _
  case restartChunkByteBoundary g => exact boundary_acts _ _

theorem busEvent_acts {i : Instr} {s : State} {e : Event} (h : s.busEvent i = some e)
    (occurs : e.occurs = true) : Acts s (e.effect s) := by
  cases i <;> cases h <;> simp only [Bool.and_eq_true, decide_eq_true_eq] at occurs
  case txAttemptStart => exact beginAttempt_acts _
  case goodReceipt clocks => exact attemptSent_acts _ _
  case lostArbitration => exact attemptLost_acts _
  case transmitError e => exact attemptFailed_acts _ _
  case receiveError e => exact receptionFailed_acts _ _
  case goodReception frame => exact receive_acts (awake_of_onBus occurs)
  case busSeenIdle => exact beginRecovery_acts _
  case recoveryGap => exact countGap_acts _
  case recoveryGapCountReached => exact endRecovery_acts _
  case announceTick => exact announce_acts _
  case listenIntervalEnd => exact endListening_acts occurs.1

theorem budgetEvent_acts {i : Instr} {s : State} {e : Event} (h : s.budgetEvent i = some e) :
    Acts s (e.effect s) := by
  cases i <;> cases h
  case peerEntryAged n =>
    exact (updPeer_acts s n _ fun _ h => PeerEntry.bounded_tick h).trans (dueTest_acts _)
  case peerIntentPromotion n tag =>
    exact updPeer_acts s n _ fun _ h => PeerEntry.bounded_promote tag h
  case windowDeadline tag =>
    dsimp only
    split
    next e found => exact windowEnds_acts (intentOf_mem (Option.eq_some_of_filter_eq_some found))
    · exact .refl
  case backoffExpiry c =>
    dsimp only
    exact (updClaim_acts s c (fun k => { k with backoff := none }) ⟨rfl, rfl, rfl⟩).trans (dueTest_acts _)
  case blindTimerExpiry => 
    dsimp only
    exact (updClaims_acts s (fun k => { k with blind := false, blindTimer := none })
      ⟨rfl, rfl, rfl, rfl⟩).trans (dueTest_acts _)
  case decayTick =>
    dsimp only
    exact decay_acts s
  all_goals exact applyOldest_acts s

theorem rowEvent_acts {i : Instr} {s : State} {e : Event}
    (h : (s.timerEvent i).or ((s.linkEvent i).or ((s.busEvent i).or ((s.budgetEvent i).or
      ((servedRequest i).map (fun r => ⟨s.onBus, acceptRequest r⟩))))) = some e)
    (occurs : e.occurs = true) : Acts s (e.effect s) := by
  rcases Option.or_eq_some_iff.1 h with h | ⟨_, h⟩
  · exact timerEvent_acts h occurs
  rcases Option.or_eq_some_iff.1 h with h | ⟨_, h⟩
  · exact linkEvent_acts h
  rcases Option.or_eq_some_iff.1 h with h | ⟨_, h⟩
  · exact busEvent_acts h occurs
  rcases Option.or_eq_some_iff.1 h with h | ⟨_, h⟩
  · exact budgetEvent_acts h
  · obtain ⟨r, _, rfl⟩ := Option.map_eq_some_iff.1 h
    exact acceptRequest_acts (awake_of_onBus occurs)

/-- The effect of an event that occurs is made of acts. -/
theorem event_acts {i : Instr} {s : State} {e : Event} (free : s.startup.resetHeld = false)
    (h : s.event i = some e) (occurs : e.occurs = true) : Acts s (e.effect s) := by
  have row := rowEvent_acts (i := i) (s := s) (e := e)
  cases i with
  | powerOnReset | pinReset | resetRelease => cases h
  | stationTimeTick =>
    cases h
    exact updStartup_acts s (fun u => { u with stationTime := u.stationTime + 1 })
        ⟨rfl, rfl, rfl, rfl, rfl⟩
  | startDelayExpiry =>
    cases h
    simp only [Bool.and_eq_true, decide_eq_true_eq] at occurs
    exact beginRead_acts (s := s) occurs.1
  | spiReadEnd image => cases h; exact readEnds_acts free occurs
  | presentRawChange c level =>
    cases h; exact updLines_acts s c _ (filtered_presentChange level) ⟨rfl, rfl, rfl⟩
  | presentHoldExpiry c moment => cases h; exact takePresent_acts _ _ _
  | linkUpRawChange c level =>
    cases h; exact updLines_acts s c _ (filtered_linkChange level) ⟨rfl, rfl, rfl⟩
  | linkUpHoldExpiry c => cases h; exact takeLink_acts _ _
  | alertEdge c =>
    cases h
    exact (updLines_acts s c (fun l => { l with alert := true }) id ⟨rfl, rfl, rfl⟩).trans
      (takeAlert_acts c (s.updLines c (fun l => { l with alert := true })))
  | currentSenseConversion code => cases h; exact takeConversion_acts _ _
  | restartTimerExpiry clocks =>
    cases h
    simp only [Bool.and_eq_true, decide_eq_true_eq] at occurs
    dsimp only
    exact takeRestart_acts (.inr (by rw [occurs.1]; nofun))
  | alertDeassertion c =>
    cases h; exact updLines_acts s c (fun l => { l with alert := false }) id ⟨rfl, rfl, rfl⟩
  | _ => exact row h occurs

/-! ### Invariants -/

theorem acts_keep {P : State → Prop} (act : ∀ s t, Act s t → P s → P t) {s t : State} (acts : Acts s t)
    (h : P s) : P t := by
  induction acts with
  | refl => exact h
  | tail _ one ih => exact act _ _ one ih

/-- What the acts, the answers without an event, and the choices keep, every command keeps. -/
theorem exec_keeps {P : State → Prop} (act : ∀ s t, Act s t → P s → P t)
    (unheard : ∀ s t, Unheard s t → P s → P t) (choice : ∀ s, P s → P s.nextChoice)
    {i : Instr} {s t : State} (next : exec i s = .next t) (h : P s) : P t := by
  rcases exec_answers next with answer | ⟨free, e, event, occurs, rfl⟩
  · exact unheard s t answer h
  · exact choice _ (acts_keep act ((event_acts free event occurs).trans (finish_acts _)) h)

/-- What every command keeps, and the ms that passes, every step keeps. -/
theorem step_keeps {P : State → Prop} (act : ∀ s t, Act s t → P s → P t)
    (unheard : ∀ s t, Unheard s t → P s → P t) (choice : ∀ s, P s → P s.nextChoice)
    (time : ∀ s, s.startup.resetHeld = false → P s → P (passTime s))
    (queue : ∀ (s : State) (rest : List Instr), P s → P { s with pending := rest })
    {s t : State} (next : step s = .next t) (h : P s) : P t := by
  unfold step at next
  split at next
  next i rest _ => exact exec_keeps act unheard choice next (queue s rest h)
  next none =>
    cases next
    unfold idle
    split
    · exact h
    next free => exact choice _ (time s (by simpa using free) h)

end Sys2Proof.Machine
end

section
/-! PROOF. What the acts do to the cages' records and lines, and the two invariants of them: each cage's drive
state (R1, R156 to R158) and each cage's record and filters (R7, R9, R11, R152, R153). -/

namespace Sys2Proof.Machine

/-! ### One cage's record and lines -/

/-- What a change of one cage's record and lines keeps: every other cage, the parameter set, and the cage's own
rules.  The cage stays in its state under its source, or enters one whose source is named. -/
structure CageMoved (c : Cage) (s t : State) : Prop where
  others   : ∀ d, d ≠ c → t.cage d = s.cage d ∧ t.line d = s.line d
  held     : t.startup.resetHeld = s.startup.resetHeld
  conf     : t.conf = s.conf
  filtered : (s.line c).filtered → (t.line c).filtered
  source   : ((t.cage c).state = (s.cage c).state ∧ (t.line c).named = (s.line c).named ∧
      (t.line c).latched = (s.line c).latched ∧ ((t.line c).source = (s.line c).source ∨
        (s.line c).source = .held ∧ (s.line c).named.map NamedSource.source = some (t.line c).source)) ∨
    ∃ n, (t.cage c).state.names = some n ∧ t.line c = (s.line c).take n ∧
      (s.cageConf c).enabled = (t.cageConf c).enabled ∧ (s.cage c).state ≠ .disabled

/-- What an act leaves of the cages and their lines. -/
structure CagesSame (s t : State) : Prop where
  cages : t.cages = s.cages
  lines : t.lines = s.lines
  held  : t.startup.resetHeld = s.startup.resetHeld
  conf  : t.conf = s.conf

theorem conf_congr {s t : State} (settings : t.startup.settings = s.startup.settings)
    (profile : t.startup.profile = s.startup.profile) : t.conf = s.conf := by
  simp only [State.conf, settings, profile]

theorem CagesSame.of_startup {s t : State} (startup : t.startup = s.startup) (cages : t.cages = s.cages)
    (lines : t.lines = s.lines) : CagesSame s t :=
  ⟨cages, lines, by rw [startup], by simp only [State.conf, startup]⟩

theorem CageMoved.of_same {c : Cage} {s t u : State} (same : CagesSame s t) (moved : CageMoved c t u) :
    CageMoved c s u := by
  have cage : ∀ d, t.cage d = s.cage d := cage_congr same.cages
  have line : ∀ d, t.line d = s.line d := line_congr same.lines
  obtain ⟨others, held, conf, filtered, source⟩ := moved
  have conf' : t.cageConf c = s.cageConf c := by simp only [State.cageConf, same.conf]
  rw [cage, line, conf'] at source
  exact {
    others := fun d other => by rw [← cage, ← line]; exact others d other
    held := held.trans same.held
    conf := conf.trans same.conf
    filtered := by rw [← line]; exact filtered
    source := source }

theorem CageMoved.then_same {c : Cage} {s t u : State} (moved : CageMoved c s t) (same : CagesSame t u) :
    CageMoved c s u := by
  have cage : ∀ d, u.cage d = t.cage d := cage_congr same.cages
  have line : ∀ d, u.line d = t.line d := line_congr same.lines
  obtain ⟨others, held, conf, filtered, source⟩ := moved
  have conf' : u.cageConf c = t.cageConf c := by simp only [State.cageConf, same.conf]
  rw [← cage, ← line, ← conf'] at source
  exact {
    others := fun d other => by rw [cage, line]; exact others d other
    held := same.held.trans held
    conf := same.conf.trans conf
    filtered := by rw [line]; exact filtered
    source := source }

/-! ### A move of a cage -/

theorem withdrawCrs_cages (c : Cage) (s : State) : (withdrawCrs c s).cages = s.cages := by simp

theorem moveCage_other {c d : Cage} (other : d ≠ c) (new : CageState) (cause : FaultCause) (s : State) :
    (moveCage c new cause s).cage d = s.cage d ∧ (moveCage c new cause s).line d = s.line d := by
  have handed : (claimHandOff c (s.cage c).state new s).cage d = s.cage d ∧
      (claimHandOff c (s.cage c).state new s).line d = s.line d :=
    ⟨cage_congr (by simp) d, line_congr (by simp) d⟩
  have dropped : ∀ u : State, (if new.powered then u else dropScanOf c u).cage d = u.cage d ∧
      (if new.powered then u else dropScanOf c u).line d = u.line d := fun u => by
    split
    · exact ⟨rfl, rfl⟩
    · exact ⟨cage_congr (by simp) d, line_congr (by simp) d⟩
  have emptied : ∀ u : State, (if new.emptiesList then emptyRequests c u else u).cage d = u.cage d ∧
      (if new.emptiesList then emptyRequests c u else u).line d = u.line d := fun u => by
    split
    · refine ⟨?_, line_congr (by simp) d⟩
      exact (cage_congr (withdrawCrs_cages c _) d).trans (cage_updCage_other _ _ _ _ other)
    · exact ⟨rfl, rfl⟩
  have named : ∀ u : State, (nameSource c new u).cage d = u.cage d ∧
      (nameSource c new u).line d = u.line d := fun u => by
    refine ⟨cage_congr (by simp) d, ?_⟩
    unfold nameSource
    split
    · exact line_updLines_other _ _ _ _ other
    · rfl
  have ended : ∀ u : State, (if new = (s.cage c).state then u else handReport c u).cage d = u.cage d ∧
      (if new = (s.cage c).state then u else handReport c u).line d = u.line d := fun u => by
    split
    · exact ⟨rfl, rfl⟩
    · exact ⟨cage_congr (by simp) d, line_congr (by simp) d⟩
  have vacated : ∀ u : State, (if new = .vacant then u.updScan c CageScan.vacated else u).cage d = u.cage d ∧
      (if new = .vacant then u.updScan c CageScan.vacated else u).line d = u.line d := fun u => by
    split <;> exact ⟨rfl, rfl⟩
  unfold moveCage
  dsimp only
  constructor
  · rw [(ended _).1, (vacated _).1, cage_updCage_other _ _ _ _ other, (named _).1, (emptied _).1,
      (dropped _).1, handed.1]
  · rw [(ended _).2, (vacated _).2]
    exact (named _).2.trans ((emptied _).2.trans ((dropped _).2.trans handed.2))

theorem moveCage_startup (c : Cage) (new : CageState) (cause : FaultCause) (s : State) :
    (moveCage c new cause s).startup = s.startup := by simp

theorem moveCage_conf (c : Cage) (new : CageState) (cause : FaultCause) (s : State) :
    (moveCage c new cause s).conf = s.conf := by simp only [State.conf, moveCage_startup]

theorem fit_entryTimers (k : Settings) (released : Bool) (now : Nat) (st : CageState) :
    (entryTimers k released now st).fit st = true := by
  cases st <;> cases released <;> rfl

/-- A record that enters a state keeps to its rules, where the counts of failures leave room. -/
theorem CageRecord.sound_move {k : CageRecord} {new : CageState} {cause : FaultCause} {timers : CageTimers}
    (h : k.sound) (fit : timers.fit new = true) (faulted : new = .faulted → cause ≠ .none)
    (retries : new = .train ∨ new = .verify ∨ new = .relight → k.trainRetries ≤ 3) :
    (k.move new cause timers).sound where
  cause := by
    simp only [CageRecord.move]
    split
    next f => exact ⟨fun _ => f, fun _ => faulted f⟩
    next f => exact ⟨fun n => absurd rfl n, fun e => absurd e f⟩
  timers := fit
  reads := h.reads
  retries := ⟨h.retries.1, retries⟩
  failures := by
    simp only [CageRecord.move]
    split
    · exact Nat.zero_le _
    · exact h.failures
  requests := h.requests

theorem names_ne_none {st : CageState} (h : st ≠ .adopt) : ∃ n, st.names = some n := by
  cases st <;> simp_all [CageState.names]

theorem filtered_take {l : CageLines} (n : NamedSource) (h : l.filtered) : (l.take n).filtered := by
  unfold CageLines.take
  split <;> exact h

theorem sound_moveCage {c : Cage} {new : CageState} {cause : FaultCause} {s : State}
    (faulted : new = .faulted → cause ≠ .none)
    (retries : new = .train ∨ new = .verify ∨ new = .relight → (s.cage c).trainRetries ≤ 3)
    (h : (s.cage c).sound) : ((moveCage c new cause s).cage c).sound := by
  rw [moveCage_cage]
  refine CageRecord.sound_move ?_ (fit_entryTimers _ _ _ _) faulted retries
  refine { h with requests := ?_ }
  dsimp only
  split
  · exact .nil
  · exact h.requests

/-- A move of a cage that is enabled to a state but ADOPT. -/
theorem moveCage_moved {c : Cage} {new : CageState} (cause : FaultCause) {s : State}
    (live : (s.cage c).state ≠ .disabled) (adopt : new ≠ .adopt) : CageMoved c s (moveCage c new cause s) := by
  obtain ⟨n, names⟩ := names_ne_none adopt
  have line : (moveCage c new cause s).line c = (s.line c).take n := by rw [moveCage_line, names]
  exact {
    others := fun d other => moveCage_other other _ _ _
    held := by rw [moveCage_startup]
    conf := moveCage_conf _ _ _ _
    filtered := fun h => by rw [line]; exact filtered_take n h
    source := .inr ⟨n, by rw [moveCage_state]; exact names, line,
      by rw [State.cageConf, State.cageConf, moveCage_conf], live⟩ }

theorem updCage_moved {c : Cage} (f : CageRecord → CageRecord) {s : State}
    (state : (f (s.cage c)).state = (s.cage c).state) : CageMoved c s (s.updCage c f) where
  others d other := ⟨cage_updCage_other _ _ _ _ other, rfl⟩
  held := rfl
  conf := rfl
  filtered h := h
  source := .inl ⟨by rw [cage_updCage]; exact state, rfl, rfl, .inl rfl⟩

/-- A change of a cage's record within its state, before a move of the cage. -/
theorem CageMoved.of_updCage {c : Cage} {f : CageRecord → CageRecord} {s t : State}
    (state : (f (s.cage c)).state = (s.cage c).state) (moved : CageMoved c (s.updCage c f) t) :
    CageMoved c s t := by
  obtain ⟨others, held, conf, filtered, source⟩ := moved
  rw [cage_updCage, state] at source
  exact {
    others := fun d other => by
      have same := others d other
      rw [cage_updCage_other _ _ _ _ other] at same
      exact same
    held := held, conf := conf, filtered := filtered, source := source }

/-- A change of a cage's record within its state, after a move of the cage. -/
theorem CageMoved.then_updCage {c : Cage} {f : CageRecord → CageRecord} {s t : State}
    (moved : CageMoved c s t) (state : (f (t.cage c)).state = (t.cage c).state) :
    CageMoved c s (t.updCage c f) := by
  obtain ⟨others, held, conf, filtered, source⟩ := moved
  rw [← state, ← cage_updCage t c f] at source
  exact {
    others := fun d other => by rw [cage_updCage_other _ _ _ _ other]; exact others d other
    held := held, conf := conf, filtered := filtered, source := source }

/-! ### What every act does to the cages -/

/-- What an act is to the cages and their lines. -/
inductive CageAct (s : State) : State → Prop where
  | same (t : State) (same : CagesSame s t) : CageAct s t
  | moved (c : Cage) (t : State) (moved : CageMoved c s t) (sound : (s.cage c).sound → (t.cage c).sound) :
      CageAct s t
  | load (k : Settings) (loading : s.startup.loadPhase ≠ .done) : CageAct s (loadSettings k s)
  | restart (clocks : ClockHold) : CageAct s (clearBlocks clocks (allCages.foldl latchEnabled s))

theorem abandonAll_cages (s : State) : CagesSame s (abandonAll s) :=
  .of_startup (abandonAll_unit s).1
    (foldl_keeps State.cages _ (fun s e => (by simp : (abandonIntent e s).cages = s.cages)) _ _)
    (foldl_keeps State.lines _ (fun s e => (by simp : (abandonIntent e s).lines = s.lines)) _ _)

theorem CagesSame.trans {s t u : State} (h : CagesSame s t) (k : CagesSame t u) : CagesSame s u :=
  ⟨k.cages.trans h.cages, k.lines.trans h.lines, k.held.trans h.held, k.conf.trans h.conf⟩

theorem judgeHealth_cages (s : State) : CagesSame s (judgeHealth s) := by
  have judged : CagesSame s (s.updBus BusUnit.judged) := .of_startup rfl rfl rfl
  unfold judgeHealth healthReport
  split
  · exact judged
  · split
    · exact judged.trans (abandonAll_cages _)
    · exact judged.trans (.of_startup rfl rfl rfl)
    · exact judged
    · exact judged

theorem clearWindows_cages (c : Cage) (s : State) : CagesSame s (clearWindows c s) :=
  .of_startup (by simp) (by simp) (by simp)

theorem startSettling_moved {c : Cage} {s t : State} (moved : CageMoved c s t) :
    CageMoved c s (startSettling c t) :=
  (((moved.then_updCage (f := fun k => { k with wantedTx := some 0 }) rfl).then_updCage rfl).then_same
    (clearWindows_cages c _)).then_updCage rfl

theorem sound_startSettling {c : Cage} {s : State} (h : (s.cage c).sound) :
    ((startSettling c s).cage c).sound := by
  rw [startSettling, cage_updCage, cage_congr (clearWindows_cages c _).cages c, wantTx, ask, cage_updCage,
    cage_updCage]
  exact { h with requests := addRequest_nodup h.requests }

theorem sound_zeroRetries {c : Cage} {s : State}
    (h : ({ s.cage c with trainRetries := 0 } : CageRecord).sound) : ((zeroRetries c s).cage c).sound := by
  rw [zeroRetries, cage_updCage]
  exact h

/-- Entering RELIGHT keeps a record to its rules: its training retry count is 0 there (R30). -/
theorem sound_enterRelight {c : Cage} {s : State} (h : (s.cage c).sound) :
    ((enterRelight c s).cage c).sound := by
  refine sound_zeroRetries ?_
  rw [startSettling, cage_updCage, cage_congr (clearWindows_cages c _).cages c, wantTx, ask, cage_updCage,
    cage_updCage, moveCage_cage]
  exact {
    cause := by simp [CageRecord.move]
    timers := fit_entryTimers _ _ _ _
    reads := h.reads
    retries := ⟨Nat.zero_le _, fun _ => Nat.zero_le _⟩
    failures := by simpa [CageRecord.move, CageState.powered] using h.failures
    requests := addRequest_nodup (by simpa [CageRecord.move, CageState.emptiesList] using h.requests) }

theorem enterRelight_moved {c : Cage} {s : State} (live : (s.cage c).state ≠ .disabled) :
    CageMoved c s (enterRelight c s) :=
  (startSettling_moved (moveCage_moved .none live (by simp))).then_updCage rfl

/-- An own intent judged leaves the cages as they are, or takes its cage from ADMIT-WAIT to POWER-UP. -/
theorem judgeIntent_cages (e : OwnIntent) (s : State) :
    CagesSame s (judgeIntent e s) ∨ ∃ u, CagesSame s u ∧ (u.cage e.cage).state = .admitWait ∧
      judgeIntent e s = moveCage e.cage .powerUp .none u := by
  unfold judgeIntent confirmIntent
  dsimp only
  split
  · split
    next state => exact .inr ⟨_, .of_startup (by simp) (by simp) (by simp), state, rfl⟩
    · exact .inl (.of_startup (by simp) (by simp) (by simp))
  · exact .inl (.of_startup (by simp) (by simp) (by simp))

theorem CageAct.of_move {c : Cage} {new : CageState} {cause : FaultCause} {s u : State} (same : CagesSame s u)
    (live : (u.cage c).state ≠ .disabled) (adopt : new ≠ .adopt) (faulted : new = .faulted → cause ≠ .none)
    (retries : new = .train ∨ new = .verify ∨ new = .relight →
      (u.cage c).sound → (u.cage c).trainRetries ≤ 3) : CageAct s (moveCage c new cause u) :=
  .moved c _ (.of_same same (moveCage_moved cause live adopt)) fun h => by
    rw [← cage_congr same.cages c] at h
    exact sound_moveCage faulted (fun t => retries t h) h

/-- Every act leaves the cages and their lines, moves one of them by its rules, or is a load or a Restart. -/
theorem Act.cageAct {s t : State} (act : Act s t) : CageAct s t := by
  cases act with
  | startup u held settings profile phase run =>
    exact .same _ ⟨rfl, rfl, held, conf_congr settings profile⟩
  | lines c f filtered named latched source =>
    refine .moved c _ ?_ (fun h => h)
    exact {
      others := fun d other => ⟨rfl, line_updLines_other _ _ _ _ other⟩
      held := rfl, conf := rfl
      filtered := fun h => by rw [line_updLines]; exact filtered h
      source := .inl (by rw [line_updLines]; exact ⟨rfl, named, latched, source⟩) }
  | cage c f state sound =>
    exact .moved c _ (updCage_moved f state) fun h => by rw [cage_updCage]; exact sound h
  | move c new cause live adopt powerUp settle faulted retries =>
    exact .of_move (.of_startup rfl rfl rfl) live adopt faulted retries
  | spend c cause retries fails live named sound =>
    refine .moved c _ (.of_updCage rfl (moveCage_moved cause ?_ (by simp))) fun h => ?_
    · rw [cage_updCage]; exact live
    · rw [moveCage_cage, cage_updCage]
      exact {
        cause := by simp [CageRecord.move, named]
        timers := fit_entryTimers _ _ _ _
        reads := h.reads
        retries := ⟨sound h, by simp [CageRecord.move]⟩
        failures := by simp [CageRecord.move, CageState.powered]
        requests := .nil }
  | relight c held =>
    exact .moved c _ (enterRelight_moved (by simp [held])) sound_enterRelight
  | adopts c draw adopt most =>
    have live : ((adoptClaim c draw s).cage c).state ≠ .disabled := by
      rw [cage_congr (by simp : (adoptClaim c draw s).cages = s.cages) c, adopt]
      simp
    exact .of_move (.of_startup (by simp) (by simp) (by simp)) live (by simp) (by simp) (by simp)
  | abandon => exact .same _ (abandonAll_cages s)
  | judge e mem =>
    rcases judgeIntent_cages e s with same | ⟨u, same, state, moved⟩
    · exact .same _ same
    · rw [moved]; exact .of_move same (by simp [state]) (by simp) (by simp) (by simp)
  | release i f amount attempt own body =>
    have left : CagesSame s (s.updBus (fun b => (b.sent i f).txGood)) := .of_startup rfl rfl rfl
    exact .same _ ((left.trans (judgeHealth_cages _)).trans (.of_startup (by simp) (by simp) (by simp)))
  | load k free loading => exact .load k loading
  | restart clocks awake => exact .restart clocks
  | _ => exact .same _ (.of_startup (by simp) (by simp) (by simp))

end Sys2Proof.Machine
end

section
/-! PROOF. The drive states and the cages' records keep to their rules at every step (R1, R7, R9, R11, R156 to
R158), and PORT_ADMIT with them (R160). -/

namespace Sys2Proof.Machine

/-- A fold over a list that holds an element establishes what the element's own step does, where every other
step keeps what it asks and what it gives. -/
theorem foldl_reaches {σ α : Type} {f : σ → α → σ} {Q P : σ → Prop} {c : α}
    (before : ∀ s a, a ≠ c → Q s → Q (f s a)) (here : ∀ s, Q s → P (f s c)) (weaker : ∀ s, P s → Q s)
    (after : ∀ s a, a ≠ c → P s → P (f s a)) {l : List α} (mem : c ∈ l) {s : σ} (h : Q s) :
    P (l.foldl f s) := by
  have stays : ∀ (l : List α) (s : σ), P s → P (l.foldl f s) := by
    intro l
    induction l with
    | nil => exact fun s h => h
    | cons a l ih =>
      intro s h
      by_cases same : a = c
      · subst same; exact ih _ (here s (weaker s h))
      · exact ih _ (after s a same h)
  induction l generalizing s with
  | nil => cases mem
  | cons a l ih =>
    by_cases same : a = c
    · subst same; exact stays l _ (here s h)
    · exact ih ((List.mem_cons.1 mem).resolve_left (Ne.symm same)) (before s a same h)

/-! ### The drive states -/

theorem driven_congr {s t : State} {c : Cage} (line : (t.line c).named = (s.line c).named ∧
      (t.line c).latched = (s.line c).latched ∧ (t.line c).source = (s.line c).source)
    (state : (t.cage c).state = (s.cage c).state) (conf : t.conf = s.conf) (h : s.driven c) : t.driven c := by
  obtain ⟨named, latched, source⟩ := line
  obtain ⟨names, latches, inForce, off⟩ := h
  constructor
  · rw [named, state]; exact names
  · rw [source, state, latched, State.cageConf, conf]; exact latches
  · rw [source, named]; exact inForce
  · rw [State.cageConf, conf, state]; exact off

/-- A cage whose source has just been named, in a state that R12 lets it be in. -/
theorem driven_named {s t : State} {c : Cage} {n : NamedSource} (names : (t.cage c).state.names = some n)
    (line : t.line c = (s.line c).take n)
    (off : (t.cageConf c).enabled = false → (t.cage c).state = .disabled) : t.driven c := by
  have taken : (t.line c).named = some n ∧ ((t.line c).source = .held ∨ (t.line c).source = n.source) := by
    rw [line]
    unfold CageLines.take
    split
    next held => exact ⟨rfl, .inl held⟩
    all_goals exact ⟨rfl, .inr rfl⟩
  obtain ⟨named, source⟩ := taken
  refine ⟨named.trans names.symm, fun latched => ?_, ?_, off⟩
  · cases n <;> simp [latched, NamedSource.source] at source
  · rw [named]
    exact source.imp_right fun source => .inr (by rw [source]; rfl)

theorem driven_moved {c : Cage} {s t : State} (moved : CageMoved c s t) (h : s.driven c) : t.driven c := by
  rcases moved.source with ⟨state, named, latched, source⟩ | ⟨n, names, line, enabled, live⟩
  · rcases source with source | ⟨_, lifted⟩
    · exact driven_congr ⟨named, latched, source⟩ state moved.conf h
    · refine ⟨?_, fun isLatched => ?_, ?_, ?_⟩
      · rw [named, state]; exact h.named
      · obtain ⟨n, _, source⟩ := Option.map_eq_some_iff.1 lifted
        cases n <;> simp [isLatched, NamedSource.source] at source
      · rw [named]; exact .inr (.inr lifted)
      · rw [State.cageConf, moved.conf, state]; exact h.off
  · exact driven_named names line fun off => absurd (h.off (enabled.trans off)) live

theorem loadCage_other {c d : Cage} (other : d ≠ c) (s : State) :
    (loadCage s c).cage d = s.cage d ∧ (loadCage s c).line d = s.line d ∧ (loadCage s c).conf = s.conf := by
  unfold loadCage
  repeat' split
  · exact ⟨(moveCage_other other _ _ _).1, (moveCage_other other _ _ _).2, moveCage_conf _ _ _ _⟩
  · exact ⟨(moveCage_other other _ _ _).1, (moveCage_other other _ _ _).2, moveCage_conf _ _ _ _⟩
  · exact ⟨rfl, rfl, rfl⟩

/-- What the load asks of a cage's drive state: all but that a cage which is not enabled is in DISABLED. -/
structure State.drivenLoading (s : State) (c : Cage) : Prop where
  named   : (s.line c).named = (s.cage c).state.names
  latched : (s.line c).source = .latched → (s.cage c).state = .adopt ∧ (s.line c).latched.isSome
  inForce : (s.line c).source = .held ∨ (s.line c).source = .latched ∨
    (s.line c).named.map NamedSource.source = some (s.line c).source

theorem drivenLoading_of_driven {s : State} {c : Cage} (h : s.driven c) : s.drivenLoading c :=
  ⟨h.named, fun l => ⟨(h.latched l).1, (h.latched l).2.2⟩, h.inForce⟩

theorem driven_loadCage {s : State} {c : Cage} (h : s.drivenLoading c) : (loadCage s c).driven c := by
  unfold loadCage
  split
  · exact driven_named (n := .forced) (by rw [moveCage_state]; rfl) (moveCage_line _ _ _ _)
      fun _ => moveCage_state _ _ _ _
  next enabled =>
    have enabled : (s.cageConf c).enabled = true := by simpa using enabled
    split
    · refine driven_named (n := .sequencer) (by rw [moveCage_state]; rfl) (moveCage_line _ _ _ _) fun off => ?_
      rw [State.cageConf, moveCage_conf] at off
      rw [State.cageConf, off] at enabled
      cases enabled
    · exact ⟨h.named, fun l => ⟨(h.latched l).1, enabled, (h.latched l).2⟩, h.inForce,
        fun off => by rw [enabled] at off; cases off⟩

theorem driven_load {s : State} (k : Settings) (h : s.drivenSound) : (loadSettings k s).drivenSound := by
  intro c
  have mem : c ∈ (s.openOrder allCages) := (openOrder_perm s allCages).mem_iff.2 (mem_allCages c)
  refine foldl_reaches (Q := (State.drivenLoading · c)) (P := (State.driven · c)) ?_ ?_ ?_ ?_ mem
    (s := installSettings k s) ⟨(h c).named, fun l => ⟨((h c).latched l).1, ((h c).latched l).2.2⟩, (h c).inForce⟩
  · intro u a other ok
    obtain ⟨cage, line, _⟩ := loadCage_other (Ne.symm other) u
    obtain ⟨named, latched, inForce⟩ := ok
    exact ⟨by rw [cage, line]; exact named, by rw [cage, line]; exact latched, by rw [line]; exact inForce⟩
  · exact fun u ok => driven_loadCage ok
  · exact fun u ok => drivenLoading_of_driven ok
  · intro u a other ok
    obtain ⟨cage, line, conf⟩ := loadCage_other (Ne.symm other) u
    exact driven_congr ⟨by rw [line], by rw [line], by rw [line]⟩ (by rw [cage]) conf ok

theorem latchEnabled_other {c d : Cage} (other : d ≠ c) (s : State) :
    (latchEnabled s c).line d = s.line d := by
  unfold latchEnabled
  split
  · exact line_updLines_other _ _ _ _ other
  · rfl

theorem latchEnabled_rest (s : State) (c : Cage) :
    (latchEnabled s c).startup = s.startup ∧ (latchEnabled s c).cages = s.cages := by
  unfold latchEnabled
  split <;> exact ⟨rfl, rfl⟩

theorem latchEnabled_conf (s : State) (c : Cage) : (latchEnabled s c).conf = s.conf := by
  simp only [State.conf, (latchEnabled_rest s c).1]

theorem latchAll_rest (s : State) :
    (allCages.foldl latchEnabled s).startup = s.startup ∧ (allCages.foldl latchEnabled s).cages = s.cages :=
  ⟨foldl_keeps State.startup _ (fun s c => (latchEnabled_rest s c).1) _ _,
    foldl_keeps State.cages _ (fun s c => (latchEnabled_rest s c).2) _ _⟩

theorem latchAll_conf (s : State) : (allCages.foldl latchEnabled s).conf = s.conf := by
  simp only [State.conf, (latchAll_rest s).1]

/-- The lines of an enabled cage are latched at a Restart (R157). -/
theorem latchAll_enabled {s : State} {c : Cage} (enabled : (s.cageConf c).enabled = true) :
    let l := (allCages.foldl latchEnabled s).line c
    l.source = .latched ∧ l.named = none ∧ l.latched.isSome := by
  refine (foldl_reaches (Q := fun u : State => u.conf = s.conf)
    (P := fun u : State => u.conf = s.conf ∧ (u.line c).source = .latched ∧ (u.line c).named = none ∧
      (u.line c).latched.isSome) ?_ ?_ (fun u ok => ok.1) ?_ (mem_allCages c) rfl).2
  · exact fun u a _ ok => (latchEnabled_conf u a).trans ok
  · intro u ok
    unfold latchEnabled
    rw [if_pos (by rw [State.cageConf, ok]; exact enabled)]
    refine ⟨ok, ?_⟩
    rw [latchLines, line_updLines]
    exact ⟨rfl, rfl, rfl⟩
  · intro u a other ⟨ok, line⟩
    rw [latchEnabled_other (Ne.symm other)]
    exact ⟨(latchEnabled_conf u a).trans ok, line⟩

/-- The lines of a cage that is not enabled stay at a Restart. -/
theorem latchAll_off {s : State} {c : Cage} (off : (s.cageConf c).enabled = false) :
    (allCages.foldl latchEnabled s).line c = s.line c := by
  refine (foldl_invariant (fun u : State => u.conf = s.conf ∧ u.line c = s.line c) latchEnabled ?_ allCages s
    ⟨rfl, rfl⟩).2
  intro u a ⟨conf, line⟩
  refine ⟨(latchEnabled_conf u a).trans conf, ?_⟩
  by_cases same : a = c
  · subst same
    unfold latchEnabled
    rw [if_neg (by rw [State.cageConf, conf]; simpa [State.cageConf] using off)]
    exact line
  · rw [latchEnabled_other (Ne.symm same)]; exact line

theorem conf_clearBlocks (clocks : ClockHold) (s : State) : (clearBlocks clocks s).conf = s.conf := rfl

theorem held_clearBlocks (clocks : ClockHold) (s : State) :
    (clearBlocks clocks s).startup.resetHeld = s.startup.resetHeld := rfl

theorem line_clearBlocks (clocks : ClockHold) (s : State) (c : Cage) :
    (clearBlocks clocks s).line c = s.line c := rfl

theorem driven_restart {s : State} (clocks : ClockHold) (h : s.drivenSound) :
    (clearBlocks clocks (allCages.foldl latchEnabled s)).drivenSound := by
  intro c
  have conf : (clearBlocks clocks (allCages.foldl latchEnabled s)).conf = s.conf :=
    (conf_clearBlocks clocks _).trans (latchAll_conf s)
  have line : (clearBlocks clocks (allCages.foldl latchEnabled s)).line c =
      (allCages.foldl latchEnabled s).line c := line_clearBlocks clocks _ c
  have record := cage_clearBlocks clocks (allCages.foldl latchEnabled s) c
  rw [State.cageConf, latchAll_conf] at record
  cases enabled : (s.cageConf c).enabled with
  | true =>
    have state : ((clearBlocks clocks (allCages.foldl latchEnabled s)).cage c).state = .adopt := by
      rw [record, show (s.conf.cages[c]).enabled = true from enabled]; rfl
    obtain ⟨source, named, latched⟩ := latchAll_enabled enabled
    rw [← line] at source named latched
    refine ⟨by rw [named, state]; rfl, fun _ => ⟨state, ?_, latched⟩, .inr (.inl source), fun off => ?_⟩
    · rw [State.cageConf, conf]; exact enabled
    · rw [State.cageConf, conf] at off
      exact absurd (enabled.symm.trans off) (by simp)
  | false =>
    have state : ((clearBlocks clocks (allCages.foldl latchEnabled s)).cage c).state = .disabled := by
      rw [record, show (s.conf.cages[c]).enabled = false from enabled]; rfl
    have same := line.trans (latchAll_off enabled)
    exact driven_congr ⟨by rw [same], by rw [same], by rw [same]⟩
      (state.trans ((h c).off enabled).symm) conf (h c)

theorem driven_act {s t : State} (act : Act s t) (h : s.drivenSound) : t.drivenSound := by
  rcases act.cageAct with ⟨_, same⟩ | ⟨c, _, moved, _⟩ | ⟨k, _⟩ | clocks
  · intro d
    have line := line_congr same.lines d
    exact driven_congr ⟨by rw [line], by rw [line], by rw [line]⟩ (by rw [cage_congr same.cages d]) same.conf (h d)
  · intro d
    by_cases one : d = c
    · subst one; exact driven_moved moved (h d)
    · obtain ⟨cage, line⟩ := moved.others d one
      exact driven_congr ⟨by rw [line], by rw [line], by rw [line]⟩ (by rw [cage]) moved.conf (h d)
  · exact driven_load k h
  · exact driven_restart clocks h

/-- Before the load every cage is enabled, as in the profile default sets. -/
theorem enabled_of_unset {s : State} (unset : s.startup.settings = none) (c : Cage) :
    (s.cageConf c).enabled = true := by
  rw [State.cageConf, State.conf, unset]
  simp only [profileSettings_cage]

theorem driven_heldInReset (s : State) : (heldInReset s).drivenSound := by
  intro c
  have line : (heldInReset s).line c = resetLines (s.line c).presentRaw (s.line c).linkRaw := by
    simp [State.line, heldInReset]
  have record : (heldInReset s).cage c = resetCageRecord := by
    simp [State.cage, heldInReset, State.reset]
  refine ⟨by rw [line, record]; rfl, fun l => ?_, .inl (by rw [line]; rfl), fun off => ?_⟩
  · rw [line] at l; cases l
  · rw [enabled_of_unset rfl] at off; cases off

theorem driven_release {s : State} (station : Station) (profile : Fin 4) (h : s.drivenSound) :
    (releaseReset station profile s).drivenSound := by
  intro c
  have line : (releaseReset station profile s).line c = (s.line c).startFilters := by
    simp [State.line, releaseReset]
  have enabled := enabled_of_unset (s := releaseReset station profile s) rfl c
  obtain ⟨named, latched, inForce, _⟩ := h c
  refine ⟨by rw [line]; exact named, fun l => ?_, by rw [line]; exact inForce, fun off => ?_⟩
  · rw [line] at l ⊢
    obtain ⟨state, _, levels⟩ := latched l
    exact ⟨state, enabled, levels⟩
  · rw [enabled] at off; cases off

theorem driven_updLines {s : State} {c : Cage} {f : CageLines → CageLines}
    (same : ∀ l, (f l).named = l.named ∧ (f l).latched = l.latched ∧ (f l).source = l.source)
    (h : s.drivenSound) : (s.updLines c f).drivenSound := by
  intro d
  refine driven_congr (s := s) ?_ rfl rfl (h d)
  by_cases one : d = c
  · subst one; rw [line_updLines]; exact same _
  · rw [line_updLines_other _ _ _ _ one]; exact ⟨rfl, rfl, rfl⟩

theorem driven_unheard {s t : State} (answer : Unheard s t) (h : s.drivenSound) : t.drivenSound := by
  cases answer with
  | same => exact h
  | reset => exact driven_heldInReset s
  | release station profile held => exact driven_release station profile h
  | presentPin c level held => exact driven_updLines (fun _ => ⟨rfl, rfl, rfl⟩) h
  | linkPin c level held => exact driven_updLines (fun _ => ⟨rfl, rfl, rfl⟩) h

theorem line_passTime (s : State) (c : Cage) : (passTime s).line c = (s.line c).countDown := by
  simp [State.line, passTime]

theorem cage_passTime (s : State) (c : Cage) :
    (passTime s).cage c = { s.cage c with timers := (s.cage c).timers.countDown } := by
  simp [State.cage, passTime]

theorem driven_passTime {s : State} (h : s.drivenSound) : (passTime s).drivenSound := fun c =>
  driven_congr (s := s) (by rw [line_passTime]; exact ⟨rfl, rfl, rfl⟩) (by rw [cage_passTime]) rfl (h c)

/-- The drive states rest on the cages, the lines and the parameter set alone. -/
theorem drivenSound_congr {s t : State} (startup : t.startup = s.startup) (cages : t.cages = s.cages)
    (lines : t.lines = s.lines) (h : s.drivenSound) : t.drivenSound := fun c => by
  have line := line_congr lines c
  exact driven_congr ⟨by rw [line], by rw [line], by rw [line]⟩ (by rw [cage_congr cages])
    (by simp only [State.conf, startup]) (h c)

/-- Settles O58: the rules of the drive states are kept by every act, and so by every step. -/
theorem stepKeepsDriven : Obligations.StepKeepsDriven := by
  intro s t h next
  exact step_keeps (fun _ _ => driven_act) (fun _ _ => driven_unheard) (fun _ => drivenSound_congr rfl rfl rfl)
    (fun _ _ => driven_passTime) (fun _ _ => drivenSound_congr rfl rfl rfl) next h

/-- Where a cage's drive state keeps to its rules, its PORT_ADMIT is asserted only in IN-SERVICE, or under LATCHED. -/
theorem admitsSafely_of_driven {s : State} (h : s.drivenSound) : s.admitsSafely := by
  intro c admitted
  obtain ⟨named, latched, inForce, _⟩ := h c
  simp only [State.outputs, outputLevels] at admitted
  split at admitted
  · cases admitted
  · cases admitted
  next source => exact .inr ⟨(latched source).1, source⟩
  next source =>
    left
    cases state : (s.cage c).state with
    | inService => rfl
    | adopt =>
      rw [state] at admitted
      cases admitted
    | _ =>
      rw [state] at admitted
      cases admitted

/-- Settles O59: the rules of the drive states make PORT_ADMIT safe, and every command keeps them. -/
theorem portAdmitSafe : Obligations.PortAdmitSafe := fun _ h =>
  ⟨admitsSafely_of_driven h, fun _ _ next => admitsSafely_of_driven
    (exec_keeps (fun _ _ => driven_act) (fun _ _ => driven_unheard) (fun _ => drivenSound_congr rfl rfl rfl)
      next h)⟩

/-! ### The cages' records and filters -/

theorem sound_congr {s t : State} (cages : t.cages = s.cages) (h : ∀ c, (s.cage c).sound) (c : Cage) :
    (t.cage c).sound := by rw [cage_congr cages]; exact h c

theorem sound_loadCage {s : State} (a : Cage) (h : s.cagesSound) : (loadCage s a).cagesSound := by
  have moved : ∀ new, (new = CageState.disabled ∨ new = .debounce) →
      (moveCage a new .none s).cagesSound := fun new which => by
    refine ⟨fun d => ?_, fun free d => ?_⟩
    · by_cases one : d = a
      · subst one
        exact sound_moveCage (by rcases which with rfl | rfl <;> simp)
          (by rcases which with rfl | rfl <;> simp) (h.records d)
      · rw [(moveCage_other one _ _ _).1]; exact h.records d
    · rw [moveCage_startup] at free
      by_cases one : d = a
      · subst one
        rw [moveCage_line]
        split
        · exact filtered_take _ (h.filters free d)
        · exact h.filters free d
      · rw [(moveCage_other one _ _ _).2]; exact h.filters free d
  unfold loadCage
  repeat' split
  · exact moved _ (.inl rfl)
  · exact moved _ (.inr rfl)
  · exact h

theorem sound_restart {s : State} (clocks : ClockHold) (h : s.cagesSound) :
    (clearBlocks clocks (allCages.foldl latchEnabled s)).cagesSound := by
  refine ⟨fun c => ?_, fun free c => ?_⟩
  · rw [cage_clearBlocks]
    cases ((allCages.foldl latchEnabled s).cageConf c).enabled <;>
      exact ⟨by simp [CageRecord.atRestart, resetCageRecord], rfl, Nat.zero_le _,
        ⟨Nat.zero_le _, fun _ => Nat.zero_le _⟩, Nat.zero_le _, .nil⟩
  · rw [held_clearBlocks, (latchAll_rest s).1] at free
    rw [line_clearBlocks]
    refine (foldl_invariant (fun u : State => (u.line c).filtered) latchEnabled ?_ allCages s (h.filters free c))
    intro u a ok
    unfold latchEnabled
    split
    · by_cases one : c = a
      · subst one; rw [latchLines, line_updLines]; exact ok
      · rw [latchLines, line_updLines_other _ _ _ _ one]; exact ok
    · exact ok

theorem sound_act {s t : State} (act : Act s t) (h : s.cagesSound) : t.cagesSound := by
  rcases act.cageAct with ⟨_, same⟩ | ⟨c, _, moved, sound⟩ | ⟨k, _⟩ | clocks
  · exact ⟨sound_congr same.cages h.records, fun free d => by
      rw [line_congr same.lines]; exact h.filters (same.held ▸ free) d⟩
  · refine ⟨fun d => ?_, fun free d => ?_⟩ <;> by_cases one : d = c
    · subst one; exact sound (h.records d)
    · rw [(moved.others d one).1]; exact h.records d
    · subst one; exact moved.filtered (h.filters (moved.held ▸ free) d)
    · rw [(moved.others d one).2]; exact h.filters (moved.held ▸ free) d
  · exact foldl_invariant State.cagesSound loadCage (fun u a => sound_loadCage a) _ _
      ⟨h.records, h.filters⟩
  · exact sound_restart clocks h

theorem filtered_startFilters (l : CageLines) : l.startFilters.filtered := by
  unfold CageLines.startFilters CageLines.presentChange CageLines.linkChange
  constructor <;> dsimp only
  · split
    next same => simp [same]
    next away => split <;> simpa using away
  · split
    next same => simp [same]
    next away => split <;> simpa using away

theorem sound_unheard {s t : State} (answer : Unheard s t) (h : s.cagesSound) : t.cagesSound := by
  cases answer with
  | same => exact h
  | reset =>
    refine ⟨fun c => ?_, nofun⟩
    rw [show (heldInReset s).cage c = resetCageRecord by simp [State.cage, heldInReset, State.reset]]
    exact ⟨by simp [resetCageRecord], rfl, Nat.zero_le _, ⟨Nat.zero_le _, fun _ => Nat.zero_le _⟩,
      Nat.zero_le _, .nil⟩
  | release station profile held =>
    refine ⟨h.records, fun _ c => ?_⟩
    rw [show (releaseReset station profile s).line c = (s.line c).startFilters by
      simp [State.line, releaseReset]]
    exact filtered_startFilters _
  | presentPin c level held => exact ⟨h.records, fun free => absurd (held.symm.trans free) (by simp)⟩
  | linkPin c level held => exact ⟨h.records, fun free => absurd (held.symm.trans free) (by simp)⟩

theorem isSome_countDown (t : Timer) : t.countDown.isSome = t.isSome := by cases t <;> rfl

theorem fit_countDown (t : CageTimers) (st : CageState) : t.countDown.fit st = t.fit st := by
  have none : ∀ t : Timer, t.countDown.isNone = t.isNone := fun t => by cases t <;> rfl
  simp only [CageTimers.fit, CageTimers.countDown, none]

theorem sound_passTime {s : State} (h : s.cagesSound) : (passTime s).cagesSound := by
  refine ⟨fun c => ?_, fun free c => ?_⟩
  · rw [cage_passTime]
    exact { h.records c with timers := (fit_countDown _ _).trans (h.records c).timers }
  · rw [line_passTime]
    obtain ⟨present, link⟩ := h.filters free c
    exact ⟨by simpa only [CageLines.countDown, isSome_countDown] using present,
      by simpa only [CageLines.countDown, isSome_countDown] using link⟩

/-- Settles O57: the rules of the cages' records and filters are kept by every act, and so by every step. -/
theorem stepKeepsCagesSound : Obligations.StepKeepsCagesSound := by
  intro s t h next
  exact step_keeps (fun _ _ => sound_act) (fun _ _ => sound_unheard) (fun _ h => ⟨h.records, h.filters⟩)
    (fun _ _ => sound_passTime) (fun _ _ h => ⟨h.records, h.filters⟩) next h

end Sys2Proof.Machine
end

section
/-! PROOF. The counts, totals and queues stay in the ranges of the tables at every step (R41, R66, R96, R102, R134,
R145, R172, R174; Tables 2-3, 3-1 and 4-1). -/

namespace Sys2Proof.Machine

/-! ### What an operation keeps in range -/

/-- What an operation keeps of the ranges: each of them, of the totals those that a frame or a load may bring,
and that no more tags are open than before. -/
structure RangesKept (s t : State) : Prop where
  penalties : (∀ c, (s.penalty c).bounded) → ∀ c, (t.penalty c).bounded
  events    : s.historiesBounded → t.historiesBounded
  scans     : (∀ c, (s.cageScan c).bounded) → ∀ c, (t.cageScan c).bounded
  peers     : s.totalsBounded → (∀ n, (s.peer n).bounded) → ∀ n, (t.peer n).bounded
  allowance : s.conf.unknownAllow ≤ 4095 → t.conf.unknownAllow ≤ 4095
  counts    : s.bus.counted → t.bus.counted
  length    : s.bus.txQueue.length ≤ 8 → t.bus.txQueue.length ≤ 8
  frames    : ∀ f ∈ t.bus.budgetQueue, f ∈ s.bus.budgetQueue ∨ f.announcesWithin
  tags      : t.openTags.length ≤ s.openTags.length

theorem RangesKept.refl (s : State) : RangesKept s s :=
  ⟨id, id, id, fun _ => id, id, id, id, fun _ => .inl, le_rfl⟩

theorem peers_bounded_of_inRange {s : State} (h : s.inRange) (n : Station) : (s.peer n).bounded :=
  ⟨(h.peers n).1, (h.peers n).2, h.totals.peers n⟩

theorem inRange_of_kept {s t : State} (kept : RangesKept s t) (h : s.inRange) : t.inRange := by
  have bus := kept.counts ⟨h.bus.budgetQueue, h.bus.serviceQueue, h.bus.txErrors, h.bus.rxErrors, h.bus.gapCount,
    h.bus.budgetLoss, h.bus.denied, h.bus.serviceOverflow, h.bus.reportDrop⟩
  have peers := kept.peers h.totals (peers_bounded_of_inRange h)
  exact {
    penalties := kept.penalties h.penalties
    bus := ⟨kept.length h.bus.txQueue, bus.budgetQueue, bus.serviceQueue, bus.txErrors, bus.rxErrors,
      bus.gapCount, bus.budgetLoss, bus.denied, bus.serviceOverflow, bus.reportDrop⟩
    histories := kept.events h.histories
    scan := kept.scans h.scan
    peers := fun n => ⟨(peers n).1, (peers n).2.1⟩
    totals := {
      allowance := kept.allowance h.totals.allowance
      queue := fun f mem => (kept.frames f mem).elim (h.totals.queue f) id
      peers := fun n => (peers n).2.2 }
    tags := kept.tags.trans h.tags }

theorem RangesKept.trans {s t u : State} (h : RangesKept s t) (k : RangesKept t u) : RangesKept s u where
  penalties ok := k.penalties (h.penalties ok)
  events ok := k.events (h.events ok)
  scans ok := k.scans (h.scans ok)
  peers totals ok := by
    have mid := h.peers totals ok
    exact k.peers ⟨h.allowance totals.allowance,
      fun f mem => (h.frames f mem).elim (totals.queue f) id, fun n => (mid n).2.2⟩ mid
  allowance ok := k.allowance (h.allowance ok)
  counts ok := k.counts (h.counts ok)
  length ok := k.length (h.length ok)
  frames f mem := (k.frames f mem).elim (h.frames f) .inr
  tags := k.tags.trans h.tags

theorem RangesKept.foldl {α : Type} {f : State → α → State} (step : ∀ s a, RangesKept s (f s a)) (l : List α)
    (s : State) : RangesKept s (l.foldl f s) := by
  induction l generalizing s with
  | nil => exact .refl s
  | cons a l ih => exact (step s a).trans (ih _)

theorem openTags_length (s : State) :
    s.openTags.length = s.claims.intents.length + (answersOf s.bus.txQueue).length := by
  rw [State.openTags, List.length_append, List.length_map, answerTags_eq]

/-- An operation that leaves every unit with a range as it is. -/
theorem RangesKept.of_units {s t : State} (conf : t.conf = s.conf) (penalties : t.penalties = s.penalties)
    (events : t.events = s.events) (scan : t.scan.cages = s.scan.cages) (peers : t.peers = s.peers)
    (bus : t.bus = s.bus) (intents : t.claims.intents.length ≤ s.claims.intents.length) : RangesKept s t where
  penalties ok c := by rw [penalty_congr penalties]; exact ok c
  events ok := by simpa only [State.historiesBounded, events] using ok
  scans ok c := by rw [cageScan_congr scan]; exact ok c
  peers _ ok n := by rw [State.peer, peers]; exact ok n
  allowance ok := by rw [conf]; exact ok
  counts ok := by rw [bus]; exact ok
  length ok := by rw [bus]; exact ok
  frames f mem := .inl (bus ▸ mem)
  tags := by rw [openTags_length, openTags_length, bus]; omega

theorem updClaims_kept {s : State} {f : ClaimUnit → ClaimUnit}
    (intents : (f s.claims).intents.length ≤ s.claims.intents.length) : RangesKept s (s.updClaims f) :=
  .of_units rfl rfl rfl rfl rfl rfl intents

theorem updClaim_kept (s : State) (c : Cage) (f : Claim → Claim) : RangesKept s (s.updClaim c f) :=
  .of_units rfl rfl rfl rfl rfl rfl le_rfl

theorem updBus_kept {s : State} {f : BusUnit → BusUnit} (counts : s.bus.counted → (f s.bus).counted)
    (length : s.bus.txQueue.length ≤ 8 → (f s.bus).txQueue.length ≤ 8)
    (frames : ∀ g ∈ (f s.bus).budgetQueue, g ∈ s.bus.budgetQueue ∨ g.announcesWithin)
    (answers : (answersOf (f s.bus).txQueue).length ≤ (answersOf s.bus.txQueue).length) :
    RangesKept s (s.updBus f) where
  penalties := id
  events := id
  scans := id
  peers _ := id
  allowance := id
  counts := counts
  length := length
  frames := frames
  tags := by
    rw [openTags_length, openTags_length]
    exact Nat.add_le_add_left answers _

theorem updBus_kept_of_busKept {p : Nat} {s : State} {f : BusUnit → BusUnit} (kept : BusKept p s.bus (f s.bus)) :
    RangesKept s (s.updBus f) :=
  updBus_kept kept.counts kept.queue.length kept.frames kept.queue.answers

/-! ### The claim unit -/

theorem length_place {b : BusUnit} (f : TxFrame) (h : b.txQueue.length ≤ 8) : (b.place f).txQueue.length ≤ 8 := by
  rcases place_txQueue b f with same | ⟨q, _, room, _, _, placed⟩
  · rw [same]; exact h
  · rw [placed, List.length_append]
    exact room h

/-- A new place of a frame adds its own answer at most. -/
theorem answers_place (b : BusUnit) (f : TxFrame) :
    (answersOf (b.place f).txQueue).length ≤
      (answersOf b.txQueue).length + if f.body.answerTag.isSome then 1 else 0 := by
  rcases place_txQueue b f with same | ⟨q, _, _, answers, _, placed⟩
  · rw [same]; exact Nat.le_add_right _ _
  · rw [placed, answersOf, List.filterMap_append, List.length_append, show q.filterMap _ = answersOf q from rfl,
      answers]
    refine Nat.add_le_add_left ?_ _
    rw [List.filterMap_cons, List.filterMap_nil]
    cases tag : f.body.answerTag <;> by_cases own : f.mark = .detached <;> simp [own]

theorem releaseUp_kept (amount : Nat) (s : State) : RangesKept s (s.updBus (fun b => b.releaseUp amount)) := by
  refine updBus_kept ?_ ?_ ?_ ?_
  all_goals unfold BusUnit.releaseUp
  · intro h
    repeat' split
    · exact { h with }
    · exact h
    · exact counted_place _ h
  · intro h
    repeat' split
    · simpa using h
    · exact h
    · exact length_place _ h
  · intro g mem
    repeat' split at mem
    · exact .inl mem
    · exact .inl mem
    · rw [budgetQueue_place] at mem; exact .inl mem
  · repeat' split
    · refine le_of_eq (congrArg List.length ?_)
      rw [answersOf, List.filterMap_map]
      refine List.filterMap_congr fun x _ => ?_
      unfold setRelease
      simp only [Function.comp]
      split
      next h =>
        cases body : x.body <;> simp [body, FrameBody.isRelease] at h
        rfl
      · rfl
    · exact le_rfl
    · exact answers_place _ _

theorem dueTest_kept (s : State) : RangesKept s (dueTest s) := updClaims_kept le_rfl

theorem setClaim_kept (c : Cage) (st : ClaimState) (s : State) : RangesKept s (setClaim c st s) :=
  updClaim_kept _ _ _

theorem releaseClaim_kept (c : Cage) (s : State) : RangesKept s (releaseClaim c s) :=
  ((setClaim_kept c .none s).trans (updClaims_kept le_rfl)).trans (releaseUp_kept _ _)

theorem leaveList_kept (c : Cage) (s : State) : RangesKept s (leaveList c s) :=
  (updClaim_kept s c _).trans (dueTest_kept _)

theorem joinList_kept (c : Cage) (draw : Nat) (s : State) : RangesKept s (joinList c draw s) :=
  (updClaim_kept s c _).trans (dueTest_kept _)

theorem updIntent_kept (tag : Tag) (f : OwnIntent → OwnIntent) (s : State) : RangesKept s (updIntent tag f s) :=
  updClaims_kept (by simp)

theorem dropIntent_kept (tag : Tag) (s : State) : RangesKept s (dropIntent tag s) :=
  updClaims_kept (List.length_filter_le _ _)

theorem removeIntent_kept (tag : Tag) (s : State) : RangesKept s (s.updBus (BusUnit.removeIntent tag)) :=
  updBus_kept_of_busKept (p := 0)
    (.of_queue (.of_sublist List.filter_sublist) (fun h => { h with }) rfl)

theorem cancelIntent_kept (e : OwnIntent) (s : State) : RangesKept s (cancelIntent e s) :=
  (((removeIntent_kept e.tag s).trans (dropIntent_kept _ _)).trans (setClaim_kept _ _ _)).trans (dueTest_kept _)

theorem abandonIntent_kept (e : OwnIntent) (s : State) : RangesKept s (abandonIntent e s) := by
  unfold abandonIntent
  split
  · exact updIntent_kept _ _ _
  · exact cancelIntent_kept _ _

theorem abandonAll_kept (s : State) : RangesKept s (abandonAll s) :=
  .foldl (fun s e => abandonIntent_kept e s) _ _

theorem disposeClaim_kept (c : Cage) (s : State) : RangesKept s (disposeClaim c s) := by
  unfold disposeClaim
  repeat' split
  · exact .refl s
  · exact releaseClaim_kept c s
  · exact abandonIntent_kept _ _
  · exact .refl s
  · exact abandonIntent_kept _ _
  · exact .refl s

theorem claimHandOff_kept (c : Cage) (old new : CageState) (s : State) :
    RangesKept s (claimHandOff c old new s) := by
  unfold claimHandOff
  split
  · exact .refl s
  · exact .refl s
  · exact (leaveList_kept c s).trans (disposeClaim_kept c _)
  · exact releaseClaim_kept c s
  · exact .refl s
  · exact disposeClaim_kept c s
  · exact disposeClaim_kept c s
  · split
    · exact joinList_kept _ _ _
    · exact .refl s
  · exact .refl s

theorem judgeHealth_kept (s : State) : RangesKept s (judgeHealth s) := by
  have judged : RangesKept s (s.updBus BusUnit.judged) :=
    updBus_kept_of_busKept (p := 0) (.of_counts rfl (fun h => { h with }) rfl)
  unfold judgeHealth healthReport
  split
  · exact judged
  · split
    · exact judged.trans (abandonAll_kept _)
    · exact judged.trans (dueTest_kept _)
    · exact judged
    · exact judged

/-! ### Moves -/

theorem updScan_kept (s : State) (c : Cage) (f : CageScan → CageScan)
    (bounded : (s.cageScan c).bounded → (f (s.cageScan c)).bounded) : RangesKept s (s.updScan c f) where
  penalties := id
  events := id
  scans all d := by
    by_cases h : d = c
    · subst h; rw [cageScan_updScan]; exact bounded (all d)
    · rw [cageScan_updScan_other _ _ _ _ h]; exact all d
  peers _ := id
  allowance := id
  counts := id
  length := id
  frames _ := .inl
  tags := le_rfl

theorem updCage_kept (s : State) (c : Cage) (f : CageRecord → CageRecord) : RangesKept s (s.updCage c f) :=
  .of_units rfl rfl rfl rfl rfl rfl le_rfl

theorem dropScanOf_scans (c : Cage) (s : State) : (dropScanOf c s).scan.cages = s.scan.cages := by
  unfold dropScanOf discardScan
  repeat' split
  all_goals rfl

theorem dropScanOf_kept (c : Cage) (s : State) : RangesKept s (dropScanOf c s) :=
  .of_units (conf_congr (by simp) (by simp)) (by simp) (by simp) (dropScanOf_scans c s) (by simp) (by simp)
    (by simp)

theorem emptyRequests_kept (c : Cage) (s : State) : RangesKept s (emptyRequests c s) :=
  .of_units (conf_congr (by simp) (by simp)) (by simp) (by simp) (by simp) (by simp) (by simp) (by simp)

theorem nameSource_kept (c : Cage) (st : CageState) (s : State) : RangesKept s (nameSource c st s) := by
  unfold nameSource
  split
  · exact .of_units rfl rfl rfl rfl rfl rfl le_rfl
  · exact .refl s

theorem handReport_kept (c : Cage) (s : State) : RangesKept s (handReport c s) := by
  unfold handReport
  exact updBus_kept_of_busKept (p := 0) (.report _ _ _)

theorem ite_kept {p : Prop} [Decidable p] {s t u : State} (h : RangesKept s t) (k : RangesKept s u) :
    RangesKept s (if p then t else u) := by
  split
  · exact h
  · exact k

theorem moveCage_kept (c : Cage) (new : CageState) (cause : FaultCause) (s : State) :
    RangesKept s (moveCage c new cause s) := by
  unfold moveCage
  dsimp only
  refine .trans ?_ (ite_kept (.refl _) (handReport_kept c _))
  refine .trans ?_ (ite_kept (updScan_kept _ c _ CageScan.bounded_clearWindows) (.refl _))
  refine .trans ?_ (updCage_kept _ c _)
  refine .trans ?_ (nameSource_kept c new _)
  refine .trans ?_ (ite_kept (emptyRequests_kept c _) (.refl _))
  refine .trans ?_ (ite_kept (.refl _) (dropScanOf_kept c _))
  exact claimHandOff_kept c _ _ s

theorem startSettling_kept (c : Cage) (s : State) : RangesKept s (startSettling c s) := by
  have cleared : ∀ u : State, RangesKept u (clearWindows c u) := fun u =>
    (updScan_kept u c _ CageScan.bounded_clearWindows).trans (dropScanOf_kept c _)
  unfold startSettling wantTx ask
  exact (((updCage_kept s c _).trans (updCage_kept _ c _)).trans (cleared _)).trans (updCage_kept _ c _)

theorem loadCage_kept (s : State) (c : Cage) : RangesKept s (loadCage s c) := by
  unfold loadCage
  exact ite_kept (moveCage_kept _ _ _ _) (ite_kept (moveCage_kept _ _ _ _) (.refl s))

/-! ### Judgements -/

/-- An own intent taken out of the table leaves fewer. -/
theorem length_dropIntent {s : State} {e : OwnIntent} (mem : e ∈ s.claims.intents) :
    (dropIntent e.tag s).claims.intents.length + 1 ≤ s.claims.intents.length :=
  List.length_filter_lt_length_iff_exists.2 ⟨e, mem, by simp⟩

/-- An own intent that goes makes room for the tag of its answer. -/
theorem answered_kept {s : State} {e : OwnIntent} (level : Nat) (body : FrameBody)
    (mem : e ∈ s.claims.intents) : RangesKept s (queueFrame level body (dropIntent e.tag s)) := by
  have dropped := dropIntent_kept e.tag s
  have fewer := length_dropIntent mem
  refine { dropped with
    counts := fun h => counted_place _ h
    length := fun h => length_place _ h
    frames := fun f mem => ?_
    tags := ?_ }
  · rw [queueFrame, State.updBus, budgetQueue_place] at mem; exact .inl mem
  · have answers := answers_place s.bus (newFrame level body)
    rw [openTags_length, openTags_length]
    show (dropIntent e.tag s).claims.intents.length +
      (answersOf (s.bus.place (newFrame level body)).txQueue).length ≤ _
    split at answers <;> omega

theorem confirmIntent_kept {e : OwnIntent} {s : State} (mem : e ∈ s.claims.intents) :
    RangesKept s (confirmIntent e s) := by
  have confirmed : RangesKept s (leaveList e.cage (queueFrame e.level (.confirm e.tag e.draw)
      ((setClaim e.cage .confirmed (dropIntent e.tag s)).updClaims
        (fun k => { k with committed := k.committed + e.draw })))) := by
    refine .trans ?_ (leaveList_kept _ _)
    refine (answered_kept e.level (.confirm e.tag e.draw) mem).trans ?_
    exact .of_units rfl rfl rfl rfl rfl rfl le_rfl
  unfold confirmIntent
  dsimp only
  exact ite_kept (confirmed.trans (moveCage_kept _ _ _ _)) confirmed

theorem withdrawIntent_kept {e : OwnIntent} {s : State} (mem : e ∈ s.claims.intents) :
    RangesKept s (withdrawIntent e s) := by
  unfold withdrawIntent
  dsimp only
  refine ((answered_kept e.level (.withdraw e.tag e.draw) mem).trans ?_).trans (dueTest_kept _)
  exact ite_kept (updClaim_kept _ _ _) (setClaim_kept _ _ _)

theorem openWindow_kept {e : OwnIntent} {s : State} (mem : e ∈ s.claims.intents) :
    RangesKept s (openWindow e s) := by
  refine ((updClaims_kept ?_).trans (setClaim_kept _ _ _)).trans (dueTest_kept _)
  have fewer := length_dropIntent mem
  rw [List.length_append]
  exact fewer

/-! ### Every act -/

theorem handRecord_kept (c : Cage) (kind : EventKind) (before : CageState) (cause : Option FaultCause)
    (s : State) : RangesKept s (handRecord c kind before cause s) := by
  refine { RangesKept.refl s with events := fun ⟨_, short⟩ => ⟨?_, fun d => ?_⟩ }
  · exact Nat.le_of_lt_succ (Nat.mod_lt _ (by decide))
  · simp only [handRecord, modifyAt, Fin.getElem_fin, Vector.getElem_set]
    split
    · exact List.length_take_le _ _
    · exact short d

theorem atRestart_answers (b : BusUnit) (period : Nat) : answersOf (b.atRestart period).txQueue = [] := by
  rw [answersOf, List.filterMap_eq_nil_iff]
  intro f mem
  obtain ⟨g, _, rfl⟩ := List.mem_map.1 mem
  rfl

theorem clearBlocks_kept (clocks : ClockHold) (s : State) : RangesKept s (clearBlocks clocks s) where
  penalties := id
  events := id
  scans _ c := by
    rw [show (clearBlocks clocks s).cageScan c = resetCageScan by
      simp [State.cageScan, clearBlocks, ScanUnit.atRestart]]
    exact ⟨Nat.zero_le _, Nat.zero_le _, fun i => by simp [resetCageScan]⟩
  peers _ _ n := by
    rw [show (clearBlocks clocks s).peer n = unknownPeer by simp [State.peer, clearBlocks]]
    exact ⟨Nat.zero_le _, Nat.zero_le _, Nat.zero_le _⟩
  allowance := id
  counts _ := by constructor <;> exact Nat.zero_le _
  length h := by
    show ((s.bus.txQueue.filter _).map _).length ≤ 8
    rw [List.length_map]
    exact (List.length_filter_le _ _).trans h
  frames f mem := nomatch mem
  tags := by
    rw [openTags_length]
    show 0 + (answersOf (s.bus.atRestart s.conf.announce).txQueue).length ≤ _
    rw [atRestart_answers]
    exact Nat.zero_le _

theorem latchEnabled_kept (s : State) (c : Cage) : RangesKept s (latchEnabled s c) := by
  unfold latchEnabled
  exact ite_kept (.of_units rfl rfl rfl rfl rfl rfl le_rfl) (.refl s)

theorem installSettings_kept {k : Settings} (s : State) (small : k.unknownAllow ≤ 4095) :
    RangesKept s (installSettings k s) where
  penalties := id
  events := id
  scans := id
  peers _ := id
  allowance _ := small
  counts h := { h with }
  length := id
  frames _ := .inl
  tags := le_rfl

/-- Every act keeps the ranges, or queues an INTENT where R51 lets it. -/
theorem Act.rangesKept {s t : State} (act : Act s t) : RangesKept s t ∨
    ∃ c, s.testPasses c = true ∧ t = queueIntent c s := by
  cases act with
  | arbiters l n => exact .inl ((.of_units rfl rfl rfl rfl rfl rfl le_rfl))
  | startup u held settings profile phase run =>
    exact .inl ((.of_units (conf_congr settings profile) rfl rfl rfl rfl rfl le_rfl))
  | record c kind before cause => exact .inl ((handRecord_kept _ _ _ _ s))
  | penalties p bounded => exact .inl ({ RangesKept.refl s with penalties := bounded })
  | scans u bounded => exact .inl ({ RangesKept.refl s with scans := bounded })
  | peers p bounded => exact .inl ({ RangesKept.refl s with peers := bounded })
  | lines c f filtered named latched source =>
    exact .inl ((.of_units rfl rfl rfl rfl rfl rfl le_rfl))
  | cage c f state sound => exact .inl ((updCage_kept s c f))
  | move c new cause live adopt powerUp settle faulted retries =>
    exact .inl ((moveCage_kept c new cause s))
  | spend c cause retries fails live named sound =>
    exact .inl (((updCage_kept s c _).trans (moveCage_kept c .faulted cause _)))
  | relight c held =>
    exact .inl ((((moveCage_kept c .relight .none s).trans (startSettling_kept c _)).trans
      (updCage_kept _ c _)))
  | adopts c draw adopt most =>
    have adopted : RangesKept s (adoptClaim c draw s) := (updClaim_kept s c _).trans (updClaims_kept le_rfl)
    exact .inl (adopted.trans (moveCage_kept c .lightSettle .none _))
  | service u awake => exact .inl ((.of_units rfl rfl rfl rfl rfl rfl le_rfl))
  | bus b kept => exact .inl ((updBus_kept_of_busKept (f := fun _ => b) kept))
  | claimUnit u claims intents committed pending =>
    exact .inl ((.of_units rfl rfl rfl rfl rfl rfl (by show u.intents.length ≤ _; rw [intents])))
  | claim c f state draw listed => exact .inl ((updClaim_kept s c f))
  | windows f same => exact .inl ((updClaims_kept (by simp)))
  | cancel e mem => exact .inl ((cancelIntent_kept e s))
  | abandon => exact .inl ((abandonAll_kept s))
  | opens e mem => exact .inl ((openWindow_kept mem))
  | judge e mem =>
    unfold judgeIntent
    split
    · exact .inl ((confirmIntent_kept mem))
    · exact .inl ((withdrawIntent_kept mem))
  | intent c chosen passes => exact .inr ⟨c, passes, rfl⟩
  | release i f amount attempt own body =>
    have left : RangesKept s (judgeHealth (s.updBus (fun b => (b.sent i f).txGood))) :=
      (updBus_kept_of_busKept (p := 0) (.sent (underAttempt_getElem attempt))).trans (judgeHealth_kept _)
    have paid : ∀ u : State, RangesKept u (releaseSent amount u) := fun u => by
      unfold releaseSent
      dsimp only
      have lowered : RangesKept u (dueTest (u.updClaims (fun k => { k with
          releasePending := u.claims.releasePending - amount, committed := k.committed - amount }))) :=
        (updClaims_kept le_rfl).trans (dueTest_kept _)
      exact ite_kept lowered (lowered.trans (releaseUp_kept _ _))
    exact .inl ((left.trans (paid _)))
  | load k free loading budget allowance =>
    exact .inl (((installSettings_kept s allowance).trans (.foldl loadCage_kept _ _)))
  | restart clocks awake =>
    exact .inl (((RangesKept.foldl latchEnabled_kept allCages s).trans (clearBlocks_kept clocks _)))

/-- An INTENT queued where R51 lets it makes at most two open tags. -/
theorem inRange_queueIntent {s : State} {c : Cage} (passes : s.testPasses c = true) (h : s.inRange) :
    (queueIntent c s).inRange := by
  have open_ : s.openTags.length < 2 := by
    simp only [State.testPasses, Bool.and_eq_true, decide_eq_true_eq] at passes
    exact passes.1.2
  have queued : RangesKept s (queueFrame (s.claim c).level
      (.intent c (s.claims.lastTag + 1) (s.claim c).draw) s) :=
    updBus_kept (counted_place _) (length_place _) (fun g mem => .inl (by rwa [budgetQueue_place] at mem))
      (answers_place _ _)
  obtain ⟨penalties, bus, histories, scan, peers, totals, _⟩ := inRange_of_kept queued h
  refine ⟨penalties, ⟨bus.1, bus.2, bus.3, bus.4, bus.5, bus.6, bus.7, bus.8, bus.9, bus.10⟩, histories, scan,
    peers, ⟨totals.1, totals.2, totals.3⟩, ?_⟩
  rw [State.tagsBounded, openTags_queueIntent]
  exact open_

theorem inRange_act {s t : State} (act : Act s t) (h : s.inRange) : t.inRange := by
  rcases act.rangesKept with kept | ⟨c, passes, rfl⟩
  · exact inRange_of_kept kept h
  · exact inRange_queueIntent passes h

/-! ### Every step -/

theorem inRange_fresh {s : State} (allowance : s.conf.unknownAllow ≤ 4095)
    (penalties : ∀ c, s.penalty c = { value := 0, lastModule := none }) (bus : s.bus = resetBus)
    (events : s.events = { histories := Vector.replicate 16 [], nextSequence := 0 })
    (scans : ∀ c, s.cageScan c = resetCageScan) (peers : ∀ n, s.peer n = unknownPeer)
    (intents : s.claims.intents = []) : s.inRange where
  penalties c := by rw [penalties]; exact ⟨Nat.zero_le _, nofun⟩
  bus := by constructor <;> (rw [bus]; exact Nat.zero_le _)
  histories := by
    rw [State.historiesBounded, events]
    exact ⟨Nat.zero_le _, fun c => by simp⟩
  scan c := by rw [scans]; exact ⟨Nat.zero_le _, Nat.zero_le _, fun i => by simp [resetCageScan]⟩
  peers n := by rw [peers]; exact ⟨Nat.zero_le _, Nat.zero_le _⟩
  totals := {
    allowance := allowance
    queue := fun f mem => by rw [bus] at mem; cases mem
    peers := fun n => by rw [peers]; exact Nat.zero_le _ }
  tags := by rw [State.tagsBounded, openTags_length, intents, bus]; decide

theorem inRange_heldInReset (s : State) : (heldInReset s).inRange :=
  inRange_fresh (profileSettings_allowance_le _) (fun c => by simp [State.penalty, heldInReset, State.reset]) rfl
    rfl (fun c => by simp [State.cageScan, heldInReset, State.reset])
    (fun n => by simp [State.peer, heldInReset, State.reset]) rfl

theorem inRange_unheard {s t : State} (answer : Unheard s t) (h : s.inRange) : t.inRange := by
  cases answer with
  | same => exact h
  | reset => exact inRange_heldInReset s
  | release station profile held =>
    exact inRange_of_kept { RangesKept.refl s with allowance := fun _ => profileSettings_allowance_le _ } h
  | presentPin c level held => exact inRange_of_kept (s := s) (.of_units rfl rfl rfl rfl rfl rfl le_rfl) h
  | linkPin c level held => exact inRange_of_kept (s := s) (.of_units rfl rfl rfl rfl rfl rfl le_rfl) h

theorem passTime_kept (s : State) : RangesKept s (passTime s) := by
  refine { RangesKept.refl s with
    peers := fun _ ok n => ?_
    counts := fun h => { h with }
    tags := ?_ }
  · rw [show (passTime s).peer n = (s.peer n).countUp (promotionAge s.conf) by simp [State.peer, passTime]]
    exact ⟨by simpa [PeerEntry.countUp] using (ok n).1, (ok n).2⟩
  · rw [openTags_length, openTags_length]
    simp [passTime, ClaimUnit.countDown]

/-- Settles O56: the ranges are kept by every act, and so by every step. -/
theorem stepKeepsRanges : Obligations.StepKeepsRanges := by
  intro s t h next
  exact step_keeps (fun _ _ => inRange_act) (fun _ _ => inRange_unheard)
    (fun s h => inRange_of_kept (s := s) (.of_units rfl rfl rfl rfl rfl rfl le_rfl) h)
    (fun s _ h => inRange_of_kept (passTime_kept s) h)
    (fun s _ h => inRange_of_kept (s := s) (.of_units rfl rfl rfl rfl rfl rfl le_rfl) h) next h

end Sys2Proof.Machine
end

section
/-! PROOF. The claim unit's rules, with the sequencer's states as they are handed to it (R5, R41 to R46, R53, R61),
and that every operation of the claim unit keeps them. -/

namespace Sys2Proof.Machine

/-! ### Sums over the cages -/

/-- What a claim adds to the committed total (R43). -/
def Claim.share (k : Claim) : Nat := if k.state = .confirmed then k.draw else 0

/-- What a cage may still add to the committed total at the end of its adoption (log entry 40). -/
def CageState.toAdopt (st : CageState) : Nat := if st = .adopt then 1 else 0

/-- The confirmed part of the committed total. -/
def State.shares (s : State) : Nat := (allCages.map fun c => (s.claim c).share).sum

/-- How many cages are in ADOPT. -/
def adoptCount (st : Cage → CageState) : Nat := (allCages.map fun c => (st c).toAdopt).sum

theorem sum_filter_map {α : Type} (p : α → Bool) (f : α → Nat) (l : List α) :
    ((l.filter p).map f).sum = (l.map fun a => if p a then f a else 0).sum := by
  induction l with
  | nil => rfl
  | cons a l ih =>
    rw [List.filter_cons, List.map_cons, List.sum_cons, ← ih]
    split <;> simp

/-- A sum over the cages of which one summand alone is another. -/
theorem sum_one_changed {f g : Cage → Nat} {c : Cage} (others : ∀ d, d ≠ c → g d = f d) :
    (allCages.map g).sum + f c = (allCages.map f).sum + g c := by
  have sums : ∀ h : Cage → Nat, (allCages.map h).sum = ∑ d, h d := fun h => (Fin.sum_univ_def h).symm
  rw [sums, sums, ← Finset.add_sum_erase _ f (Finset.mem_univ c), ← Finset.add_sum_erase _ g (Finset.mem_univ c),
    Finset.sum_congr (g := f) rfl fun d mem => others d (Finset.ne_of_mem_erase mem)]
  ring

theorem totalMatches_iff (s : State) :
    s.totalMatches ↔ s.claims.committed = s.shares + s.claims.releasePending := by
  rw [State.totalMatches, sum_filter_map]
  simp only [decide_eq_true_eq]
  rfl

theorem length_adopting (st : Cage → CageState) :
    (allCages.filter (fun c => decide (st c = .adopt))).length = adoptCount st := by
  have ones := sum_filter_map (fun c => decide (st c = .adopt)) (fun _ => 1) allCages
  rw [List.map_const', List.sum_replicate, smul_eq_mul, mul_one] at ones
  rw [ones]
  simp only [decide_eq_true_eq]
  rfl

theorem adoptCount_le (st : Cage → CageState) : adoptCount st ≤ 16 := by
  rw [← length_adopting]
  exact List.length_filter_le _ _

theorem adoptCount_eq_zero {st : Cage → CageState} (none : ∀ c, st c ≠ .adopt) : adoptCount st = 0 := by
  rw [← length_adopting, List.length_eq_zero_iff, List.filter_eq_nil_iff]
  exact fun c _ => by simpa using none c

/-! ### The RELEASE of the transmit queue (R44, R85) -/

/-- The transmit queue holds one RELEASE of the part's own at most, of no more than the release-pending amount. -/
def releaseFits (q : List TxFrame) (pending : Nat) : Prop :=
  (releasesOf q).length ≤ 1 ∧ ∀ f ∈ q, f.mark ≠ .detached → ∀ a, f.body = .release a → a ≤ pending

theorem releaseFits_kept {q q' : List TxFrame} {p : Nat} (kept : QueueKept p q q') (h : releaseFits q p) :
    releaseFits q' p := by
  refine ⟨kept.releases.trans h.1, fun f mem own a body => ?_⟩
  rcases kept.amounts f mem own a body with le | ⟨g, mem, own, body⟩
  · exact le
  · exact h.2 g mem own a body

theorem isRelease_iff {b : FrameBody} : b.isRelease = true ↔ ∃ a, b = .release a := by
  cases b <;> simp [FrameBody.isRelease]

/-- Where no RELEASE of the part's own is queued, one of an amount takes a new place. -/
theorem releaseFits_place {b : BusUnit} {amount : Nat} (none : releasesOf b.txQueue = []) :
    releaseFits (b.place (newFrame 0 (.release amount))).txQueue amount := by
  have nothing : ∀ q : List TxFrame, releasesOf q = [] → ∀ f ∈ q, f.mark ≠ .detached → ∀ a,
      f.body ≠ .release a := fun q empty f mem own a body => by
    refine List.filter_eq_nil_iff.1 empty f mem ?_
    simp [own, body, FrameBody.isRelease]
  rcases place_txQueue b (newFrame 0 (.release amount)) with same | ⟨q, sub, _, _, releases, placed⟩
  · rw [same]
    exact ⟨by rw [none]; exact Nat.zero_le _, fun f mem own a body => absurd body (nothing _ none f mem own a)⟩
  · rw [placed]
    refine ⟨?_, fun f mem own a body => ?_⟩
    · rw [releasesOf, List.filter_append, List.length_append, show q.filter _ = releasesOf q from rfl, releases, none,
        List.length_nil, Nat.zero_add]
      exact List.length_filter_le _ _
    · rcases List.mem_append.1 mem with mem | mem
      · exact absurd body (nothing q (releases.trans none) f mem own a)
      · cases List.mem_singleton.1 mem
        cases body
        exact le_rfl

/-- The RELEASE after the release-pending amount has risen (R44, R85). -/
theorem releaseFits_releaseUp {b : BusUnit} {p amount : Nat} (h : releaseFits b.txQueue p) (le : p ≤ amount) :
    releaseFits (b.releaseUp amount).txQueue amount := by
  unfold BusUnit.releaseUp
  split
  · have same : ∀ x : TxFrame, (setRelease .waiting amount x).mark = x.mark ∧
        (setRelease .waiting amount x).body.isRelease = x.body.isRelease := fun x => by
      unfold setRelease
      split
      next is => exact ⟨rfl, is.2.symm⟩
      · exact ⟨rfl, rfl⟩
    refine ⟨?_, fun f mem own a body => ?_⟩
    · rw [releasesOf, List.filter_map, List.length_map]
      refine le_trans (le_of_eq (congrArg List.length (List.filter_congr fun x _ => ?_))) h.1
      simp only [Function.comp, same]
    · obtain ⟨x, xmem, rfl⟩ := List.mem_map.1 mem
      rw [(same x).1] at own
      unfold setRelease at body
      split at body
      · cases body; exact le_rfl
      · exact (h.2 x xmem own a body).trans le
  · split
    · exact ⟨h.1, fun f mem own a body => (h.2 f mem own a body).trans le⟩
    next waiting attempting =>
      refine releaseFits_place (List.filter_eq_nil_iff.2 fun f mem => ?_)
      simp only [holds, List.any_eq_true, not_exists, not_and, Bool.and_eq_true, decide_eq_true_eq] at waiting attempting ⊢
      cases mark : f.mark with
      | waiting => exact fun _ => waiting f mem mark
      | attempting => exact fun _ => attempting f mem mark
      | detached => exact fun own => absurd rfl own

/-! ### The rules, with the cages in given states -/

/-- The claim unit's rules, with the states of the cages as the sequencer hands them to it. -/
structure ClaimsFor (s : State) (st : Cage → CageState) : Prop where
  total    : s.claims.committed = s.shares + s.claims.releasePending
  budget   : s.conf.budget ≤ 65535
  bound    : s.claims.committed + 4095 * adoptCount st ≤ max 65520 s.conf.budget
  held     : ∀ c, (s.claim c).state = .confirmed ↔ (st c = .powerUp ∨ st c = .lightSettle)
  listed   : ∀ c, (s.claim c).listed = true → st c = .admitWait
  entries  : ∀ e ∈ s.claims.intents,
    ((s.claim e.cage).state = .queued ∨ (s.claim e.cage).state = .pending) ∧
    (e.withdrawAtEnd = false → (s.claim e.cage).draw = e.draw ∧ st e.cage = .admitWait)
  distinct : (s.claims.intents.map OwnIntent.cage).Nodup
  adopting : ∀ c, st c = .adopt →
    (s.claim c).state = .none ∧ s.startup.runState = .adopting ∧ s.claims.intents = []
  loading  : s.startup.resetHeld = true ∨ s.startup.loadPhase ≠ .done →
    s.startup.runState = .loading ∧ s.claims.committed = 0 ∧ s.claims.intents = [] ∧
    s.service.phase = .idle ∧ ∀ c, st c ≠ .adopt
  release  : releaseFits s.bus.txQueue s.claims.releasePending

/-- The states the cages are in. -/
def State.states (s : State) (c : Cage) : CageState := (s.cage c).state

theorem claimsSound_iff (s : State) : s.claimsSound ↔ ClaimsFor s s.states := by
  constructor
  · rintro ⟨total, budget, bound, held, listed, entries, distinct, adopting, loading, release⟩
    rw [show (allCages.filter fun c => decide ((s.cage c).state = .adopt)).length = adoptCount s.states
      from length_adopting _] at bound
    exact ⟨(totalMatches_iff s).1 total, budget, bound, held, listed, entries, distinct, adopting, loading, release⟩
  · rintro ⟨total, budget, bound, held, listed, entries, distinct, adopting, loading, release⟩
    rw [← length_adopting] at bound
    exact ⟨(totalMatches_iff s).2 total, budget, bound, held, listed, entries, distinct, adopting, loading, release⟩

/-- A change that leaves the rules of the claim unit what they speak of. -/
structure ClaimsKept (s t : State) : Prop where
  conf      : t.conf.budget = s.conf.budget
  held      : t.startup.resetHeld = s.startup.resetHeld
  phase     : t.startup.loadPhase = .done ↔ s.startup.loadPhase = .done
  run       : t.startup.runState = s.startup.runState
  service   : s.service.phase = .idle → s.startup.runState = .loading → t.service.phase = .idle
  claims    : ∀ c, (t.claim c).state = (s.claim c).state ∧ (t.claim c).draw = (s.claim c).draw ∧
    (t.claim c).listed = (s.claim c).listed
  intents   : ∃ f : OwnIntent → OwnIntent, t.claims.intents = s.claims.intents.map f ∧
    ∀ e, (f e).cage = e.cage ∧ (f e).draw = e.draw ∧ ((f e).withdrawAtEnd = false → e.withdrawAtEnd = false)
  committed : t.claims.committed = s.claims.committed
  pending   : t.claims.releasePending = s.claims.releasePending
  release   : releaseFits s.bus.txQueue s.claims.releasePending →
    releaseFits t.bus.txQueue s.claims.releasePending

theorem ClaimsFor.of_kept {s t : State} {st : Cage → CageState} (kept : ClaimsKept s t) (h : ClaimsFor s st) :
    ClaimsFor t st := by
  obtain ⟨conf, free, phase, run, service, claims, ⟨f, intents, same⟩, committed, pending, release⟩ := kept
  have shares : t.shares = s.shares := by
    refine congrArg List.sum (List.map_congr_left fun c _ => ?_)
    obtain ⟨state, draw, _⟩ := claims c
    simp only [Claim.share, state, draw]
  have empty : s.claims.intents = [] → t.claims.intents = [] := fun none => by rw [intents, none]; rfl
  exact {
    total := by rw [committed, shares, pending]; exact h.total
    budget := by rw [conf]; exact h.budget
    bound := by rw [committed, conf]; exact h.bound
    held := fun c => by rw [(claims c).1]; exact h.held c
    listed := fun c => by rw [(claims c).2.2]; exact h.listed c
    entries := fun e mem => by
      rw [intents] at mem
      obtain ⟨g, gmem, rfl⟩ := List.mem_map.1 mem
      obtain ⟨cage, draw, mark⟩ := same g
      obtain ⟨state, waits⟩ := h.entries g gmem
      rw [cage, (claims _).1, (claims _).2.1, draw]
      exact ⟨state, fun unmarked => waits (mark unmarked)⟩
    distinct := by
      rw [intents, List.map_map, show OwnIntent.cage ∘ f = OwnIntent.cage from funext fun e => (same e).1]
      exact h.distinct
    adopting := fun c adopt => by
      obtain ⟨none, adopting, intents⟩ := h.adopting c adopt
      exact ⟨(claims c).1.trans none, run.trans adopting, empty intents⟩
    loading := fun before => by
      obtain ⟨loading, zero, none, idle, adopt⟩ := h.loading (before.imp (free ▸ ·) (mt phase.2))
      exact ⟨run.trans loading, committed.trans zero, empty none, service idle loading, adopt⟩
    release := by rw [pending]; exact release h.release }

theorem ClaimsKept.refl (s : State) : ClaimsKept s s :=
  ⟨rfl, rfl, Iff.rfl, rfl, fun h _ => h, fun _ => ⟨rfl, rfl, rfl⟩,
    ⟨id, (List.map_id _).symm, fun _ => ⟨rfl, rfl, id⟩⟩, rfl, rfl, id⟩

/-- A change that touches neither the claim unit nor the transmit queue. -/
theorem ClaimsKept.of_units {s t : State} (startup : t.startup = s.startup) (service : t.service = s.service)
    (claims : t.claims = s.claims) (bus : t.bus = s.bus) : ClaimsKept s t := by
  refine { ClaimsKept.refl s with
    conf := by simp only [State.conf, startup]
    held := by rw [startup], phase := by rw [startup], run := by rw [startup]
    service := fun h _ => by rw [service]; exact h
    claims := fun c => by rw [claim_congr claims]; exact ⟨rfl, rfl, rfl⟩
    intents := ⟨id, by rw [claims, List.map_id], fun _ => ⟨rfl, rfl, id⟩⟩
    committed := by rw [claims], pending := by rw [claims], release := by rw [bus]; exact id }

theorem ClaimsKept.of_bus {s : State} (b : BusUnit)
    (queue : QueueKept s.claims.releasePending s.bus.txQueue b.txQueue) : ClaimsKept s { s with bus := b } :=
  { ClaimsKept.refl s with release := releaseFits_kept queue }

theorem dueTest_claims (s : State) : ClaimsKept s (dueTest s) :=
  { ClaimsKept.refl s with }

/-- A change of one cage's state and claim, and of the own intents with it. -/
structure ClaimStep (c : Cage) (s : State) (st : Cage → CageState) (t : State) (new : CageState) : Prop where
  startup   : t.startup = s.startup
  service   : t.service = s.service
  others    : ∀ d, d ≠ c → t.claim d = s.claim d
  total     : t.claims.committed + (s.claim c).share + s.claims.releasePending =
    s.claims.committed + (t.claim c).share + t.claims.releasePending
  bound     : t.claims.committed + 4095 * new.toAdopt ≤ s.claims.committed + 4095 * (st c).toAdopt ∨
    (∀ d, st d ≠ .adopt) ∧ new ≠ .adopt ∧ t.claims.committed ≤ s.conf.budget
  held      : (t.claim c).state = .confirmed ↔ (new = .powerUp ∨ new = .lightSettle)
  listed    : (t.claim c).listed = true → new = .admitWait
  adopt     : new = .adopt → (t.claim c).state = .none ∧ st c = .adopt
  entries   : ∀ e ∈ t.claims.intents, e.cage ≠ c →
    ∃ g ∈ s.claims.intents, g.cage = e.cage ∧ g.draw = e.draw ∧ g.tag = e.tag ∧
      (e.withdrawAtEnd = false → g.withdrawAtEnd = false)
  entry     : ∀ e ∈ t.claims.intents, e.cage = c →
    ((t.claim c).state = .queued ∨ (t.claim c).state = .pending) ∧
    (e.withdrawAtEnd = false → (t.claim c).draw = e.draw ∧ new = .admitWait)
  distinct  : (t.claims.intents.map OwnIntent.cage).Nodup
  empty     : s.claims.intents = [] → s.startup.runState ≠ .running → t.claims.intents = []
  loading   : s.claims.intents = [] → s.startup.runState = .loading → new ≠ .adopt →
    t.claims.committed = s.claims.committed
  release   : releaseFits t.bus.txQueue t.claims.releasePending

theorem ClaimsFor.step {c : Cage} {s t : State} {st : Cage → CageState} {new : CageState}
    (step : ClaimStep c s st t new) (h : ClaimsFor s st) : ClaimsFor t (Function.update st c new) := by
  have other : ∀ d, d ≠ c → Function.update st c new d = st d := fun d ne => Function.update_of_ne ne _ _
  have here : Function.update st c new c = new := Function.update_self _ _ _
  have conf : t.conf = s.conf := by simp only [State.conf, step.startup]
  have shares : t.shares + (s.claim c).share = s.shares + (t.claim c).share :=
    sum_one_changed (f := fun d => (s.claim d).share) (g := fun d => (t.claim d).share) fun d ne => by
      rw [step.others d ne]
  have count : adoptCount (Function.update st c new) + (st c).toAdopt = adoptCount st + new.toAdopt := by
    have changed := sum_one_changed (f := fun d => (st d).toAdopt)
      (g := fun d => (Function.update st c new d).toAdopt) (c := c) fun d ne => by rw [other d ne]
    rw [here] at changed
    exact changed
  have adopts : ∀ d, Function.update st c new d = .adopt → st d = .adopt := fun d adopt => by
    by_cases same : d = c
    · subst same; exact (step.adopt (here.symm.trans adopt)).2
    · rw [← other d same]; exact adopt
  exact {
    total := by have := step.total; have := h.total; omega
    budget := by rw [conf]; exact h.budget
    bound := by
      rw [conf]
      rcases step.bound with le | ⟨none, notNew, le⟩
      · have := h.bound; omega
      · rw [adoptCount_eq_zero fun d adopt => none d (adopts d adopt)]
        omega
    held := fun d => by
      by_cases same : d = c
      · subst same; rw [here]; exact step.held
      · rw [other d same, step.others d same]; exact h.held d
    listed := fun d => by
      by_cases same : d = c
      · subst same; rw [here]; exact step.listed
      · rw [other d same, step.others d same]; exact h.listed d
    entries := fun e mem => by
      by_cases same : e.cage = c
      · rw [same, here]; exact step.entry e mem same
      · obtain ⟨g, mem, cage, draw, _, mark⟩ := step.entries e mem same
        obtain ⟨state, waits⟩ := h.entries g mem
        rw [cage, draw] at waits
        rw [cage] at state
        rw [other _ same, step.others _ same]
        exact ⟨state, fun unmarked => waits (mark unmarked)⟩
    distinct := step.distinct
    adopting := fun d adopt => by
      obtain ⟨none, adopting, intents⟩ := h.adopting d (adopts d adopt)
      refine ⟨?_, by rw [step.startup]; exact adopting, step.empty intents (by rw [adopting]; nofun)⟩
      by_cases same : d = c
      · subst same; exact (step.adopt (here.symm.trans adopt)).1
      · rw [step.others d same]; exact none
    loading := fun before => by
      rw [step.startup] at before ⊢
      obtain ⟨loading, zero, none, idle, adopt⟩ := h.loading before
      have notAdopt : ∀ d, Function.update st c new d ≠ .adopt := fun d is => adopt d (adopts d is)
      refine ⟨loading, ?_, step.empty none (by rw [loading]; nofun), by rw [step.service]; exact idle, notAdopt⟩
      rw [step.loading none loading (here ▸ notAdopt c)]; exact zero
    release := step.release }

end Sys2Proof.Machine
end

section
/-! PROOF. The operations of the claim unit keep its rules (R5, R44, R45, R46, R53, R61, R63). -/

namespace Sys2Proof.Machine

/-! ### The claims of the cages after each operation -/

theorem claim_updClaims {s : State} {f : ClaimUnit → ClaimUnit} (same : (f s.claims).claims = s.claims.claims)
    (c : Cage) : (s.updClaims f).claim c = s.claim c := by
  show ((f s.claims).claims)[c] = s.claims.claims[c]
  rw [same]

theorem claim_setClaim (c : Cage) (st : ClaimState) (s : State) :
    (setClaim c st s).claim c = { s.claim c with state := st } := claim_updClaim _ _ _

theorem claim_setClaim_other {c d : Cage} (other : d ≠ c) (st : ClaimState) (s : State) :
    (setClaim c st s).claim d = s.claim d := claim_updClaim_other _ _ _ _ other

theorem toAdopt_eq_zero {st : CageState} (h : st ≠ .adopt) : st.toAdopt = 0 := if_neg h

/-- A claim that is not confirmed adds nothing to the total. -/
theorem share_eq_zero {k : Claim} (h : k.state ≠ .confirmed) : k.share = 0 := if_neg h

/-- What a cage's new state must be for its claim to be disposed of: neither a state of ADOPT nor one that holds a
confirmed claim. -/
structure CageState.unclaimed (new : CageState) : Prop where
  adopt   : new ≠ .adopt
  powerUp : new ≠ .powerUp
  settle  : new ≠ .lightSettle

theorem CageState.unclaimed.held {new : CageState} (h : new.unclaimed) {st : ClaimState} (free : st ≠ .confirmed) :
    st = .confirmed ↔ (new = .powerUp ∨ new = .lightSettle) :=
  ⟨fun is => absurd is free, fun is => is.elim (absurd · h.powerUp) (absurd · h.settle)⟩

/-- The entries of other cages are what they were. -/
theorem entries_same {s t : State} {c : Cage} (intents : t.claims.intents.Sublist s.claims.intents) :
    ∀ e ∈ t.claims.intents, e.cage ≠ c → ∃ g ∈ s.claims.intents, g.cage = e.cage ∧ g.draw = e.draw ∧
      g.tag = e.tag ∧ (e.withdrawAtEnd = false → g.withdrawAtEnd = false) :=
  fun e mem _ => ⟨e, intents.subset mem, rfl, rfl, rfl, id⟩

/-! ### Cancellation and disposal (R53, R61) -/

theorem removeIntent_release {s : State} {p : Nat} (tag : Tag) (h : releaseFits s.bus.txQueue p) :
    releaseFits (s.bus.removeIntent tag).txQueue p :=
  releaseFits_kept (.of_sublist List.filter_sublist) h

theorem cancelIntent_step {e : OwnIntent} {s : State} {st : Cage → CageState} {new : CageState}
    (h : ClaimsFor s st) (unconfirmed : (s.claim e.cage).state ≠ .confirmed)
    (tags : ∀ f ∈ s.claims.intents, f.cage = e.cage → f.tag = e.tag) (unclaimed : new.unclaimed)
    (listed : (s.claim e.cage).listed = true → new = .admitWait) :
    ClaimStep e.cage s st (cancelIntent e s) new := by
  have claim : (cancelIntent e s).claim e.cage = { s.claim e.cage with state := .none } :=
    claim_setClaim _ _ _
  have sub : (cancelIntent e s).claims.intents.Sublist s.claims.intents := List.filter_sublist
  exact {
    startup := rfl, service := rfl
    others := fun d ne => claim_setClaim_other ne _ _
    total := by
      rw [claim, share_eq_zero unconfirmed, share_eq_zero (k := { s.claim e.cage with state := .none }) nofun]
      rfl
    bound := .inl (by rw [toAdopt_eq_zero unclaimed.adopt]; exact Nat.add_le_add_left (Nat.zero_le _) _)
    held := by rw [claim]; exact unclaimed.held nofun
    listed := by rw [claim]; exact listed
    adopt := (absurd · unclaimed.adopt)
    entries := entries_same sub
    entry := fun f mem cage => by
      obtain ⟨mem, other⟩ := List.mem_filter.1 mem
      exact absurd (tags f mem cage) (by simpa using other)
    distinct := h.distinct.sublist (sub.map _)
    empty := fun none _ => List.sublist_nil.1 (none ▸ sub)
    loading := fun _ _ _ => rfl
    release := removeIntent_release _ h.release }

/-- An entry marked to end in a WITHDRAW binds its cage to nothing (R53). -/
theorem markIntent_step {e : OwnIntent} {s : State} {st : Cage → CageState} {new : CageState}
    (h : ClaimsFor s st) (unconfirmed : (s.claim e.cage).state ≠ .confirmed)
    (tags : ∀ f ∈ s.claims.intents, f.cage = e.cage → f.tag = e.tag) (unclaimed : new.unclaimed)
    (listed : (s.claim e.cage).listed = true → new = .admitWait) :
    ClaimStep e.cage s st (updIntent e.tag OwnIntent.marked s) new := by
  have cages : ∀ f : OwnIntent, (if f.tag = e.tag then f.marked else f).cage = f.cage := fun f => by
    split <;> rfl
  exact {
    startup := rfl, service := rfl
    others := fun d _ => rfl
    total := by rw [show (updIntent e.tag OwnIntent.marked s).claim e.cage = s.claim e.cage from rfl]; rfl
    bound := .inl (by rw [toAdopt_eq_zero unclaimed.adopt]; exact Nat.add_le_add_left (Nat.zero_le _) _)
    held := unclaimed.held unconfirmed
    listed := listed
    adopt := (absurd · unclaimed.adopt)
    entries := fun f mem _ => by
      obtain ⟨g, gmem, rfl⟩ := List.mem_map.1 mem
      refine ⟨g, gmem, ?_⟩
      split
      · exact ⟨rfl, rfl, rfl, nofun⟩
      · exact ⟨rfl, rfl, rfl, id⟩
    entry := fun f mem cage => by
      obtain ⟨g, gmem, rfl⟩ := List.mem_map.1 mem
      rw [cages] at cage
      rw [if_pos (tags g gmem cage)]
      exact ⟨cage ▸ (h.entries g gmem).1, nofun⟩
    distinct := by
      show ((s.claims.intents.map _).map OwnIntent.cage).Nodup
      rw [List.map_map, show OwnIntent.cage ∘ (fun f : OwnIntent => if f.tag = e.tag then f.marked else f) =
        OwnIntent.cage from funext cages]
      exact h.distinct
    empty := fun none _ => by show s.claims.intents.map _ = []; rw [none]; rfl
    loading := fun _ _ _ => rfl
    release := h.release }

theorem abandonIntent_step {e : OwnIntent} {s : State} {st : Cage → CageState} {new : CageState}
    (h : ClaimsFor s st) (unconfirmed : (s.claim e.cage).state ≠ .confirmed)
    (tags : ∀ f ∈ s.claims.intents, f.cage = e.cage → f.tag = e.tag) (unclaimed : new.unclaimed)
    (listed : (s.claim e.cage).listed = true → new = .admitWait) :
    ClaimStep e.cage s st (abandonIntent e s) new := by
  unfold abandonIntent
  split
  · exact markIntent_step h unconfirmed tags unclaimed listed
  · exact cancelIntent_step h unconfirmed tags unclaimed listed

/-- A cage's own intent is the only one of the cage. -/
theorem tags_of_mem {s : State} {st : Cage → CageState} (h : ClaimsFor s st) {e : OwnIntent}
    (mem : e ∈ s.claims.intents) : ∀ f ∈ s.claims.intents, f.cage = e.cage → f.tag = e.tag :=
  fun f memf cage => by rw [List.inj_on_of_nodup_map h.distinct memf mem cage]

theorem unconfirmed_of_mem {s : State} {st : Cage → CageState} (h : ClaimsFor s st) {e : OwnIntent}
    (mem : e ∈ s.claims.intents) : (s.claim e.cage).state ≠ .confirmed := by
  rcases (h.entries e mem).1 with state | state <;> rw [state] <;> nofun

/-- A cage that holds a confirmed claim has no entry. -/
theorem entry_cage_ne {s : State} {st : Cage → CageState} (h : ClaimsFor s st) {c : Cage}
    (confirmed : (s.claim c).state = .confirmed ∨ (s.claim c).state = .none) {e : OwnIntent}
    (mem : e ∈ s.claims.intents) : e.cage ≠ c := by
  rintro rfl
  rcases (h.entries e mem).1 with state | state <;> simp [state] at confirmed

/-- A cage's claim stays as it is while the cage moves. -/
theorem ClaimStep.stays {c : Cage} {s : State} {st : Cage → CageState} {new : CageState} (h : ClaimsFor s st)
    (held : (s.claim c).state = .confirmed ↔ (new = .powerUp ∨ new = .lightSettle)) (adopt : new ≠ .adopt)
    (listed : (s.claim c).listed = true → new = .admitWait)
    (entry : ∀ e ∈ s.claims.intents, e.cage = c → e.withdrawAtEnd = false → new = .admitWait) :
    ClaimStep c s st s new where
  startup := rfl
  service := rfl
  others _ _ := rfl
  total := rfl
  bound := .inl (by rw [toAdopt_eq_zero adopt]; exact Nat.add_le_add_left (Nat.zero_le _) _)
  held := held
  listed := listed
  adopt := (absurd · adopt)
  entries := entries_same (.refl _)
  entry e mem cage := by
    subst cage
    exact ⟨(h.entries e mem).1, fun unmarked => ⟨((h.entries e mem).2 unmarked).1, entry e mem rfl unmarked⟩⟩
  distinct := h.distinct
  empty none _ := none
  loading _ _ _ := rfl
  release := h.release

/-- A confirmed claim released (R44): its d goes from the confirmed part into the release-pending amount. -/
theorem releaseClaim_step {c : Cage} {s : State} {st : Cage → CageState} {new : CageState} (h : ClaimsFor s st)
    (confirmed : (s.claim c).state = .confirmed) (unclaimed : new.unclaimed) :
    ClaimStep c s st (releaseClaim c s) new := by
  have claim : (releaseClaim c s).claim c = { s.claim c with state := .none } := claim_setClaim _ _ _
  have listed : (s.claim c).listed ≠ true := fun listed => by
    have waits := h.listed c listed
    have held := (h.held c).1 confirmed
    simp [waits] at held
  exact {
    startup := rfl, service := rfl
    others := fun d ne => claim_setClaim_other ne _ _
    total := by
      rw [claim, share_eq_zero (k := { s.claim c with state := .none }) nofun,
        show (s.claim c).share = (s.claim c).draw from if_pos confirmed]
      show s.claims.committed + (s.claim c).draw + s.claims.releasePending =
        s.claims.committed + 0 + (s.claims.releasePending + (s.claim c).draw)
      omega
    bound := .inl (by rw [toAdopt_eq_zero unclaimed.adopt]; exact Nat.add_le_add_left (Nat.zero_le _) _)
    held := by rw [claim]; exact unclaimed.held nofun
    listed := by rw [claim]; exact fun is => absurd is listed
    adopt := (absurd · unclaimed.adopt)
    entries := entries_same (.refl _)
    entry := fun e mem cage => absurd cage (entry_cage_ne h (.inl confirmed) mem)
    distinct := h.distinct
    empty := fun none _ => none
    loading := fun _ _ _ => rfl
    release := releaseFits_releaseUp h.release (Nat.le_add_right _ _) }

/-- A cage that leaves the admission list before its move, with its claim disposed of (R61). -/
theorem disposeClaim_step {c : Cage} {s : State} {st : Cage → CageState} {new : CageState} (h : ClaimsFor s st)
    (unclaimed : new.unclaimed) (listed : (s.claim c).listed ≠ true) : ClaimStep c s st (disposeClaim c s) new := by
  have found : (s.claim c).state ≠ .confirmed → ClaimStep c s st
      (match s.claims.intents.find? (fun e => decide (e.cage = c)) with
        | some e => abandonIntent e s
        | none => s) new := fun unconfirmed => by
    split
    next e found =>
      have mem := List.mem_of_find?_eq_some found
      obtain rfl : e.cage = c := by simpa using List.find?_some found
      exact abandonIntent_step h unconfirmed (tags_of_mem h mem) unclaimed fun is => absurd is listed
    next none =>
      refine .stays h (unclaimed.held unconfirmed) unclaimed.adopt (fun is => absurd is listed) fun e mem cage _ => ?_
      exact absurd cage (by simpa using List.find?_eq_none.1 none e mem)
  unfold disposeClaim
  split
  next state =>
    refine .stays h (unclaimed.held (by rw [state]; nofun)) unclaimed.adopt (fun is => absurd is listed) ?_
    exact fun e mem cage => absurd cage (entry_cage_ne h (.inr state) mem)
  next state => exact releaseClaim_step h state unclaimed
  next state => exact found (by rw [state]; nofun)
  next state => exact found (by rw [state]; nofun)

/-- A cage that leaves the admission list keeps its claim (R46). -/
theorem leaveList_for {c : Cage} {s : State} {st : Cage → CageState} (h : ClaimsFor s st) :
    ClaimsFor (leaveList c s) st ∧ ((leaveList c s).claim c).listed ≠ true := by
  have claim : (leaveList c s).claim c = { s.claim c with
      listed := false, backoff := none, withdraws := 0, level := (s.cageConf c).level } := claim_updClaim _ _ _
  have other : ∀ d, d ≠ c → (leaveList c s).claim d = s.claim d := fun d ne => claim_updClaim_other _ _ _ _ ne
  have same : ∀ d, ((leaveList c s).claim d).state = (s.claim d).state ∧
      ((leaveList c s).claim d).draw = (s.claim d).draw := fun d => by
    by_cases is : d = c
    · subst is; rw [claim]; exact ⟨rfl, rfl⟩
    · rw [other d is]; exact ⟨rfl, rfl⟩
  have shares : (leaveList c s).shares = s.shares :=
    congrArg List.sum (List.map_congr_left fun d _ => by simp only [Claim.share, same])
  refine ⟨?_, by rw [claim]; nofun⟩
  exact {
    total := by rw [shares]; exact h.total
    budget := h.budget
    bound := h.bound
    held := fun d => by rw [(same d).1]; exact h.held d
    listed := fun d => by
      by_cases is : d = c
      · subst is; rw [claim]; nofun
      · rw [other d is]; exact h.listed d
    entries := fun e mem => by rw [(same _).1, (same _).2]; exact h.entries e mem
    distinct := h.distinct
    adopting := fun d adopt => by rw [(same d).1]; exact h.adopting d adopt
    loading := h.loading
    release := h.release }

/-- A cage joins the admission list on its entry to ADMIT-WAIT (R46). -/
theorem joinList_step {c : Cage} {draw : Nat} {s : State} {st : Cage → CageState} (h : ClaimsFor s st)
    (unconfirmed : (s.claim c).state ≠ .confirmed) (old : st c ≠ .admitWait) :
    ClaimStep c s st (joinList c draw s) .admitWait := by
  have claim : (joinList c draw s).claim c = { s.claim c with
      draw := draw, level := (s.cageConf c).level, withdraws := 0, listTime := s.startup.stationTime,
      listed := true } := claim_updClaim _ _ _
  exact {
    startup := rfl, service := rfl
    others := fun d ne => claim_updClaim_other _ _ _ _ ne
    total := by
      have joined : ((joinList c draw s).claim c).share = 0 := share_eq_zero (by rw [claim]; exact unconfirmed)
      rw [joined, share_eq_zero unconfirmed]
      rfl
    bound := .inl (Nat.add_le_add_left (Nat.zero_le _) _)
    held := by rw [claim]; exact ⟨fun is => absurd is unconfirmed, fun is => by simp at is⟩
    listed := fun _ => rfl
    adopt := nofun
    entries := entries_same (.refl _)
    entry := fun e mem cage => by
      subst cage
      rw [claim]
      exact ⟨(h.entries e mem).1, fun unmarked => absurd ((h.entries e mem).2 unmarked).2 old⟩
    distinct := h.distinct
    empty := fun none _ => none
    loading := fun _ _ _ => rfl
    release := h.release }

/-! ### The hand-off of the sequencer (R5) -/

/-- A move that the hand-off of R5 knows: not into ADOPT or POWER-UP, and into LIGHT-SETTLE from POWER-UP alone. -/
structure ordinaryMove (old new : CageState) : Prop where
  adopt   : new ≠ .adopt
  powerUp : new ≠ .powerUp
  settle  : new = .lightSettle → old = .powerUp

theorem ordinaryMove.unclaimed {old new : CageState} (h : ordinaryMove old new) (not : old ≠ .powerUp) :
    new.unclaimed := ⟨h.adopt, h.powerUp, fun is => not (h.settle is)⟩

/-- The hand-off of R5 keeps the rules of the claim unit with the cage in its new state. -/
theorem claimHandOff_for {c : Cage} {old new : CageState} {s : State} {st : Cage → CageState} (h : ClaimsFor s st)
    (was : st c = old) (move : ordinaryMove old new) :
    ClaimsFor (claimHandOff c old new s) (Function.update st c new) := by
  have unlisted : old ≠ .admitWait → (s.claim c).listed ≠ true := fun not is => not (was ▸ h.listed c is)
  have unmarked : old ≠ .admitWait → ∀ e ∈ s.claims.intents, e.cage = c → e.withdrawAtEnd = false →
      new = .admitWait := fun not e mem cage mark => by
    subst cage
    exact absurd (was ▸ ((h.entries e mem).2 mark).2) not
  have held := h.held c
  rw [was] at held
  unfold claimHandOff
  split
  next => exact absurd rfl move.powerUp
  next => exact .step (.stays h held nofun (fun _ => rfl) fun _ _ _ _ => rfl) h
  next =>
    obtain ⟨left, listed⟩ := leaveList_for (c := c) h
    exact .step (disposeClaim_step left (move.unclaimed nofun) listed) left
  next => exact .step (releaseClaim_step h (held.2 (.inr rfl)) ⟨nofun, nofun, nofun⟩) h
  next =>
    refine .step (.stays h ?_ nofun (fun is => absurd is (unlisted nofun)) (unmarked nofun)) h
    exact ⟨fun _ => .inr rfl, fun _ => held.2 (.inl rfl)⟩
  next notSettle =>
    exact .step (disposeClaim_step h ⟨move.adopt, move.powerUp, notSettle⟩ (unlisted nofun)) h
  next =>
    exact .step (disposeClaim_step h (move.unclaimed nofun) (unlisted nofun)) h
  next notWait notPower notSettle =>
    have unconfirmed : (s.claim c).state ≠ .confirmed := fun is => (held.1 is).elim notPower notSettle
    split
    · exact .step (joinList_step h unconfirmed (was ▸ notWait)) h
    · exact .step (.stays h (by simp [unconfirmed]) nofun (fun is => absurd is (unlisted notWait)) (unmarked notWait)) h
  next notWait notPower notSettle _ _ _ _ _ =>
    have unconfirmed : (s.claim c).state ≠ .confirmed := fun is => (held.1 is).elim notPower notSettle
    exact .step (.stays h ((move.unclaimed notPower).held unconfirmed) move.adopt
      (fun is => absurd is (unlisted notWait)) (unmarked notWait)) h

/-! ### A move -/

theorem handReport_claims (c : Cage) (s : State) : ClaimsKept s (handReport c s) := by
  unfold handReport
  exact .of_bus _ (.report _ _ _)

theorem ClaimsKept.trans {s t u : State} (h : ClaimsKept s t) (k : ClaimsKept t u) : ClaimsKept s u where
  conf := k.conf.trans h.conf
  held := k.held.trans h.held
  phase := k.phase.trans h.phase
  run := k.run.trans h.run
  service idle loading := k.service (h.service idle loading) (h.run.trans loading)
  claims c := by
    obtain ⟨state, draw, listed⟩ := h.claims c
    obtain ⟨state', draw', listed'⟩ := k.claims c
    exact ⟨state'.trans state, draw'.trans draw, listed'.trans listed⟩
  intents := by
    obtain ⟨f, intents, same⟩ := h.intents
    obtain ⟨g, intents', same'⟩ := k.intents
    refine ⟨g ∘ f, by rw [intents', intents, List.map_map], fun e => ?_⟩
    obtain ⟨cage, draw, mark⟩ := same e
    obtain ⟨cage', draw', mark'⟩ := same' (f e)
    exact ⟨cage'.trans cage, draw'.trans draw, mark ∘ mark'⟩
  committed := k.committed.trans h.committed
  pending := k.pending.trans h.pending
  release fits := by
    have mid := k.release (h.pending ▸ h.release fits)
    rwa [h.pending] at mid

theorem ite_claims {p : Prop} [Decidable p] {s t u : State} (h : ClaimsKept s t) (k : ClaimsKept s u) :
    ClaimsKept s (if p then t else u) := by
  split
  · exact h
  · exact k

theorem updScan_claimsKept (s : State) (c : Cage) (f : CageScan → CageScan) : ClaimsKept s (s.updScan c f) :=
  .of_units rfl rfl rfl rfl

theorem updCage_claimsKept (s : State) (c : Cage) (f : CageRecord → CageRecord) : ClaimsKept s (s.updCage c f) :=
  .of_units rfl rfl rfl rfl

theorem nameSource_claimsKept (c : Cage) (st : CageState) (s : State) : ClaimsKept s (nameSource c st s) :=
  .of_units (by simp) (by simp) (by simp) (by simp)

theorem emptyRequests_claimsKept (c : Cage) (s : State) : ClaimsKept s (emptyRequests c s) :=
  .of_units (by simp) (by simp) (by simp) (by simp)

theorem dropScanOf_claimsKept (c : Cage) (s : State) : ClaimsKept s (dropScanOf c s) :=
  .of_units (by simp) (by simp) (by simp) (by simp)

/-- What a move does after the hand-off of R5 is nothing to the claim unit but the CAGE-REPORT. -/
theorem moveCage_claims (c : Cage) (new : CageState) (cause : FaultCause) (s : State) :
    ClaimsKept (claimHandOff c (s.cage c).state new s) (moveCage c new cause s) := by
  unfold moveCage
  dsimp only
  refine .trans ?_ (ite_claims (.refl _) (handReport_claims c _))
  refine .trans ?_ (ite_claims (updScan_claimsKept _ c _) (.refl _))
  refine .trans ?_ (updCage_claimsKept _ c _)
  refine .trans ?_ (nameSource_claimsKept c new _)
  refine .trans ?_ (ite_claims (emptyRequests_claimsKept c _) (.refl _))
  exact ite_claims (.refl _) (dropScanOf_claimsKept c _)

theorem states_moveCage (c : Cage) (new : CageState) (cause : FaultCause) (s : State) :
    (moveCage c new cause s).states = Function.update s.states c new := by
  funext d
  by_cases same : d = c
  · subst same; rw [Function.update_self]; exact moveCage_state _ _ _ _
  · rw [Function.update_of_ne same, State.states, (moveCage_other same _ _ _).1]; rfl

/-- A move keeps the rules of the claim unit. -/
theorem ClaimsFor.moveCage {c : Cage} {new : CageState} {cause : FaultCause} {s : State} (h : ClaimsFor s s.states)
    (move : ordinaryMove (s.cage c).state new) :
    ClaimsFor (moveCage c new cause s) (Sys2Proof.Machine.moveCage c new cause s).states := by
  rw [states_moveCage]
  exact .of_kept (moveCage_claims c new cause s) (claimHandOff_for h rfl move)

end Sys2Proof.Machine
end

section
/-! PROOF. Every step keeps the claim unit's rules (R43, R46, R53, R57 to R59, R61, R63, R85, R188). -/

namespace Sys2Proof.Machine

/-! ### Judgements, windows and intents -/

theorem no_adopt_of_intents {s : State} {st : Cage → CageState} (h : ClaimsFor s st) {e : OwnIntent}
    (mem : e ∈ s.claims.intents) (d : Cage) : st d ≠ .adopt := fun adopt => by
  rw [(h.adopting d adopt).2.2] at mem
  cases mem

/-- A cage without a confirmed claim is in no state that holds one. -/
theorem unclaimed_of_unconfirmed {s : State} {st : Cage → CageState} (h : ClaimsFor s st) {c : Cage}
    (adopt : st c ≠ .adopt) (unconfirmed : (s.claim c).state ≠ .confirmed) : (st c).unclaimed :=
  ⟨adopt, fun is => unconfirmed ((h.held c).2 (.inl is)), fun is => unconfirmed ((h.held c).2 (.inr is))⟩

/-- A step in which the cage stays in its state. -/
theorem ClaimsFor.stay {c : Cage} {s t : State} {st : Cage → CageState} (h : ClaimsFor s st)
    (step : ClaimStep c s st t (st c)) : ClaimsFor t st := by
  have after := ClaimsFor.step step h
  rwa [Function.update_eq_self] at after

theorem intents_without {s : State} (tag : Tag) :
    (dropIntent tag s).claims.intents = s.claims.intents.filter (fun e => decide (e.tag ≠ tag)) := rfl

/-- What is left of the own intents after one has gone is of other cages. -/
theorem cage_ne_of_dropped {s : State} {st : Cage → CageState} (h : ClaimsFor s st) {e f : OwnIntent}
    (mem : e ∈ s.claims.intents) (left : f ∈ (dropIntent e.tag s).claims.intents) : f.cage ≠ e.cage := fun cage => by
  obtain ⟨memf, other⟩ := List.mem_filter.1 left
  exact absurd (tags_of_mem h mem f memf cage) (by simpa using other)

/-- A frame that releases nothing changes nothing about the RELEASE of the queue. -/
theorem releaseFits_place_other {b : BusUnit} {f : TxFrame} {p : Nat} (other : f.body.isRelease = false)
    (h : releaseFits b.txQueue p) : releaseFits (b.place f).txQueue p := by
  rcases place_txQueue b f with same | ⟨q, sub, _, _, releases, placed⟩
  · rw [same]; exact h
  · rw [placed]
    refine ⟨?_, fun g mem own a body => ?_⟩
    · rw [releasesOf, List.filter_append, List.filter_cons_of_neg (by simp [other]), List.filter_nil, List.append_nil]
      exact (releases ▸ h.1 : (releasesOf q).length ≤ 1)
    · rcases List.mem_append.1 mem with mem | mem
      · exact h.2 g (sub.subset mem) own a body
      · cases List.mem_singleton.1 mem
        rw [body] at other
        cases other

/-- A withdrawal is the entry gone, a WITHDRAW queued, and the claim at NONE (R59). -/
theorem withdrawIntent_eq (e : OwnIntent) (s : State) :
    ∃ g : Claim → Claim, (∀ k, (g k).state = .none ∧ (g k).draw = k.draw ∧ (g k).listed = k.listed) ∧
      withdrawIntent e s = dueTest ((queueFrame e.level (.withdraw e.tag e.draw) (dropIntent e.tag s)).updClaim
        e.cage g) := by
  unfold withdrawIntent
  dsimp only
  split
  · exact ⟨Claim.withdrawn s.conf (s.cageConf e.cage).pinned s.startup.station, fun k => ⟨rfl, rfl, rfl⟩, rfl⟩
  · exact ⟨fun k => { k with state := .none }, fun k => ⟨rfl, rfl, rfl⟩, rfl⟩

theorem withdrawIntent_step {e : OwnIntent} {s : State} {st : Cage → CageState} (h : ClaimsFor s st)
    (mem : e ∈ s.claims.intents) : ClaimStep e.cage s st (withdrawIntent e s) (st e.cage) := by
  have unconfirmed := unconfirmed_of_mem h mem
  have unclaimed := unclaimed_of_unconfirmed h (no_adopt_of_intents h mem _) unconfirmed
  obtain ⟨g, same, eq⟩ := withdrawIntent_eq e s
  obtain ⟨none, _, listed⟩ := same (s.claim e.cage)
  have claim : (withdrawIntent e s).claim e.cage = g (s.claim e.cage) := by rw [eq]; exact claim_updClaim _ _ _
  have claims : (withdrawIntent e s).claims.intents = (dropIntent e.tag s).claims.intents ∧
      (withdrawIntent e s).claims.committed = s.claims.committed ∧
      (withdrawIntent e s).claims.releasePending = s.claims.releasePending := by rw [eq]; exact ⟨rfl, rfl, rfl⟩
  obtain ⟨intents, committed, pending⟩ := claims
  have sub : (withdrawIntent e s).claims.intents.Sublist s.claims.intents := by
    rw [intents]; exact List.filter_sublist
  exact {
    startup := by simp
    service := by simp
    others := fun d ne => by rw [eq]; exact claim_updClaim_other _ _ _ _ ne
    total := by
      have free : ((withdrawIntent e s).claim e.cage).share = 0 := share_eq_zero (by rw [claim, none]; nofun)
      rw [free, share_eq_zero unconfirmed, committed, pending]
    bound := .inl (by rw [committed])
    held := by rw [claim]; exact unclaimed.held (by rw [none]; nofun)
    listed := by rw [claim, listed]; exact h.listed e.cage
    adopt := (absurd · unclaimed.adopt)
    entries := entries_same sub
    entry := fun f left cage => absurd cage (cage_ne_of_dropped h mem (intents ▸ left))
    distinct := h.distinct.sublist (sub.map _)
    empty := fun none _ => List.sublist_nil.1 (none ▸ sub)
    loading := fun _ _ _ => committed
    release := by
      rw [pending, show (withdrawIntent e s).bus = s.bus.place (newFrame e.level (.withdraw e.tag e.draw)) by
        rw [eq]; rfl]
      exact releaseFits_place_other rfl h.release }

theorem sumAdd_le_iff {a b n : Nat} (small : n < 2097151) (h : sumAdd a b ≤ n) : a + b ≤ n := by
  unfold sumAdd satAdd at h
  omega

theorem le_peerSum {s : State} {start n : Nat} {counted : Station → PeerIntent → Bool} (small : n < 2097151)
    (h : s.peerSum start counted ≤ n) : start ≤ n := by
  unfold State.peerSum at h
  generalize List.finRange 32 = l at h
  induction l generalizing start with
  | nil => exact h
  | cons m l ih =>
    have le := ih h
    dsimp only at le
    split at le
    · exact le
    · exact (Nat.le_add_right _ _).trans (sumAdd_le_iff small le)

/-- A confirm sum within the budget leaves room for the confirmed d (R57). -/
theorem room_of_confirmSum {s : State} {e : OwnIntent} {n : Nat} (small : n < 2097151)
    (h : s.confirmSum e ≤ n) : s.claims.committed + e.draw ≤ n := by
  have all := sumAdd_le_iff small h
  have own := le_peerSum (n := n - e.draw) (by omega) (Nat.le_sub_of_add_le all)
  have committed := sumAdd_le_iff (by omega) own
  omega

/-- The state in which a confirmed intent's cage moves (R58). -/
def confirmedState (e : OwnIntent) (s : State) : State :=
  leaveList e.cage (queueFrame e.level (.confirm e.tag e.draw)
    ((setClaim e.cage .confirmed (dropIntent e.tag s)).updClaims
      (fun k => { k with committed := k.committed + e.draw })))

theorem confirmedState_claim (e : OwnIntent) (s : State) :
    (confirmedState e s).claim e.cage = { s.claim e.cage with
      state := .confirmed, listed := false, backoff := none, withdraws := 0,
      level := (s.cageConf e.cage).level } := by
  show State.claim (State.updClaim (queueFrame e.level (.confirm e.tag e.draw)
    ((setClaim e.cage .confirmed (dropIntent e.tag s)).updClaims
      (fun k => { k with committed := k.committed + e.draw }))) e.cage _) e.cage = _
  rw [claim_updClaim, show State.claim (queueFrame e.level (.confirm e.tag e.draw)
    ((setClaim e.cage .confirmed (dropIntent e.tag s)).updClaims
      (fun k => { k with committed := k.committed + e.draw }))) e.cage =
    (setClaim e.cage .confirmed (dropIntent e.tag s)).claim e.cage from rfl, claim_setClaim]
  rfl

theorem confirmedState_claim_other {e : OwnIntent} {d : Cage} (other : d ≠ e.cage) (s : State) :
    (confirmedState e s).claim d = s.claim d :=
  (claim_updClaim_other _ _ _ _ other).trans (claim_updClaim_other _ _ _ _ other)

theorem confirmedState_units (e : OwnIntent) (s : State) :
    (confirmedState e s).startup = s.startup ∧ (confirmedState e s).service = s.service ∧
    (confirmedState e s).cages = s.cages ∧
    (confirmedState e s).bus = s.bus.place (newFrame e.level (.confirm e.tag e.draw)) := ⟨rfl, rfl, rfl, rfl⟩

theorem confirmedState_unit (e : OwnIntent) (s : State) :
    (confirmedState e s).claims.intents = (dropIntent e.tag s).claims.intents ∧
    (confirmedState e s).claims.committed = s.claims.committed + e.draw ∧
    (confirmedState e s).claims.releasePending = s.claims.releasePending := ⟨rfl, rfl, rfl⟩

theorem confirmedState_step {e : OwnIntent} {s : State} {st : Cage → CageState} (h : ClaimsFor s st)
    (mem : e ∈ s.claims.intents) (unmarked : e.withdrawAtEnd = false) (sum : s.confirmSum e ≤ s.conf.budget) :
    ClaimStep e.cage s st (confirmedState e s) .powerUp := by
  have unconfirmed := unconfirmed_of_mem h mem
  obtain ⟨draw, _⟩ := (h.entries e mem).2 unmarked
  have claim := confirmedState_claim e s
  obtain ⟨startup, service, _, bus⟩ := confirmedState_units e s
  obtain ⟨intents, committed, pending⟩ := confirmedState_unit e s
  have sub : (confirmedState e s).claims.intents.Sublist s.claims.intents := by
    rw [intents]; exact List.filter_sublist
  have share : ((confirmedState e s).claim e.cage).share = e.draw := by rw [claim, ← draw]; rfl
  exact {
    startup := startup, service := service
    others := fun d ne => confirmedState_claim_other ne s
    total := by rw [share, share_eq_zero unconfirmed, committed, pending, Nat.add_zero]
    bound := .inr ⟨no_adopt_of_intents h mem, nofun, committed ▸ room_of_confirmSum
      (Nat.lt_of_le_of_lt h.budget (by decide)) sum⟩
    held := by rw [claim]; simp
    listed := by rw [claim]; nofun
    adopt := nofun
    entries := entries_same sub
    entry := fun f left cage => absurd cage (cage_ne_of_dropped h mem (intents ▸ left))
    distinct := h.distinct.sublist (sub.map _)
    empty := fun none _ => List.sublist_nil.1 (none ▸ sub)
    loading := fun none _ _ => by rw [none] at mem; cases mem
    release := by rw [bus, pending]; exact releaseFits_place_other rfl h.release }

theorem judgeIntent_for {e : OwnIntent} {s : State} (h : ClaimsFor s s.states) (mem : e ∈ s.claims.intents) :
    ClaimsFor (judgeIntent e s) (judgeIntent e s).states := by
  unfold judgeIntent
  split
  next good =>
    obtain ⟨sum, unmarked⟩ := good
    have waits : (s.cage e.cage).state = .admitWait := ((h.entries e mem).2 unmarked).2
    obtain ⟨_, _, cages, _⟩ := confirmedState_units e s
    have moved : confirmIntent e s = moveCage e.cage .powerUp .none (confirmedState e s) := if_pos waits
    have kept := moveCage_claims e.cage .powerUp .none (confirmedState e s)
    rw [cage_congr cages, waits] at kept
    rw [moved, states_moveCage, show (confirmedState e s).states = s.states from
      funext fun d => congrArg CageRecord.state (cage_congr cages d)]
    exact .of_kept kept (ClaimsFor.step (confirmedState_step h mem unmarked sum) h)
  · have same : (withdrawIntent e s).states = s.states := by
      funext d
      exact congrArg CageRecord.state (cage_congr (by simp) d)
    rw [same]
    exact h.stay (withdrawIntent_step h mem)

theorem openWindow_step {e : OwnIntent} {s : State} {st : Cage → CageState} (h : ClaimsFor s st)
    (mem : e ∈ s.claims.intents) : ClaimStep e.cage s st (openWindow e s) (st e.cage) := by
  have unconfirmed := unconfirmed_of_mem h mem
  have unclaimed := unclaimed_of_unconfirmed h (no_adopt_of_intents h mem _) unconfirmed
  have claim : (openWindow e s).claim e.cage = { s.claim e.cage with state := .pending } := claim_updClaim _ _ _
  have intents : (openWindow e s).claims.intents =
      (dropIntent e.tag s).claims.intents ++ [{ e with deadline := some s.conf.window }] := rfl
  have sub : (dropIntent e.tag s).claims.intents.Sublist s.claims.intents := List.filter_sublist
  exact {
    startup := rfl, service := rfl
    others := fun d ne => claim_updClaim_other _ _ _ _ ne
    total := by
      have free : ((openWindow e s).claim e.cage).share = 0 := share_eq_zero (by rw [claim]; nofun)
      rw [free, share_eq_zero unconfirmed]
      rfl
    bound := .inl le_rfl
    held := by rw [claim]; exact unclaimed.held nofun
    listed := by rw [claim]; exact h.listed e.cage
    adopt := (absurd · unclaimed.adopt)
    entries := fun f left cage => by
      rw [intents] at left
      rcases List.mem_append.1 left with left | left
      · exact ⟨f, sub.subset left, rfl, rfl, rfl, id⟩
      · cases List.mem_singleton.1 left
        exact absurd rfl cage
    entry := fun f left cage => by
      rw [intents] at left
      rcases List.mem_append.1 left with left | left
      · exact absurd cage (cage_ne_of_dropped h mem left)
      · cases List.mem_singleton.1 left
        rw [claim]
        exact ⟨.inr rfl, (h.entries e mem).2⟩
    distinct := by
      rw [intents, List.map_append, List.map_singleton, List.nodup_append_comm]
      refine List.nodup_cons.2 ⟨fun again => ?_, h.distinct.sublist (sub.map _)⟩
      obtain ⟨f, left, cage⟩ := List.mem_map.1 again
      exact cage_ne_of_dropped h mem left cage
    empty := fun none _ => by rw [none] at mem; cases mem
    loading := fun _ _ _ => rfl
    release := h.release }

theorem candidate_listed {s : State} {c : Cage} (h : s.candidate = some c) : (s.claim c).listed = true := by
  have mem := List.mem_of_find?_eq_some h
  rw [State.admissionList, (sortByKey_perm _ _).mem_iff] at mem
  exact (List.mem_filter.1 mem).2

theorem queueIntent_step {c : Cage} {s : State} {st : Cage → CageState} (h : ClaimsFor s st)
    (chosen : s.candidate = some c) (passes : s.testPasses c = true) :
    ClaimStep c s st (queueIntent c s) (st c) := by
  have idle : (s.claim c).state = .none := candidate_none chosen
  have waits := h.listed c (candidate_listed chosen)
  have running : s.startup.runState = .running := by
    simp only [State.testPasses, Bool.and_eq_true, decide_eq_true_eq] at passes
    exact passes.1.1.1.1
  have claim : (queueIntent c s).claim c = { s.claim c with state := .queued } := claim_setClaim _ _ _
  have intents : (queueIntent c s).claims.intents = s.claims.intents ++
      [{ tag := s.claims.lastTag + 1, cage := c, draw := (s.claim c).draw, level := (s.claim c).level,
         deadline := none, noted := none, withdrawAtEnd := false }] := rfl
  exact {
    startup := rfl, service := rfl
    others := fun d ne => claim_setClaim_other ne _ _
    total := by
      have free : ((queueIntent c s).claim c).share = 0 := share_eq_zero (by rw [claim]; nofun)
      rw [free, share_eq_zero (by rw [idle]; nofun)]
      rfl
    bound := .inl le_rfl
    held := by rw [claim, waits]; simp
    listed := fun _ => waits
    adopt := fun adopt => by rw [waits] at adopt; cases adopt
    entries := fun f mem cage => by
      rw [intents] at mem
      rcases List.mem_append.1 mem with mem | mem
      · exact ⟨f, mem, rfl, rfl, rfl, id⟩
      · cases List.mem_singleton.1 mem
        exact absurd rfl cage
    entry := fun f mem cage => by
      rw [intents] at mem
      rcases List.mem_append.1 mem with mem | mem
      · exact absurd cage (entry_cage_ne h (.inr idle) mem)
      · cases List.mem_singleton.1 mem
        rw [claim]
        exact ⟨.inl rfl, fun _ => ⟨rfl, waits⟩⟩
    distinct := by
      rw [intents, List.map_append, List.map_singleton, List.nodup_append_comm]
      refine List.nodup_cons.2 ⟨fun again => ?_, h.distinct⟩
      obtain ⟨f, mem, cage⟩ := List.mem_map.1 again
      exact entry_cage_ne h (.inr idle) mem cage
    empty := fun _ not => absurd running not
    loading := fun _ _ _ => rfl
    release := releaseFits_place_other rfl h.release }

end Sys2Proof.Machine
end

section
/-! PROOF. The committed total keeps to its sum at every step (R43 to R45, R58, R59, R63, R85, R188). -/

namespace Sys2Proof.Machine

/-! ### Every own intent abandoned (R63, R64) -/

/-- What the abandoning of the own intents asks of those still to come: none of a confirmed claim, and each of a cage
whose entries all have its tag. -/
structure AbandonsRest (s : State) (st : Cage → CageState) (rest : List OwnIntent) : Prop where
  rules       : ClaimsFor s st
  unconfirmed : ∀ e ∈ rest, (s.claim e.cage).state ≠ .confirmed
  tags        : ∀ e ∈ rest, ∀ f ∈ s.claims.intents, f.cage = e.cage → f.tag = e.tag
  distinct    : (rest.map OwnIntent.cage).Nodup

theorem abandonsRest_step {e : OwnIntent} {rest : List OwnIntent} {s : State} {st : Cage → CageState}
    (none : ∀ d, st d ≠ .adopt) (h : AbandonsRest s st (e :: rest)) :
    AbandonsRest (abandonIntent e s) st rest := by
  obtain ⟨rules, unconfirmed, tags, distinct⟩ := h
  obtain ⟨new, distinct⟩ := List.nodup_cons.1 distinct
  have free := unconfirmed e List.mem_cons_self
  have step := abandonIntent_step rules free (tags e List.mem_cons_self)
    (unclaimed_of_unconfirmed rules (none _) free) (rules.listed e.cage)
  have other : ∀ f ∈ rest, f.cage ≠ e.cage := fun f mem same => new (same ▸ List.mem_map_of_mem mem)
  refine ⟨rules.stay step, fun f mem => ?_, fun f mem g left cage => ?_, distinct⟩
  · rw [step.others _ (other f mem)]; exact unconfirmed f (List.mem_cons_of_mem _ mem)
  · obtain ⟨g', mem', cage', _, tag, _⟩ := step.entries g left (cage ▸ other f mem)
    rw [← tag]
    exact tags f (List.mem_cons_of_mem _ mem) g' mem' (cage'.trans cage)

theorem abandonAll_for {s : State} {st : Cage → CageState} (h : ClaimsFor s st) :
    ClaimsFor (abandonAll s) st := by
  unfold abandonAll
  cases intents : s.claims.intents with
  | nil => exact h
  | cons e rest =>
    have none := no_adopt_of_intents h (e := e) (by rw [intents]; exact List.mem_cons_self)
    have start : AbandonsRest s st s.claims.intents :=
      ⟨h, fun e mem => unconfirmed_of_mem h mem, fun e mem => tags_of_mem h mem, h.distinct⟩
    have all : ∀ (l : List OwnIntent) (u : State), AbandonsRest u st l →
        ClaimsFor (l.foldl (fun s e => abandonIntent e s) u) st := by
      intro l
      induction l with
      | nil => exact fun u h => h.rules
      | cons e l ih => exact fun u h => ih _ (abandonsRest_step none h)
    exact intents ▸ all _ _ start

theorem judgeHealth_for {s : State} {st : Cage → CageState} (h : ClaimsFor s st) :
    ClaimsFor (judgeHealth s) st := by
  have judged : ClaimsFor (s.updBus BusUnit.judged) st := .of_kept (.of_bus _ (.refl _ _)) h
  unfold judgeHealth healthReport
  split
  · exact judged
  · split
    · exact abandonAll_for judged
    · exact .of_kept (dueTest_claims _) judged
    · exact judged
    · exact judged

/-! ### A RELEASE sent (R44) -/

/-- The own intents abandoned leave the release-pending amount, and no frame joins the queue. -/
theorem abandonAll_queue (s : State) : (abandonAll s).claims.releasePending = s.claims.releasePending ∧
    (abandonAll s).bus.txQueue.Sublist s.bus.txQueue := by
  refine foldl_invariant (fun u : State => u.claims.releasePending = s.claims.releasePending ∧
    u.bus.txQueue.Sublist s.bus.txQueue) (fun s e => abandonIntent e s) ?_ _ s ⟨rfl, .refl _⟩
  rintro u e ⟨pending, sub⟩
  unfold abandonIntent
  split
  · exact ⟨pending, sub⟩
  · exact ⟨pending, List.filter_sublist.trans sub⟩

theorem judgeHealth_queue (s : State) : (judgeHealth s).claims.releasePending = s.claims.releasePending ∧
    (judgeHealth s).bus.txQueue.Sublist s.bus.txQueue := by
  have judged : (s.updBus BusUnit.judged).claims.releasePending = s.claims.releasePending ∧
      (s.updBus BusUnit.judged).bus.txQueue = s.bus.txQueue := ⟨rfl, rfl⟩
  unfold judgeHealth healthReport
  split
  · exact ⟨rfl, .refl _⟩
  · split
    · obtain ⟨pending, sub⟩ := abandonAll_queue (s.updBus BusUnit.judged)
      exact ⟨pending, sub⟩
    all_goals exact ⟨rfl, .refl _⟩

/-- The one RELEASE of the part's own that leaves the queue leaves none. -/
theorem releases_eraseIdx {q : List TxFrame} {i p amount : Nat} {f : TxFrame} (h : releaseFits q p)
    (at_ : q[i]? = some f) (own : f.mark ≠ .detached) (body : f.body = .release amount) :
    releasesOf (q.eraseIdx i) = [] := by
  obtain ⟨lt, is⟩ := List.getElem?_eq_some_iff.1 at_
  have perm := (List.getElem_cons_eraseIdx_perm lt).filter
    (fun f => decide (f.mark ≠ .detached) && f.body.isRelease)
  rw [is, List.filter_cons_of_pos (by simp [own, body, FrameBody.isRelease])] at perm
  have one := h.1
  rw [releasesOf, ← perm.length_eq, List.length_cons] at one
  exact List.length_eq_zero_iff.1 (by rw [releasesOf]; omega)

theorem releases_sent {b : BusUnit} {i p amount : Nat} {f : TxFrame} (h : releaseFits b.txQueue p)
    (at_ : b.txQueue[i]? = some f) (own : f.mark ≠ .detached) (body : f.body = .release amount) :
    releasesOf (b.sent i f).txGood.txQueue = [] := by
  rw [(BusUnit.txGood_queues _).1]
  have renewed : renewal b.statusRenew f = [] := by
    obtain ⟨level, body', mark, follow⟩ := f
    cases body
    rfl
  show releasesOf (b.txQueue.eraseIdx i ++ renewal b.statusRenew f) = []
  rw [renewed, List.append_nil]
  exact releases_eraseIdx h at_ own body

theorem releaseSent_for {amount : Nat} {s : State} {st : Cage → CageState} (h : ClaimsFor s st)
    (le : amount ≤ s.claims.releasePending) (none : releasesOf s.bus.txQueue = []) :
    ClaimsFor (releaseSent amount s) st := by
  have lowered : ClaimsFor (dueTest (s.updClaims (fun k =>
      { k with releasePending := s.claims.releasePending - amount, committed := k.committed - amount }))) st := {
    total := by
      show s.claims.committed - amount = s.shares + (s.claims.releasePending - amount)
      have := h.total
      omega
    budget := h.budget
    bound := by
      have := h.bound
      show s.claims.committed - amount + 4095 * adoptCount st ≤ max 65520 s.conf.budget
      omega
    held := h.held
    listed := h.listed
    entries := h.entries
    distinct := h.distinct
    adopting := h.adopting
    loading := fun before => by
      obtain ⟨loading, zero, rest⟩ := h.loading before
      exact ⟨loading, by show s.claims.committed - amount = 0; omega, rest⟩
    release := by
      show releaseFits s.bus.txQueue (s.claims.releasePending - amount)
      refine ⟨by rw [none]; exact Nat.zero_le _, fun f mem own a body => ?_⟩
      refine absurd ?_ (List.filter_eq_nil_iff.1 none f mem)
      simp [own, body, FrameBody.isRelease] }
  unfold releaseSent
  dsimp only
  split
  · exact lowered
  · refine .of_kept ?_ lowered
    exact { ClaimsKept.refl _ with release := fun fits => releaseFits_releaseUp fits le_rfl }

/-! ### The load, the Restart and the end of an adoption (R12, R45, R185, R188) -/

theorem loadCage_for {s : State} (c : Cage) (h : ClaimsFor s s.states) :
    ClaimsFor (loadCage s c) (loadCage s c).states := by
  unfold loadCage
  repeat' split
  · exact h.moveCage ⟨nofun, nofun, nofun⟩
  · exact h.moveCage ⟨nofun, nofun, nofun⟩
  · exact h

theorem installSettings_claim (k : Settings) (s : State) (c : Cage) :
    (installSettings k s).claim c = { s.claim c with level := k.cages[c].level } := by
  simp [State.claim, installSettings]

theorem installSettings_unit (k : Settings) (s : State) :
    (installSettings k s).states = s.states ∧ (installSettings k s).conf = k ∧
    (installSettings k s).claims.committed = s.claims.committed ∧
    (installSettings k s).claims.intents = s.claims.intents ∧
    (installSettings k s).claims.releasePending = s.claims.releasePending ∧
    (installSettings k s).bus.txQueue = s.bus.txQueue := ⟨rfl, rfl, rfl, rfl, rfl, rfl⟩

theorem installSettings_for {k : Settings} {s : State} (free : s.startup.resetHeld = false)
    (loading : s.startup.loadPhase ≠ .done) (budget : k.budget ≤ 65535) (h : ClaimsFor s s.states) :
    ClaimsFor (installSettings k s) (installSettings k s).states := by
  obtain ⟨_, zero, none, _, adopt⟩ := h.loading (.inr loading)
  have claim := installSettings_claim k s
  obtain ⟨states, conf, committed, intents, pending, queue⟩ := installSettings_unit k s
  have shares : (installSettings k s).shares = s.shares :=
    congrArg List.sum (List.map_congr_left fun c _ => by simp only [Claim.share, claim])
  rw [states]
  exact {
    total := by rw [shares, committed, pending]; exact h.total
    budget := by rw [conf]; exact budget
    bound := by rw [committed, zero, adoptCount_eq_zero adopt]; exact Nat.zero_le _
    held := fun c => by rw [claim]; exact h.held c
    listed := fun c => by rw [claim]; exact h.listed c
    entries := fun e mem => by rw [intents, none] at mem; cases mem
    distinct := by rw [intents]; exact h.distinct
    adopting := fun c is => absurd is (adopt c)
    loading := fun before => by
      rcases before with held | undone
      · exact absurd (free.symm.trans held) (by simp)
      · exact absurd rfl undone
    release := by rw [queue, pending]; exact h.release }

theorem clearBlocks_for {clocks : ClockHold} {s : State} (budget : s.conf.budget ≤ 65535)
    (loaded : ¬(s.startup.resetHeld = true ∨ s.startup.loadPhase ≠ .done)) :
    ClaimsFor (clearBlocks clocks s) (clearBlocks clocks s).states := by
  have claim : ∀ c, (clearBlocks clocks s).claim c = resetClaim (s.cageConf c).level := fun c => by
    simp [State.claim, clearBlocks, resetClaims]
  have state : ∀ c, (clearBlocks clocks s).states c = .adopt ∨ (clearBlocks clocks s).states c = .disabled :=
    fun c => by
      rw [State.states, cage_clearBlocks]
      cases (s.cageConf c).enabled
      · exact .inr rfl
      · exact .inl rfl
  exact {
    total := by
      have none : (clearBlocks clocks s).shares = 0 := List.sum_eq_zero fun n mem => by
        obtain ⟨c, _, rfl⟩ := List.mem_map.1 mem
        rw [claim]
        rfl
      rw [none]
      rfl
    budget := budget
    bound := by
      have most := adoptCount_le (clearBlocks clocks s).states
      have zero : (clearBlocks clocks s).claims.committed = 0 := rfl
      omega
    held := fun c => by rw [claim]; rcases state c with is | is <;> simp [is, resetClaim]
    listed := fun c => by rw [claim]; nofun
    entries := fun e mem => nomatch mem
    distinct := .nil
    adopting := fun c _ => ⟨by rw [claim]; rfl, rfl, rfl⟩
    loading := fun before => absurd before loaded
    release := by
      have detached : ∀ f ∈ (clearBlocks clocks s).bus.txQueue, f.mark = .detached := fun f mem => by
        obtain ⟨g, _, rfl⟩ := List.mem_map.1 mem
        rfl
      refine ⟨?_, fun f mem own => absurd (detached f mem) own⟩
      rw [releasesOf, List.filter_eq_nil_iff.2 fun f mem => by simp [detached f mem]]
      exact Nat.zero_le _ }

theorem adoptClaim_step {c : Cage} {draw : Nat} {s : State} {st : Cage → CageState} (h : ClaimsFor s st)
    (adopt : st c = .adopt) (most : draw ≤ 4095) : ClaimStep c s st (adoptClaim c draw s) .lightSettle := by
  obtain ⟨idle, adopting, none⟩ := h.adopting c adopt
  have claim : (adoptClaim c draw s).claim c = { s.claim c with state := .confirmed, draw := draw } :=
    claim_updClaim _ _ _
  have share : ((adoptClaim c draw s).claim c).share = draw := by rw [claim]; rfl
  have committed : (adoptClaim c draw s).claims.committed = s.claims.committed + draw := rfl
  exact {
    startup := rfl, service := rfl
    others := fun d ne => claim_updClaim_other _ _ _ _ ne
    total := by
      rw [share, share_eq_zero (by rw [idle]; nofun)]
      rfl
    bound := .inl (by
      rw [committed, adopt]
      show s.claims.committed + draw + 4095 * 0 ≤ s.claims.committed + 4095 * 1
      omega)
    held := by rw [claim]; simp
    listed := by
      rw [claim]
      exact fun is => absurd (adopt.symm.trans (h.listed c is)) nofun
    adopt := nofun
    entries := entries_same (.refl _)
    entry := fun e mem => by
      have mem : e ∈ s.claims.intents := mem
      rw [none] at mem
      cases mem
    distinct := h.distinct
    empty := fun none _ => none
    loading := fun _ loading => absurd (adopting.symm.trans loading) nofun
    release := h.release }

/-! ### Every act -/

theorem states_congr {s t : State} (cages : t.cages = s.cages) : t.states = s.states :=
  funext fun c => congrArg CageRecord.state (cage_congr cages c)

/-- A change that leaves the cages in their states. -/
theorem claims_kept {s t : State} (states : t.states = s.states) (kept : ClaimsKept s t)
    (h : ClaimsFor s s.states) : ClaimsFor t t.states := by
  rw [states]; exact .of_kept kept h

theorem latchAll_claims (s : State) : ClaimsKept s (allCages.foldl latchEnabled s) :=
  .of_units (latchAll_rest s).1
    (foldl_keeps State.service _ (fun s c => by unfold latchEnabled; split <;> rfl) _ _)
    (foldl_keeps State.claims _ (fun s c => by unfold latchEnabled; split <;> rfl) _ _)
    (foldl_keeps State.bus _ (fun s c => by unfold latchEnabled; split <;> rfl) _ _)

theorem startSettling_claims (c : Cage) (s : State) : ClaimsKept s (startSettling c s) :=
  .of_units (by simp) (by simp) (by simp) (by simp)

theorem states_updCage {c : Cage} {f : CageRecord → CageRecord} {s : State}
    (state : (f (s.cage c)).state = (s.cage c).state) : (s.updCage c f).states = s.states := by
  funext d
  by_cases same : d = c
  · subst same; rw [State.states, cage_updCage]; exact state
  · rw [State.states, cage_updCage_other _ _ _ _ same]; rfl

theorem states_startSettling (c : Cage) (s : State) : (startSettling c s).states = s.states := by
  unfold startSettling wantTx ask
  rw [states_updCage rfl, states_congr (clearWindows_cages c _).cages, states_updCage rfl, states_updCage rfl]

/-- The claim unit's rules hold of a state. -/
def State.claimsFor (s : State) : Prop := ClaimsFor s s.states

theorem claims_act {s t : State} (act : Act s t) (h : s.claimsFor) : t.claimsFor := by
  cases act with
  | startup u held settings profile phase run =>
    have states : State.states { s with startup := u } = s.states := rfl
    rw [State.claimsFor, states]
    exact { h with
      budget := (conf_congr settings profile : State.conf { s with startup := u } = s.conf) ▸ h.budget
      bound := (conf_congr settings profile : State.conf { s with startup := u } = s.conf) ▸ h.bound
      adopting := fun c adopt => by
        obtain ⟨none, adopting, intents⟩ := h.adopting c adopt
        refine ⟨none, ?_, intents⟩
        rcases run with same | ⟨_, done⟩
        · exact same.trans adopting
        · exact absurd adopt (done adopting c)
      loading := fun before => by
        obtain ⟨loading, rest⟩ := h.loading (before.imp (held ▸ ·) (mt phase.2))
        rcases run with same | ⟨past, _⟩
        · exact ⟨same.trans loading, rest⟩
        · exact absurd loading past }
  | service u awake =>
    refine claims_kept (s := s) rfl ?_ h
    refine { ClaimsKept.refl s with service := fun idle loading => ?_ }
    rcases awake with (past | busy) | idle'
    · exact absurd loading past
    · exact absurd idle busy
    · exact idle'
  | cage c f state sound => exact claims_kept (states_updCage state) (updCage_claimsKept s c f) h
  | move c new cause live adopt powerUp settle faulted retries =>
    exact ClaimsFor.moveCage h ⟨adopt, powerUp, settle⟩
  | spend c cause retries fails live named sound =>
    exact ClaimsFor.moveCage (claims_kept (states_updCage rfl) (updCage_claimsKept s c _) h)
      ⟨nofun, nofun, nofun⟩
  | relight c held =>
    have moved : ClaimsFor _ (moveCage c .relight .none s).states := ClaimsFor.moveCage h ⟨nofun, nofun, nofun⟩
    exact claims_kept (states_updCage rfl) (updCage_claimsKept _ c _)
      (claims_kept (states_startSettling c _) (startSettling_claims c _) moved)
  | adopts c draw adopt most =>
    have kept := moveCage_claims c .lightSettle .none (adoptClaim c draw s)
    rw [show ((adoptClaim c draw s).cage c).state = .adopt from adopt] at kept
    rw [State.claimsFor, states_moveCage]
    exact .of_kept kept (ClaimsFor.step (adoptClaim_step h adopt most) h)
  | bus b kept => exact claims_kept (s := s) rfl (.of_bus b kept.queue) h
  | claimUnit u claims intents committed pending =>
    refine claims_kept (s := s) rfl ?_ h
    exact { ClaimsKept.refl s with
      claims := fun c => by
        rw [show State.claim { s with claims := u } c = s.claim c from congrArg (fun v => v[c]) claims]
        exact ⟨rfl, rfl, rfl⟩
      intents := ⟨id, by rw [List.map_id]; exact intents, fun _ => ⟨rfl, rfl, id⟩⟩
      committed := committed, pending := pending, release := id }
  | claim c f state draw listed =>
    refine claims_kept (s := s) rfl ?_ h
    exact { ClaimsKept.refl s with
      claims := fun d => by
        by_cases same : d = c
        · subst same; rw [claim_updClaim]; exact ⟨state, draw, listed⟩
        · rw [claim_updClaim_other _ _ _ _ same]; exact ⟨rfl, rfl, rfl⟩
      intents := ⟨id, (List.map_id _).symm, fun _ => ⟨rfl, rfl, id⟩⟩ }
  | windows f same =>
    refine claims_kept (s := s) rfl ?_ h
    exact { ClaimsKept.refl s with
      intents := ⟨f, rfl, fun e => ⟨(same e).1, (same e).2.1, fun mark => (same e).2.2 ▸ mark⟩⟩ }
  | cancel e mem =>
    have unconfirmed := unconfirmed_of_mem h mem
    have states : (cancelIntent e s).states = s.states := rfl
    rw [State.claimsFor, states]
    exact ClaimsFor.stay h (cancelIntent_step h unconfirmed (tags_of_mem h mem)
      (unclaimed_of_unconfirmed h (no_adopt_of_intents h mem _) unconfirmed) (h.listed e.cage))
  | abandon =>
    rw [State.claimsFor, states_congr (abandonAll_cages s).cages]
    exact abandonAll_for h
  | opens e mem =>
    have states : (openWindow e s).states = s.states := rfl
    rw [State.claimsFor, states]
    exact ClaimsFor.stay h (openWindow_step h mem)
  | judge e mem => exact judgeIntent_for h mem
  | intent c chosen passes =>
    have states : (queueIntent c s).states = s.states := rfl
    rw [State.claimsFor, states]
    exact ClaimsFor.stay h (queueIntent_step h chosen passes)
  | release i f amount attempt own body =>
    have at_ := underAttempt_getElem attempt
    have most := h.release.2 f (List.mem_of_getElem? at_) own amount body
    have left : ClaimsFor (s.updBus (fun b => (b.sent i f).txGood)) s.states :=
      .of_kept (.of_bus _ (BusKept.sent at_).queue) h
    have none : releasesOf (s.bus.sent i f).txGood.txQueue = [] := releases_sent h.release at_ own body
    obtain ⟨pending, sub⟩ := judgeHealth_queue (s.updBus (fun b => (b.sent i f).txGood))
    have states : (releaseSent amount (judgeHealth (s.updBus (fun b => (b.sent i f).txGood)))).states =
        s.states :=
      states_congr (((by simp : (releaseSent amount _).cages = _)).trans
        (judgeHealth_cages (s.updBus (fun b => (b.sent i f).txGood))).cages)
    rw [State.claimsFor, states]
    refine releaseSent_for (judgeHealth_for left) (by rw [pending]; exact most) ?_
    exact List.sublist_nil.1 (none ▸ sub.filter _)
  | load k free loading budget allowance =>
    exact foldl_invariant State.claimsFor loadCage (fun u c => loadCage_for c) _ _
      (installSettings_for free loading budget h)
  | restart clocks awake =>
    have loaded : ¬(s.startup.resetHeld = true ∨ s.startup.loadPhase ≠ .done) := fun before => by
      obtain ⟨loading, _, _, idle, _⟩ := h.loading before
      exact awake.elim (· loading) (· idle)
    refine clearBlocks_for (by rw [latchAll_conf]; exact h.budget) ?_
    rw [(latchAll_rest s).1]
    exact loaded
  | _ => exact claims_kept (s := s) rfl (.of_units rfl rfl rfl rfl) h

end Sys2Proof.Machine
end

section
/-! PROOF. The committed total: every step keeps the claim unit's rules, and each operation its sum (R43 to R45, R58,
R59). -/

namespace Sys2Proof.Machine

theorem claimsFor_heldInReset (s : State) : (heldInReset s).claimsFor := by
  have claim : ∀ c, (heldInReset s).claim c = resetClaim 16 := fun c => by
    simp [State.claim, heldInReset, State.reset, resetClaims]
  have state : ∀ c, (heldInReset s).states c = .vacant := fun c => by
    simp [State.states, State.cage, heldInReset, State.reset, resetCageRecord]
  exact {
    total := by
      have none : (heldInReset s).shares = 0 := List.sum_eq_zero fun n mem => by
        obtain ⟨c, _, rfl⟩ := List.mem_map.1 mem
        rw [claim]
        rfl
      rw [none]
      rfl
    budget := profileSettings_budget_le _
    bound := by
      rw [adoptCount_eq_zero fun c => by rw [state]; nofun]
      exact Nat.zero_le _
    held := fun c => by rw [claim, state]; simp [resetClaim]
    listed := fun c => by rw [claim]; nofun
    entries := fun e mem => nomatch mem
    distinct := .nil
    adopting := fun c adopt => by rw [state] at adopt; cases adopt
    loading := fun _ => ⟨rfl, rfl, rfl, rfl, fun c => by rw [state]; nofun⟩
    release := ⟨Nat.zero_le _, fun f mem => nomatch mem⟩ }

theorem claims_unheard {s t : State} (answer : Unheard s t) (h : s.claimsFor) : t.claimsFor := by
  cases answer with
  | same => exact h
  | reset => exact claimsFor_heldInReset s
  | release station profile held =>
    obtain ⟨_, zero, none, idle, adopt⟩ := h.loading (.inl held)
    have states : (releaseReset station profile s).states = s.states := rfl
    have budget : (releaseReset station profile s).conf.budget ≤ 65535 := profileSettings_budget_le profile
    rw [State.claimsFor, states]
    exact { h with
      budget := budget
      bound := by
        rw [show (releaseReset station profile s).claims = s.claims from rfl, zero, adoptCount_eq_zero adopt]
        exact Nat.zero_le _
      adopting := fun c is => absurd is (adopt c)
      loading := fun _ => ⟨rfl, zero, none, idle, adopt⟩ }
  | presentPin c level held => exact claims_kept (s := s) rfl (.of_units rfl rfl rfl rfl) h
  | linkPin c level held => exact claims_kept (s := s) rfl (.of_units rfl rfl rfl rfl) h

theorem states_passTime (s : State) : (passTime s).states = s.states :=
  funext fun c => by rw [State.states, cage_passTime]; rfl

theorem passTime_claims (s : State) : ClaimsKept s (passTime s) := by
  have claim : ∀ c, (passTime s).claim c = { s.claim c with backoff := (s.claim c).backoff.countDown } := fun c => by
    simp [State.claim, passTime, ClaimUnit.countDown]
  exact { ClaimsKept.refl s with
    conf := rfl
    service := fun idle _ => idle
    claims := fun c => by rw [claim]; exact ⟨rfl, rfl, rfl⟩
    intents := ⟨fun e => { e with deadline := e.deadline.countDown }, rfl, fun _ => ⟨rfl, rfl, id⟩⟩ }

/-- Every step keeps the claim unit's rules. -/
theorem claims_step {s t : State} (h : s.claimsFor) (next : step s = .next t) : t.claimsFor :=
  step_keeps (fun _ _ => claims_act) (fun _ _ => claims_unheard)
    (fun s h => claims_kept (s := s) rfl (.of_units rfl rfl rfl rfl) h)
    (fun s _ h => claims_kept (states_passTime s) (passTime_claims s) h)
    (fun s _ h => claims_kept (s := s) rfl (.of_units rfl rfl rfl rfl) h) next h

/-! ### The sum at each operation -/

/-- The total matches after a change of one cage's claim that balances. -/
theorem totalMatches_of_balance {c : Cage} {s t : State} (h : s.totalMatches)
    (others : ∀ d, d ≠ c → (t.claim d).share = (s.claim d).share)
    (balance : t.claims.committed + (s.claim c).share + s.claims.releasePending =
      s.claims.committed + (t.claim c).share + t.claims.releasePending) : t.totalMatches := by
  rw [totalMatches_iff] at h ⊢
  have shares : t.shares + (s.claim c).share = s.shares + (t.claim c).share :=
    sum_one_changed (f := fun d => (s.claim d).share) (g := fun d => (t.claim d).share) others
  omega

theorem releaseClaim_matches {c : Cage} {s : State} (h : s.totalMatches) (confirmed : (s.claim c).state = .confirmed) :
    (releaseClaim c s).totalMatches := by
  have claim : (releaseClaim c s).claim c = { s.claim c with state := .none } := claim_setClaim _ _ _
  refine totalMatches_of_balance (c := c) h (fun d ne => ?_) ?_
  · rw [show (releaseClaim c s).claim d = s.claim d from claim_setClaim_other ne _ _]
  · rw [claim, share_eq_zero (k := { s.claim c with state := .none }) nofun,
      show (s.claim c).share = (s.claim c).draw from if_pos confirmed]
    show s.claims.committed + (s.claim c).draw + s.claims.releasePending =
      s.claims.committed + 0 + (s.claims.releasePending + (s.claim c).draw)
    omega

theorem adoptClaim_matches {c : Cage} {d : Nat} {s : State} (h : s.totalMatches)
    (unconfirmed : (s.claim c).state ≠ .confirmed) : (adoptClaim c d s).totalMatches := by
  have claim : (adoptClaim c d s).claim c = { s.claim c with state := .confirmed, draw := d } :=
    claim_updClaim _ _ _
  refine totalMatches_of_balance (c := c) h (fun k ne => ?_) ?_
  · rw [show (adoptClaim c d s).claim k = s.claim k from claim_updClaim_other _ _ _ _ ne]
  · rw [claim, share_eq_zero unconfirmed]
    rfl

theorem releaseSent_matches {amount : Nat} {s : State} (h : s.totalMatches)
    (le : amount ≤ s.claims.releasePending) : (releaseSent amount s).totalMatches := by
  have units : (releaseSent amount s).shares = s.shares ∧
      (releaseSent amount s).claims.committed = s.claims.committed - amount ∧
      (releaseSent amount s).claims.releasePending = s.claims.releasePending - amount := by
    unfold releaseSent
    dsimp only
    split <;> exact ⟨rfl, rfl, rfl⟩
  obtain ⟨shares, committed, pending⟩ := units
  rw [totalMatches_iff] at h ⊢
  rw [shares, committed, pending]
  omega

theorem totalMatches_congr {s t : State} (claims : ∀ c, t.claim c = s.claim c)
    (committed : t.claims.committed = s.claims.committed)
    (pending : t.claims.releasePending = s.claims.releasePending) (h : s.totalMatches) : t.totalMatches := by
  rw [totalMatches_iff] at h ⊢
  rw [committed, pending, h, State.shares, State.shares]
  simp only [claims]

theorem claimHandOff_powerUp (c : Cage) (s : State) : claimHandOff c .admitWait .powerUp s = s := rfl

theorem totalMatches_kept {s t : State} (kept : ClaimsKept s t) (h : s.totalMatches) : t.totalMatches := by
  have shares : t.shares = s.shares := congrArg List.sum (List.map_congr_left fun c _ => by
    obtain ⟨state, draw, _⟩ := kept.claims c
    rw [Claim.share, Claim.share, state, draw])
  rw [totalMatches_iff] at h ⊢
  rw [kept.committed, kept.pending, shares, h]

/-- A move into POWER-UP leaves the claims as they are. -/
theorem moveCage_powerUp_matches {c : Cage} {s : State} (state : (s.cage c).state = .admitWait)
    (h : s.totalMatches) : (moveCage c .powerUp .none s).totalMatches := by
  have kept := moveCage_claims c .powerUp .none s
  rw [state, claimHandOff_powerUp] at kept
  exact totalMatches_kept kept h

theorem confirmIntent_matches {e : OwnIntent} {s : State} (h : s.totalMatches)
    (unconfirmed : (s.claim e.cage).state ≠ .confirmed) (draw : (s.claim e.cage).draw = e.draw) :
    (confirmIntent e s).totalMatches := by
  have claim := confirmedState_claim e s
  obtain ⟨_, committed, pending⟩ := confirmedState_unit e s
  have confirmed : (confirmedState e s).totalMatches := by
    refine totalMatches_of_balance (c := e.cage) h (fun d ne => by rw [confirmedState_claim_other ne]) ?_
    have share : ((confirmedState e s).claim e.cage).share = e.draw := by rw [claim, ← draw]; rfl
    rw [share, share_eq_zero unconfirmed, committed, pending, Nat.add_zero]
  have cases : confirmIntent e s = if ((confirmedState e s).cage e.cage).state = .admitWait then
      moveCage e.cage .powerUp .none (confirmedState e s) else confirmedState e s := rfl
  rw [cases]
  split
  next state => exact moveCage_powerUp_matches state confirmed
  · exact confirmed

theorem withdrawIntent_matches {e : OwnIntent} {s : State} (h : s.totalMatches)
    (unconfirmed : (s.claim e.cage).state ≠ .confirmed) : (withdrawIntent e s).totalMatches := by
  obtain ⟨g, same, eq⟩ := withdrawIntent_eq e s
  have claim : (withdrawIntent e s).claim e.cage = g (s.claim e.cage) := by rw [eq]; exact claim_updClaim _ _ _
  refine totalMatches_of_balance (c := e.cage) h (fun d ne => ?_) ?_
  · rw [show (withdrawIntent e s).claim d = s.claim d by rw [eq]; exact claim_updClaim_other _ _ _ _ ne]
  · have free : ((withdrawIntent e s).claim e.cage).share = 0 :=
      share_eq_zero (by rw [claim, (same _).1]; nofun)
    rw [free, share_eq_zero unconfirmed, eq]
    rfl

/-- Settles O45: the rules of the claim unit are kept by every act, and so by every step; the sum of each operation
balances what leaves one part of the total against what joins another. -/
theorem committedTotalKept : Obligations.CommittedTotalKept :=
  ⟨fun _ _ h next => (claimsSound_iff _).2 (claims_step ((claimsSound_iff _).1 h) next),
    fun _ h => ⟨fun _ confirmed => ⟨releaseClaim_matches h confirmed, rfl⟩,
      fun _ _ unconfirmed => adoptClaim_matches h unconfirmed,
      fun _ le => releaseSent_matches h le,
      fun _ unconfirmed draw => confirmIntent_matches h unconfirmed draw,
      fun _ unconfirmed => withdrawIntent_matches h unconfirmed⟩⟩

theorem cagesSound_reset : State.reset.cagesSound := by
  refine ⟨fun c => ?_, nofun⟩
  rw [show State.reset.cage c = resetCageRecord by simp [State.cage, State.reset]]
  exact ⟨by simp [resetCageRecord], rfl, Nat.zero_le _, ⟨Nat.zero_le _, fun _ => Nat.zero_le _⟩,
    Nat.zero_le _, .nil⟩

theorem heldInReset_reset : heldInReset State.reset = State.reset := by
  have lines : State.reset.lines.map (fun l => resetLines l.presentRaw l.linkRaw) = State.reset.lines := by
    simp [State.reset, resetLines]
  exact congrArg (fun lines => { State.reset with lines := lines }) lines

/-- Settles O60: the reset state is the state that a reset holds, and each of the rules holds of that. -/
theorem resetKeepsRules : Obligations.ResetKeepsRules := by
  rw [Obligations.ResetKeepsRules, ← heldInReset_reset]
  exact ⟨settled_heldInReset _, inRange_heldInReset _, sound_unheard .reset cagesSound_reset,
    driven_heldInReset _, (totalMatches_iff _).2 (claimsFor_heldInReset _).total,
    (claimsSound_iff _).2 (claimsFor_heldInReset _)⟩

end Sys2Proof.Machine
end

section
/-! PROOF. The step itself, the passing of time, the resets, and the events whose effect is one operation on a segment,
on the bus or on a peer entry. -/

namespace Sys2Proof.Machine

/-! ### What the end of an event leaves of a state -/

theorem EndsAs.cage {u t : State} (h : EndsAs u t) (c : Cage) :
    t.cage c = { u.cage c with requests := (t.cage c).requests } := h.same.cages c

theorem EndsAs.line {u t : State} (h : EndsAs u t) (c : Cage) : t.line c = u.line c := line_congr h.same.lines c

theorem EndsAs.penalty {u t : State} (h : EndsAs u t) (c : Cage) : t.penalty c = u.penalty c :=
  penalty_congr h.same.penalties c

theorem EndsAs.cageScan {u t : State} (h : EndsAs u t) (c : Cage) : t.cageScan c = u.cageScan c :=
  cageScan_congr (by rw [h.same.scan]) c

/-- A segment that is not IDLE keeps its state, chunk, timers and select lines at the end of an event. -/
theorem EndsAs.busy {u t : State} (h : EndsAs u t) {g : Seg} (busy : (u.link g).state ≠ .idle) :
    t.link g = { u.link g with crsSlots := (t.link g).crsSlots, scanner := (t.link g).scanner } :=
  (h.segments g).busy (.inl busy)

theorem EndsAs.onlyCage {c : Cage} {s u t : State} (h : EndsAs u t) (only : OnlyCage c s u) : OnlyCage c s t :=
  only.trans (h.same.onlyCage c)

/-! ### Updates that agree where they act -/

theorem modifyAt_congr {α : Type} {n : Nat} {v : Vector α n} {i : Fin n} {f g : α → α} (h : f v[i] = g v[i]) :
    modifyAt v i f = modifyAt v i g :=
  congrArg (v.set i) h

theorem updLink_congr {s : State} {g : Seg} {f h : Link → Link} (same : f (s.link g) = h (s.link g)) :
    s.updLink g f = s.updLink g h :=
  congrArg (fun links => { s with links := links }) (modifyAt_congr same)

theorem updCage_congr {s : State} {c : Cage} {f g : CageRecord → CageRecord} (same : f (s.cage c) = g (s.cage c)) :
    s.updCage c f = s.updCage c g :=
  congrArg (fun cages => { s with cages := cages }) (modifyAt_congr same)

theorem updLines_congr {s : State} {c : Cage} {f g : CageLines → CageLines} (same : f (s.line c) = g (s.line c)) :
    s.updLines c f = s.updLines c g :=
  congrArg (fun lines => { s with lines := lines }) (modifyAt_congr same)

theorem updPeer_congr {s : State} {n : Station} {f g : PeerEntry → PeerEntry} (same : f (s.peer n) = g (s.peer n)) :
    s.updPeer n f = s.updPeer n g :=
  congrArg (fun peers => { s with peers := peers }) (modifyAt_congr same)

theorem updScan_congr {s : State} {c : Cage} {f g : CageScan → CageScan} (same : f (s.cageScan c) = g (s.cageScan c)) :
    s.updScan c f = s.updScan c g :=
  congrArg (fun cages => { s with scan := { s.scan with cages := cages } }) (modifyAt_congr same)

/-! ### The step -/

/-- Settles O1: the equation of `step` for a queue that is not empty. -/
theorem stepTakesFront : Obligations.StepTakesFront := by
  intro c rest s queue
  rw [step, queue]

theorem link_passTime (s : State) (g : Seg) :
    (passTime s).link g = (s.link g).countDown (s.clockHeld g) := by
  simp [State.link, passTime]

/-- During a try the stretch timer follows the clock; else it counts down like every timer. -/
theorem stretch_countDown (held : Bool) (l : Link) :
    (l.state ≠ .chunk → (l.countDown held).stretch = l.stretch.map (· - 1)) ∧
    (l.state = .chunk → (l.countDown held).stretch = none ∨
      (l.countDown held).stretch = (match l.stretch with
        | some n => some (n - 1)
        | none => some 25)) := by
  constructor
  · intro idle
    simp [Link.countDown, idle, Timer.countDown]
  · intro trying
    cases held
    · simp [Link.countDown, trying, stretchAt]
    · cases h : l.stretch <;> simp [Link.countDown, trying, stretchAt, Timer.countDown, h]

/-- Settles O2: each unit of `passTime` is what the statement writes out. -/
theorem idleStepPassesTime : Obligations.IdleStepPassesTime := by
  intro s queue
  have next : step s = .next (idle s) := by rw [step, queue]
  constructor
  · intro held
    rw [next, idle, if_pos held]
  · intro free
    refine ⟨(passTime s).nextChoice, by rw [next, idle, if_neg (by simp [free])], rfl, fun c => ?_, rfl, fun n => ?_,
      rfl, rfl, fun g => ?_, rfl, rfl, queue, rfl, rfl⟩
    · have line : (passTime s).nextChoice.line c = (s.line c).countDown := line_passTime s c
      have cage : (passTime s).nextChoice.cage c = _ := cage_passTime s c
      have claim : (passTime s).nextChoice.claim c = { s.claim c with backoff := (s.claim c).backoff.countDown } := by
        simp [State.claim, State.nextChoice, passTime, ClaimUnit.countDown]
      rw [line, cage, claim]
      exact ⟨rfl, rfl, rfl, rfl, rfl, rfl, rfl, rfl, rfl, rfl, rfl⟩
    · simp [State.peer, State.nextChoice, passTime, PeerEntry.countUp, promotionAge]
    · have link : (passTime s).nextChoice.link g = (s.link g).countDown (s.clockHeld g) := link_passTime s g
      have scanner : (passTime s).nextChoice.scanner g =
          { s.scanner g with slotTimer := (s.scanner g).slotTimer.map (· - 1) } := by
        simp [State.scanner, State.nextChoice, passTime, Timer.countDown]
      rw [link]
      exact ⟨rfl, (stretch_countDown _ _).1, (stretch_countDown _ _).2, scanner⟩

/-! ### Resets and start-up -/

/-- Settles O3: both resets answer the state held in a reset, and each of its values is read off. -/
theorem resetValues : Obligations.ResetValues := by
  rintro i s which
  have answer : exec i s = .next (heldInReset s) := by rcases which with rfl | rfl <;> rfl
  refine ⟨heldInReset s, answer, rfl, rfl, rfl, rfl, rfl, fun c => ?_, fun n => ?_, fun g => ?_, rfl, rfl, rfl, rfl,
    rfl, rfl, rfl, rfl, rfl, rfl, rfl, rfl⟩
  · have cage : (heldInReset s).cage c = resetCageRecord := by simp [State.cage, heldInReset, State.reset]
    have line : (heldInReset s).line c = resetLines (s.line c).presentRaw (s.line c).linkRaw := by
      simp [State.line, heldInReset]
    have claim : (heldInReset s).claim c = resetClaim 16 := by
      simp [State.claim, heldInReset, State.reset, resetClaims]
    have penalty : (heldInReset s).penalty c = { value := 0, lastModule := none } := by
      simp [State.penalty, heldInReset, State.reset]
    have scan : (heldInReset s).cageScan c = resetCageScan := by
      simp [State.cageScan, heldInReset, State.reset]
    have history : (heldInReset s).events.histories[c] = [] := by simp [heldInReset, State.reset]
    rw [State.outputs, cage, line, claim, penalty, scan]
    exact ⟨rfl, rfl, rfl, rfl, rfl, rfl, rfl, rfl, rfl, rfl, rfl, rfl, rfl, rfl, history⟩
  · simp [State.peer, heldInReset, State.reset]
  · have link : (heldInReset s).link g = resetLink := by simp [State.link, heldInReset, State.reset]
    have scanner : (heldInReset s).scanner g = resetScanner := by simp [State.scanner, heldInReset, State.reset]
    rw [link, scanner]
    exact ⟨rfl, rfl, rfl, rfl⟩

theorem startHold_eq {level taken : Bool} {hold : Timer} {time : Nat} :
    (if level = taken then none else match hold with | some t => some t | none => some time) =
      if level = taken then none else some (hold.getD time) := by
  cases hold <;> rfl

theorem presentChange_eq (level : Bool) (l : CageLines) :
    l.presentChange level = { l with
      presentRaw := level, presentHold := if level = l.present then none else some (l.presentHold.getD 10) } := by
  rw [← startHold_eq]
  rfl

theorem linkChange_eq (level : Bool) (l : CageLines) :
    l.linkChange level = { l with
      linkRaw := level, linkHold := if level = l.link then none else some (l.linkHold.getD 1) } := by
  rw [← startHold_eq]
  rfl

/-- Settles O4: the release by `releaseReset`, and the two events by their effects. -/
theorem startUpEvents : Obligations.StartUpEvents := by
  refine ⟨fun station profile s => ⟨fun held => ?_, fun free => ?_⟩, fun s free phase delay => ?_, fun s free => ?_⟩
  · have answer : exec (.resetRelease station profile) s = .next (releaseReset station profile s) := by
      change Host.Outcome.next (if s.startup.resetHeld then _ else _) = _
      rw [if_pos held]
    refine ⟨_, answer, rfl, rfl, fun c => ?_⟩
    have line : (releaseReset station profile s).line c = (s.line c).startFilters := by
      simp [State.line, releaseReset]
    rw [line, CageLines.startFilters, linkChange_eq, presentChange_eq]
  · change Host.Outcome.next (if s.startup.resetHeld then _ else _) = _
    rw [if_neg (by simp [free])]
  · obtain ⟨t, answer, ends⟩ := eventNext_occurs (effect := beginRead) free
      (show (decide (s.startup.loadPhase = .startDelay) && s.startup.startDelay.isSome) = true by simp [phase, delay])
    have read : t.spiRead = some imageRead := by
      rw [State.spiRead, ends.same.startup]
      rfl
    exact ⟨t, answer, ends, by simp [State.memorySelected, State.spiRead, phase],
      by rw [State.memorySelected, read]; rfl, imageRead, read, rfl, rfl, rfl, by decide, by decide⟩
  · obtain ⟨t, answer, ends⟩ := eventNext_occurs
      (effect := fun s => s.updStartup (fun u => { u with stationTime := u.stationTime + 1 })) free (rfl : true = true)
    refine ⟨t, answer, ends, ?_⟩
    have time : t.startup.stationTime = s.startup.stationTime + 1 := by rw [ends.same.startup]; rfl
    rw [time, BitVec.toNat_add]
    rfl

/-! ### The segments -/

/-- Settles O22: a NAK and the retry timer's expiry each change the segment, and a segment that is not IDLE keeps its
chunk at the end of the event; the wire of a chunk does not read its try number. -/
theorem nakRetried : Obligations.NakRetried := by
  intro g k s free chunk
  constructor
  · intro trying going early
    obtain ⟨t, answer, ends⟩ := eventNext_occurs (effect := fun s => deliverAll (tryFails g s)) free
      (show s.trying g = true by simp [State.trying, trying, chunk])
    have effect : deliverAll (tryFails g s) = s.updLink g (fun l =>
        { l with state := .retryWait, stretch := none, retryTimer := some 1 }) := by
      simp [tryFails, trying, chunk, going, early, deliverAll]
    rw [effect] at ends
    refine ⟨t, answer, ends, ?_⟩
    have link := ends.busy (g := g) (by simp)
    rw [State.segmentTry, link, link_updLink]
  · intro waiting timer
    obtain ⟨t, answer, ends⟩ := eventNext_occurs (effect := fun s => s.updLink g Link.retry) free
      (show (decide ((s.link g).state = .retryWait) && (s.link g).retryTimer.isSome) = true by simp [waiting, timer])
    have retried : Link.retry (s.link g) = { s.link g with
        state := .chunk, retryTimer := none, chunk := some { k with tryNo := k.tryNo + 1 } } := by
      rw [Link.retry, chunk]
      rfl
    have link : t.link g = _ := ends.busy (g := g) (by rw [link_updLink, retried]; nofun)
    refine ⟨t, answer, ?_, fun u try_ same => ?_⟩
    · have effect : s.updLink g Link.retry = s.updLink g (fun l =>
          { l with state := .chunk, retryTimer := none, chunk := some { k with tryNo := k.tryNo + 1 } }) :=
        updLink_congr retried
      rwa [effect] at ends
    · rw [State.segmentTry, State.segmentTry, link, link_updLink, retried, try_, same]
      rfl

/-- A chunk that a removal or a Restart has ended stops at its byte boundary. -/
theorem endsFor_of_chunk {s : State} {g : Seg} {k : Chunk} (trying : (s.link g).state = .chunk)
    (chunk : (s.link g).chunk = some k) : s.endsFor g k.ending = true := by
  simp [State.endsFor, trying, chunk]

theorem boundary_of_chunk {s : State} {g : Seg} {k : Chunk} (chunk : (s.link g).chunk = some k) :
    boundary g s = deliverAll (byteBoundary g k s) := by
  rw [boundary, chunk]

/-- Settles O23: the end of a recovery by its effect, and the two byte boundaries by the request that the chunk has,
which a Restart has taken from it, and whose outcome ABSENT the sequencer discards. -/
theorem segmentComesToIdle : Obligations.SegmentComesToIdle := by
  refine fun g s free => ⟨fun recovering => ?_, fun k r q b trying chunk ended slot origin => ?_,
    fun k trying chunk ended => ?_⟩
  · exact eventNext_occurs (effect := fun s => s.updLink g (Link.endChunk .idle true)) free (by simp [recovering])
  · have effect : boundary g s = s.updLink g (fun l => Link.setSlot k.slot none (l.endChunk .idle true)) := by
      have request : (s.link g).inProgress k = some r := by rw [Link.inProgress, ended]; exact slot
      rw [boundary_of_chunk chunk, byteBoundary, endRequest]
      simp only [request]
      simp [deliverAll, deliver, origin, crsOutcome]
    have := eventNext_occurs (effect := boundary g) free (ended ▸ endsFor_of_chunk trying chunk)
    rwa [effect] at this
  · have effect : boundary g s = s.updLink g (Link.endChunk .idle true) := by
      have request : (s.link g).inProgress k = none := by rw [Link.inProgress, ended]
      rw [boundary_of_chunk chunk, byteBoundary, endRequest]
      simp only [request]
      rfl
    have := eventNext_occurs (effect := boundary g) free (ended ▸ endsFor_of_chunk trying chunk)
    rwa [effect] at this

/-! ### The bus and the peer view -/

theorem onBus_of {s : State} (loaded : s.startup.runState ≠ .loading) : s.onBus = true := decide_eq_true loaded

/-- What the end of an event does where a queue-time test has been made due is work all the same. -/
theorem EndsAs.afterTest {u t : State} (h : EndsAs (dueTest u) t) : SameOutsideWork u t :=
  (testDue_work u true).trans h.same

/-- Settles O38: each of the three events by its effect; the last one makes the queue-time test due, which is then run
at the end of the event. -/
theorem returnFromSilent : Obligations.ReturnFromSilent := by
  refine fun s free loaded => ⟨fun silent => ?_, fun recovering few => ?_, fun i which recovering full => ?_⟩
  · exact eventNext_occurs (effect := beginRecovery) free (by simp [onBus_of loaded, silent])
  · have count : countGap s = s.updBus (fun b => { b with gapCount := b.gapCount + 1 }) := if_neg (by omega)
    have := eventNext_occurs (effect := countGap) free
      (show (s.onBus && decide (s.bus.health = .recovering)) = true by simp [onBus_of loaded, recovering])
    rwa [count] at this
  · have ends : ∃ t, exec i s = .next t ∧ EndsAs (endRecovery s) t := by
      rcases which with rfl | rfl
      · have count : countGap s = endRecovery s := if_pos (by omega)
        have := eventNext_occurs (effect := countGap) free
          (show (s.onBus && decide (s.bus.health = .recovering)) = true by simp [onBus_of loaded, recovering])
        rwa [count] at this
      · exact eventNext_occurs (effect := endRecovery) free (by simp [onBus_of loaded, recovering, full])
    obtain ⟨t, answer, ends⟩ := ends
    exact ⟨t, answer, ends.testDue, ends.afterTest⟩

/-- Settles O41: the ageing by `PeerEntry.tick` at age 3, the promotion by `PeerEntry.promote` of a listed tag. -/
theorem peerEntryEvents : Obligations.PeerEntryEvents := by
  refine fun n s free => ⟨fun present three => ?_, fun tag i listed => ?_⟩
  · have tick : PeerEntry.tick (s.peer n) = { s.peer n with status := .aged, age := 4 } := by
      simp [PeerEntry.tick, present, three]
    obtain ⟨t, answer, ends⟩ := eventNext_occurs (effect := fun s => dueTest (s.updPeer n PeerEntry.tick)) free
      (show (decide ((s.peer n).status = .present) && decide ((s.peer n).age = 3)) = true by simp [present, three])
    refine ⟨t, answer, ends.testDue, ?_⟩
    have work := ends.afterTest
    rwa [updPeer_congr (g := fun e => { e with status := .aged, age := 4 }) tick] at work
  · have found : ((s.peer n).find tag).isSome = true := by rw [PeerEntry.find, listed]; rfl
    have := eventNext_occurs (effect := fun s => s.updPeer n (PeerEntry.promote tag)) free found
    rwa [updPeer_congr (g := fun e => { e with
      confirmed := min 65520 (e.confirmed + i.draw), intents := e.intents.filter (fun x => decide (x.tag ≠ tag)) })
      (PeerEntry.promote_listed listed)] at this

end Sys2Proof.Machine
end

section
/-! PROOF. What the sequencer's operations do to their cage: its record, lines, scan record and history, and the requests
that wait for it; and the events of the lines and timers that move a cage by one of them. -/

namespace Sys2Proof.Machine

/-! ### A record, whatever requests wait -/

theorem recordIs_self (s : State) (c : Cage) : s.recordIs c (s.cage c) := rfl

theorem State.recordIs.state {s : State} {c : Cage} {k : CageRecord} (h : s.recordIs c k) : (s.cage c).state = k.state := by
  rw [h]

theorem State.recordIs.visit {s : State} {c : Cage} {k : CageRecord} (h : s.recordIs c k) : (s.cage c).visit = k.visit := by
  rw [h]

/-- A record known up to its requests stands for any other that differs in them alone. -/
theorem State.recordIs.congr {s : State} {c : Cage} {k k' : CageRecord} (h : s.recordIs c k)
    (same : { k with requests := [] } = { k' with requests := [] }) : s.recordIs c k' := by
  have other := congrArg (fun r : CageRecord => { r with requests := (s.cage c).requests }) same
  exact h.trans other

theorem EndsAs.recordIs {u t : State} {c : Cage} {k : CageRecord} (h : EndsAs u t) (is : u.recordIs c k) :
    t.recordIs c k := by
  rw [State.recordIs, h.cage c, is]

/-- A list of requests that is empty stays so at the end of an event. -/
theorem EndsAs.no_requests {u t : State} {c : Cage} (h : EndsAs u t) (empty : (u.cage c).requests = []) :
    (t.cage c).requests = [] := by
  cases slot : u.crsSlot c with
  | none => exact ((h.requests c).empty slot empty).1
  | some r => rw [((h.requests c).full r slot).1, empty]

theorem EndsAs.cage_eq {u t : State} {c : Cage} (h : EndsAs u t) (empty : (u.cage c).requests = []) :
    t.cage c = u.cage c := by
  rw [h.cage c, h.no_requests empty, ← empty]

/-! ### The lines of a cage that moves -/

theorem tookSource_take (n : NamedSource) (l : CageLines) : tookSource n l (l.take n) := by
  cases h : l.source <;> simp [CageLines.take, tookSource, h]

theorem take_inputs (n : NamedSource) (l : CageLines) :
    (l.take n).present = l.present ∧ (l.take n).presentHold = l.presentHold ∧
    (l.take n).link = l.link ∧ (l.take n).linkHold = l.linkHold := by
  unfold CageLines.take
  split <;> exact ⟨rfl, rfl, rfl, rfl⟩

theorem moveCage_took {c : Cage} {new : CageState} {n : NamedSource} (names : new.names = some n) (cause : FaultCause)
    (s : State) : tookSource n (s.line c) ((moveCage c new cause s).line c) := by
  rw [moveCage_line, names]
  exact tookSource_take n _

@[simp] theorem moveCage_inputs (c : Cage) (new : CageState) (cause : FaultCause) (s : State) :
    ((moveCage c new cause s).line c).present = (s.line c).present ∧
    ((moveCage c new cause s).line c).presentHold = (s.line c).presentHold ∧
    ((moveCage c new cause s).line c).link = (s.line c).link ∧
    ((moveCage c new cause s).line c).linkHold = (s.line c).linkHold := by
  rw [moveCage_line]
  split
  · exact take_inputs _ _
  · exact ⟨rfl, rfl, rfl, rfl⟩

/-! ### The record of a cage that moves -/

/-- The source that a move leaves in force, which the init wait of IDENTIFY needs (R14). -/
def State.releasedAfter (s : State) (c : Cage) (new : CageState) (cause : FaultCause) : Bool :=
  decide (((moveCage c new cause s).line c).source = .sequencer)

theorem moveCage_record (c : Cage) (new : CageState) (cause : FaultCause) (s : State) :
    (moveCage c new cause s).recordIs c
      ((s.cage c).move new cause (entryTimers s.conf (s.releasedAfter c new cause) s.openChoices new)) := by
  rw [State.recordIs, moveCage_cage]
  rfl

theorem moveCage_requests (c : Cage) (new : CageState) (cause : FaultCause) (s : State) :
    ((moveCage c new cause s).cage c).requests = if new.emptiesList then [] else (s.cage c).requests := by
  rw [moveCage_cage]
  rfl

/-- FAULTED, with its timers stopped and its list emptied (R7, R11). -/
theorem enterFaulted_cage (c : Cage) (cause : FaultCause) (s : State) :
    (enterFaulted c cause s).cage c = (s.cage c).inFault cause := by
  rw [enterFaulted, moveCage_cage]
  rfl

theorem CageState.keepsList_of_powered {st : CageState} (h : st.powered = true) : st.emptiesList = false := by
  revert h
  cases st <;> decide

/-- A move between powered states leaves the arbiters alone (R7). -/
theorem moveCage_links_of_powered {c : Cage} {new : CageState} (cause : FaultCause) (s : State)
    (powered : new.powered = true) : (moveCage c new cause s).links = s.links := by
  unfold moveCage
  dsimp only
  rw [if_pos powered, CageState.keepsList_of_powered powered]
  simp only [Bool.false_eq_true, if_false]
  split <;> split <;> simp

theorem handReport_cageScan (c d : Cage) (s : State) : (handReport c s).cageScan d = s.cageScan d := rfl

/-- A cage's scan record at its move: that of a cage that enters VACANT is emptied (R141, R143). -/
theorem moveCage_cageScan (c : Cage) (new : CageState) (cause : FaultCause) (s : State) :
    (moveCage c new cause s).cageScan c = if new = .vacant then (s.cageScan c).vacated else s.cageScan c := by
  have handed : (claimHandOff c (s.cage c).state new s).cageScan c = s.cageScan c := cageScan_congr (by simp) c
  have dropped : ∀ u : State, (if new.powered then u else dropScanOf c u).cageScan c = u.cageScan c := fun u => by
    split
    · rfl
    · exact dropScanOf_cageScan c c u
  have emptied : ∀ u : State, (if new.emptiesList then emptyRequests c u else u).cageScan c = u.cageScan c := fun u => by
    split
    · exact cageScan_congr (by simp) c
    · rfl
  have named : ∀ u : State, (nameSource c new u).cageScan c = u.cageScan c := fun u => cageScan_congr (by simp) c
  have ended : ∀ u : State, (if new = (s.cage c).state then u else handReport c u).cageScan c = u.cageScan c :=
    fun u => by split <;> rfl
  have before : ∀ f, (State.updCage (nameSource c new (if new.emptiesList then
      emptyRequests c (if new.powered then claimHandOff c (s.cage c).state new s
        else dropScanOf c (claimHandOff c (s.cage c).state new s))
      else (if new.powered then claimHandOff c (s.cage c).state new s
        else dropScanOf c (claimHandOff c (s.cage c).state new s)))) c f).cageScan c = s.cageScan c := fun f =>
    (named _).trans ((emptied _).trans ((dropped _).trans handed))
  unfold moveCage
  dsimp only
  rw [ended]
  split
  · rw [cageScan_updScan, before]
  · exact before _

/-- The claims of a cage that moves are what the hand-off makes of them (R5). -/
theorem moveCage_claimUnit (c : Cage) (new : CageState) (cause : FaultCause) (s : State) :
    (moveCage c new cause s).claims = (claimHandOff c (s.cage c).state new s).claims := by
  unfold moveCage
  dsimp only
  split <;> split <;> split <;> split <;> simp

/-! ### The event unit -/

theorem recorded_handRecord (c : Cage) (kind : EventKind) (before : CageState) (cause : Option FaultCause) (s : State) :
    recorded s (handRecord c kind before cause s) c kind before cause (s.penalty c).value := by
  refine ⟨?_, rfl⟩
  rw [handRecord]
  exact modifyAt_same _ _ _

theorem recorded.congr {s t u : State} {c : Cage} {kind : EventKind} {before : CageState} {cause : Option FaultCause}
    {penalty : Nat} (h : recorded s t c kind before cause penalty) (events : u.events = t.events) :
    recorded s u c kind before cause penalty := by
  rw [recorded, events]
  exact h

/-- A cage that enters FAULTED gets a FAULT record, with its state before (R11). -/
theorem recorded_enterFaulted (c : Cage) (cause : FaultCause) (s : State) :
    recorded s (enterFaulted c cause s) c .fault (s.cage c).state (some cause) (s.penalty c).value :=
  (recorded_handRecord c .fault (s.cage c).state (some cause) s).congr (by simp [enterFaulted])

theorem enterFaulted_onlyCage (c : Cage) (cause : FaultCause) (s : State) : OnlyCage c s (enterFaulted c cause s) :=
  (handRecord_onlyCage c .fault (s.cage c).state (some cause) s).trans (moveCage_onlyCage c .faulted cause _)

theorem enterFaulted_took (c : Cage) (cause : FaultCause) (s : State) :
    tookSource .sequencer (s.line c) ((enterFaulted c cause s).line c) :=
  moveCage_took (new := .faulted) rfl cause (handRecord c .fault (s.cage c).state (some cause) s)

/-- The claim of a cage that enters FAULTED is handed off from its state before (R5). -/
theorem enterFaulted_claims (c : Cage) (cause : FaultCause) (s : State) :
    (enterFaulted c cause s).claims =
      (claimHandOff c (s.cage c).state .faulted (handRecord c .fault (s.cage c).state (some cause) s)).claims :=
  moveCage_claimUnit c .faulted cause (handRecord c .fault (s.cage c).state (some cause) s)

/-! ### Requests handed over -/

/-- The transaction of a request, whether its first chunk has been granted or not, is what the request asks for. -/
theorem carries_of_slot {t : State} {c : Cage} {q : CrsRequest} {address length : Nat} {data : Option (List Byte)}
    (transaction : crsTransaction c q =
      { readRequest (.crs q false) c address length with writeData := data })
    (slot : t.crsSlot c = some (crsTransaction c q) ∨ t.crsSlot c = some (crsTransaction c q).grant) :
    t.carries c q address length data := by
  rw [transaction] at slot
  rcases slot with slot | slot <;> exact ⟨_, slot, rfl, rfl, rfl, rfl, rfl⟩

/-- The one request of a cage whose slot is empty is handed over at the end of the event (R7). -/
theorem EndsAs.handsOver {u t : State} {c : Cage} {q : CrsRequest} {address length : Nat} {data : Option (List Byte)}
    (h : EndsAs u t) (free : u.crsSlot c = none) (one : (u.cage c).requests = [q]) (present : (u.line c).present = true)
    (transaction : crsTransaction c q =
      { readRequest (.crs q false) c address length with writeData := data }) :
    (t.cage c).requests = [] ∧ t.carries c q address length data := by
  obtain ⟨rest, slot⟩ := (h.requests c).handed q [] free one present
  exact ⟨rest, carries_of_slot transaction slot⟩

theorem readPoll_transaction (c : Cage) (value : Byte) (visit : Nat) :
    crsTransaction c ⟨.readyPoll, value, visit⟩ = readRequest (.crs ⟨.readyPoll, value, visit⟩ false) c 64 1 := rfl

theorem alertRead_transaction (c : Cage) (value : Byte) (visit : Nat) :
    crsTransaction c ⟨.alertRead, value, visit⟩ = readRequest (.crs ⟨.alertRead, value, visit⟩ false) c 64 3 := rfl

theorem addRequest_nil (q : CrsRequest) : addRequest q [] = [q] := rfl

/-! ### The lines -/

theorem exec_presentRawChange {s : State} (free : s.startup.resetHeld = false) (c : Cage) (level : Bool) :
    exec (.presentRawChange c level) s =
      eventNext true (fun s => s.updLines c (CageLines.presentChange level)) s :=
  if_neg (by simp [free])

theorem exec_linkUpRawChange {s : State} (free : s.startup.resetHeld = false) (c : Cage) (level : Bool) :
    exec (.linkUpRawChange c level) s = eventNext true (fun s => s.updLines c (CageLines.linkChange level)) s :=
  if_neg (by simp [free])

/-- Settles O7: the raw changes by `presentChange_eq` and `linkChange_eq`, the edge by the request it adds to the list of a
powered cage. -/
theorem lineLevelsChange : Obligations.LineLevelsChange := by
  refine ⟨fun c level s => ⟨fun free => ⟨?_, ?_⟩, fun held => ⟨?_, ?_⟩⟩, fun c s free => ⟨fun quiet => ?_, fun loud => ?_⟩⟩
  · obtain ⟨t, answer, ends⟩ := eventNext_occurs
      (effect := fun s => s.updLines c (CageLines.presentChange level)) free (rfl : true = true)
    refine ⟨t, (exec_presentRawChange free c level).trans answer, ?_⟩
    rwa [← funext (presentChange_eq level)]
  · obtain ⟨t, answer, ends⟩ := eventNext_occurs
      (effect := fun s => s.updLines c (CageLines.linkChange level)) free (rfl : true = true)
    refine ⟨t, (exec_linkUpRawChange free c level).trans answer, ?_⟩
    rwa [← funext (linkChange_eq level)]
  · exact if_pos held
  · exact if_pos held
  · let seen := s.updLines c (fun l => { l with alert := true })
    obtain ⟨t, answer, ends⟩ := eventNext_occurs
      (effect := fun s => takeAlert c (s.updLines c (fun l => { l with alert := true }))) free
      (show (!(s.line c).alert) = true by simp [quiet])
    refine ⟨t, answer, fun dark => ?_, fun powered => ?_⟩
    · have none : takeAlert c seen = seen := if_neg (by rw [show (seen.cage c) = s.cage c from rfl, dark]; nofun)
      rwa [none] at ends
    · have some_ : takeAlert c seen = ask c .alertRead 0 seen := if_pos powered
      rw [some_] at ends
      refine ⟨ends, fun slot empty present => ?_⟩
      exact ends.handsOver slot (by rw [ask, cage_updCage]; simp only [show seen.cage c = s.cage c from rfl, empty, addRequest_nil])
        ((congrArg CageLines.present (line_updLines s c _)).trans present) (alertRead_transaction _ _ _)
  · exact eventNext_occurs (effect := fun s => s.updLines c (fun l => { l with alert := false })) free loud

end Sys2Proof.Machine
end

section
/-! PROOF. The moves of a cage between powered states, a training retry and a flap (R23, R24, R27, R29), and the events of the
LINK_UP line and of the cage timers that bring them about. -/

namespace Sys2Proof.Machine

/-! ### A cage that goes on in the powered states -/

/-- The inputs of a cage's line record: the levels taken, and the filters. -/
def CageLines.inputs (l : CageLines) : Bool × Timer × Bool × Timer := (l.present, l.presentHold, l.link, l.linkHold)

/-- A cage goes on in the powered states with a record: no other cage, count, record of an event, arbiter or scanner changes,
and of its lines at most the source. -/
structure Goes (c : Cage) (k : CageRecord) (s t : State) : Prop where
  only      : OnlyCage c s t
  record    : t.recordIs c k
  startup   : t.startup = s.startup
  penalties : t.penalties = s.penalties
  events    : t.events = s.events
  links     : t.links = s.links
  scan      : t.scan = s.scan
  inputs    : (t.line c).inputs = (s.line c).inputs
  took      : ∀ l, tookSource .sequencer l (s.line c) → tookSource .sequencer l (t.line c)

theorem Goes.refl (c : Cage) (s : State) : Goes c (s.cage c) s s :=
  ⟨.refl c s, rfl, rfl, rfl, rfl, rfl, rfl, rfl, fun _ => id⟩

theorem Goes.trans {c : Cage} {k k' : CageRecord} {s t u : State} (h : Goes c k s t) (g : Goes c k' t u) :
    Goes c k' s u where
  only := h.only.trans g.only
  record := g.record
  startup := g.startup.trans h.startup
  penalties := g.penalties.trans h.penalties
  events := g.events.trans h.events
  links := g.links.trans h.links
  scan := g.scan.trans h.scan
  inputs := g.inputs.trans h.inputs
  took := fun l before => g.took l (h.took l before)

/-- The record that an operation leaves, told from the record it finds up to its requests. -/
theorem Goes.congr {c : Cage} {k k' : CageRecord} {s t : State} (h : Goes c k s t)
    (same : { k with requests := [] } = { k' with requests := [] }) : Goes c k' s t :=
  { h with record := h.record.congr same }

theorem Goes.link {c : Cage} {k : CageRecord} {s t : State} (h : Goes c k s t) : (t.line c).link = (s.line c).link :=
  congrArg (fun i => i.2.2.1) h.inputs

theorem Goes.present {c : Cage} {k : CageRecord} {s t : State} (h : Goes c k s t) :
    (t.line c).present = (s.line c).present :=
  congrArg (fun i => i.1) h.inputs

theorem tookSource_after {n : NamedSource} {l l' l'' : CageLines} (before : tookSource n l l')
    (after : tookSource n l' l'') : tookSource n l l'' := by
  obtain ⟨_, source⟩ := before
  obtain ⟨named, source'⟩ := after
  refine ⟨named, source'.trans ?_⟩
  rw [source]
  split
  · rfl
  · cases n <;> rfl

theorem updCage_goes (c : Cage) (f : CageRecord → CageRecord) (s : State) : Goes c (f (s.cage c)) s (s.updCage c f) where
  only := updCage_onlyCage c f s
  record := by rw [State.recordIs, cage_updCage]
  startup := rfl
  penalties := rfl
  events := rfl
  links := rfl
  scan := rfl
  inputs := rfl
  took _ := id

theorem ask_goes (c : Cage) (kind : CrsKind) (value : Byte) (s : State) : Goes c (s.cage c) s (ask c kind value s) :=
  (updCage_goes c _ s).congr rfl

/-- A move to a powered state, with the source SEQUENCER named (R1). -/
theorem moveCage_goes {c : Cage} {new : CageState} (s : State) (powered : new.powered = true) :
    Goes c ((s.cage c).move new .none (entryTimers s.conf (s.releasedAfter c new .none) s.openChoices new)) s
      (moveCage c new .none s) where
  only := moveCage_onlyCage _ _ _ _
  record := moveCage_record _ _ _ _
  startup := by simp
  penalties := by simp
  events := by simp
  links := moveCage_links_of_powered _ _ powered
  scan := moveCage_scan_of_powered _ _ _ powered
  inputs := by simp [CageLines.inputs]
  took := fun l before => tookSource_after before (moveCage_took (by revert powered; cases new <;> decide) _ _)

theorem moveCage_goes_train (c : Cage) (s : State) :
    Goes c { s.cage c with
      state := .train, timers := { noTimers with train := some s.conf.trainTimeout }, cause := .none,
      visit := (s.cage c).visit + 1 } s (moveCage c .train .none s) :=
  (moveCage_goes s rfl).congr rfl

theorem moveCage_goes_verify (c : Cage) (s : State) :
    Goes c { s.cage c with
      state := .verify, timers := { noTimers with verify := some s.conf.verifyTime }, cause := .none,
      visit := (s.cage c).visit + 1 } s (moveCage c .verify .none s) :=
  (moveCage_goes s rfl).congr rfl

/-- The state as TRAIN is entered, before a cage whose LINK_UP is asserted goes on to VERIFY. -/
def inTrainOf (c : Cage) (restart : Bool) (s : State) : State :=
  if restart then ask c .laneRestart (laneMask ((moveCage c .train .none s).lanesOf c)) (moveCage c .train .none s)
  else moveCage c .train .none s

theorem enterTrain_eq (c : Cage) (restart : Bool) (s : State) :
    enterTrain c restart s = if ((inTrainOf c restart s).line c).link then
      moveCage c .verify .none (inTrainOf c restart s) else inTrainOf c restart s := rfl

theorem inTrainOf_goes (c : Cage) (restart : Bool) (s : State) :
    Goes c { s.cage c with
      state := .train, timers := { noTimers with train := some s.conf.trainTimeout }, cause := .none,
      visit := (s.cage c).visit + 1 } s (inTrainOf c restart s) := by
  have train := moveCage_goes_train c s
  unfold inTrainOf
  split
  · refine train.trans ((ask_goes c _ _ _).congr ?_)
    rw [train.record]
  · exact train

/-- TRAIN entered, and VERIFY at the same event where LINK_UP is asserted (R23). -/
theorem enterTrain_goes (c : Cage) (restart : Bool) (s : State) :
    Goes c ((s.cage c).inTrain s.conf (s.line c).link) s (enterTrain c restart s) := by
  have train := inTrainOf_goes c restart s
  rw [enterTrain_eq, train.link]
  cases link : (s.line c).link with
  | false => exact train.congr rfl
  | true =>
    refine train.trans ((moveCage_goes_verify c _).congr ?_)
    have conf : (inTrainOf c restart s).conf = s.conf := by rw [State.conf, State.conf, train.startup]
    rw [train.record, conf]
    rfl

theorem enterTrain_took (c : Cage) (restart : Bool) (s : State) :
    tookSource .sequencer (s.line c) ((enterTrain c restart s).line c) := by
  have train := moveCage_took (c := c) (new := .train) rfl .none s
  have asked : tookSource .sequencer (s.line c) ((inTrainOf c restart s).line c) := by
    unfold inTrainOf
    split
    · exact (ask_goes c _ _ _).took _ train
    · exact train
  rw [enterTrain_eq]
  split
  · exact (moveCage_goes_verify c _).took _ asked
  · exact asked

/-- TRAIN entered leaves the waiting requests, but for the lane restart write of a retry at a timeout (R24). -/
theorem enterTrain_requests (c : Cage) (restart : Bool) (s : State) :
    ((enterTrain c restart s).cage c).requests =
      if restart then addRequest ⟨.laneRestart, laneMask (s.lanesOf c), (s.cage c).visit + 1⟩ (s.cage c).requests
      else (s.cage c).requests := by
  have moved : ∀ (new : CageState) (u : State), new.emptiesList = false →
      ((moveCage c new .none u).cage c).requests = (u.cage c).requests := fun new u keeps => by
    rw [moveCage_requests, keeps]
    rfl
  have train := (moveCage_goes_train c s).record
  have asked : ((inTrainOf c restart s).cage c).requests =
      if restart then addRequest ⟨.laneRestart, laneMask (s.lanesOf c), (s.cage c).visit + 1⟩ (s.cage c).requests
      else (s.cage c).requests := by
    unfold inTrainOf
    split
    · have lanes : (moveCage c .train .none s).lanesOf c = s.lanesOf c := by rw [State.lanesOf, train]; rfl
      rw [ask, cage_updCage, lanes]
      simp only [moved .train s rfl, train.visit]
    · exact moved .train s rfl
  rw [enterTrain_eq]
  split
  · rw [moved .verify _ rfl, asked]
  · exact asked

/-- TRAIN entered with the training retry count at 0. -/
theorem enterTrainAfresh_goes (c : Cage) (s : State) :
    Goes c (({ s.cage c with trainRetries := 0 } : CageRecord).inTrain s.conf (s.line c).link) s
      (enterTrainAfresh c s) := by
  refine (updCage_goes c _ s).trans ((enterTrain_goes c false (zeroRetries c s)).congr ?_)
  rw [zeroRetries, cage_updCage]
  rfl

theorem enterTrainAfresh_took (c : Cage) (s : State) :
    tookSource .sequencer (s.line c) ((enterTrainAfresh c s).line c) :=
  enterTrain_took c false (zeroRetries c s)

/-- HOLD-DOWN entered, with its transmitters wanted dark (R29). -/
theorem enterHoldDown_goes (c : Cage) (s : State) :
    Goes c ((s.cage c).inHoldDown (s.lanesOf c)) s (enterHoldDown c s) := by
  have moved : Goes c { s.cage c with
      state := .holdDown, timers := noTimers, cause := .none, visit := (s.cage c).visit + 1 } s
      (moveCage c .holdDown .none s) := (moveCage_goes s rfl).congr rfl
  refine moved.trans (((updCage_goes c _ _).trans (ask_goes c _ _ _)).congr ?_)
  rw [cage_updCage, moved.record]
  rfl

theorem enterHoldDown_took (c : Cage) (s : State) :
    tookSource .sequencer (s.line c) ((enterHoldDown c s).line c) :=
  ((updCage_goes c _ _).trans (ask_goes c _ _ _)).took _ (moveCage_took (new := .holdDown) rfl _ _)

/-! ### Debounce, verify and the two line levels -/

theorem presentDue_of {s : State} {c : Cage} (hold : (s.line c).presentHold.isSome = true)
    (away : (s.line c).presentRaw ≠ (s.line c).present) : s.presentDue c = true := by
  simp [State.presentDue, hold, away]

theorem linkDue_of {s : State} {c : Cage} (hold : (s.line c).linkHold.isSome = true)
    (away : (s.line c).linkRaw ≠ (s.line c).link) : s.linkDue c = true := by
  simp [State.linkDue, hold, away]

/-- Settles O8: a move to DEBOUNCE from VACANT after LOADING, and the taken level alone in every other case. -/
theorem insertionTaken : Obligations.InsertionTaken := by
  intro c moment s free hold raw absent
  let taken := s.updLines c (fun l => { l with present := true, presentHold := none })
  have taken_eq : s.updLines c CageLines.presentTaken = taken := updLines_congr (by rw [CageLines.presentTaken, raw])
  obtain ⟨t, answer, ends⟩ := eventNext_occurs (effect := takePresent c moment) free
    (presentDue_of hold (by simp [raw, absent]))
  have present : (taken.line c).present = true := by rw [line_updLines]
  have effect : takePresent c moment s = presentAsserted c taken := by
    rw [takePresent, taken_eq]
    exact if_pos present
  rw [effect] at ends
  refine ⟨t, answer, fun loaded vacant => ?_, fun still => ?_⟩
  · have moves : presentAsserted c taken = moveCage c .debounce .none taken := if_pos ⟨loaded, vacant⟩
    rw [moves] at ends
    obtain ⟨inputs, holds, _, _⟩ := moveCage_inputs c .debounce .none taken
    have line : taken.line c = { s.line c with present := true, presentHold := none } := line_updLines _ _ _
    refine ⟨ends.onlyCage ((updLines_onlyCage c _ s).trans (moveCage_onlyCage _ _ _ _)),
      ends.recordIs ((moveCage_record c .debounce .none taken).congr rfl), ?_, ?_, ?_, ?_, ?_, ?_⟩
    · rw [ends.line, inputs, line]
    · rw [ends.line, holds, line]
    · have took := moveCage_took (c := c) (new := .debounce) rfl .none taken
      rw [line] at took
      rw [ends.line]
      exact took
    · rw [ends.penalty, penalty_congr (moveCage_frame _ _ _ _).2.2.2.1]
      rfl
    · rw [ends.cageScan, moveCage_cageScan]
      rfl
    · rw [ends.same.events, (moveCage_frame c .debounce .none taken).2.2.2.2.2.1]
      rfl
  · have stays : presentAsserted c taken = taken := if_neg (by
      rintro ⟨loaded, vacant⟩
      exact still.elim loaded (· vacant))
    rwa [stays] at ends

/-- Settles O11: a move to VERIFY from TRAIN, TRAIN entered afresh from DARK-WAIT, and the taken level alone in every other
state. -/
theorem linkAssertionTaken : Obligations.LinkAssertionTaken := by
  intro c s free hold raw down
  let taken := s.updLines c (fun l => { l with link := true, linkHold := none })
  have taken_eq : s.updLines c CageLines.linkTaken = taken := updLines_congr (by rw [CageLines.linkTaken, raw])
  obtain ⟨t, answer, ends⟩ := eventNext_occurs (effect := takeLink c) free (linkDue_of hold (by simp [raw, down]))
  have link : (taken.line c).link = true := by rw [line_updLines]
  have only := updLines_onlyCage c (fun l => { l with link := true, linkHold := none }) s
  have effect : takeLink c s = linkAsserted c taken := by
    rw [takeLink, taken_eq]
    exact if_pos link
  rw [effect] at ends
  have cage : taken.cage c = s.cage c := rfl
  have goes : ∀ {k : CageRecord} {u : State}, Goes c k taken u → EndsAs u t →
      OnlyCage c s t ∧ t.recordIs c k ∧ (t.line c).link = true ∧ t.events = s.events ∧ t.penalty c = s.penalty c :=
    fun h ends => ⟨ends.onlyCage (only.trans h.only), ends.recordIs h.record, by rw [ends.line, h.link, link],
      by rw [ends.same.events, h.events]; rfl, by rw [ends.penalty, penalty_congr h.penalties]; rfl⟩
  refine ⟨t, answer, fun train => ?_, fun dark => ?_, fun notTrain notDark => ?_⟩
  · have moves : linkAsserted c taken = moveCage c .verify .none taken := by rw [linkAsserted, cage, train]
    exact goes (moveCage_goes_verify c taken) (moves ▸ ends)
  · have moves : linkAsserted c taken = enterTrainAfresh c taken := by rw [linkAsserted, cage, dark]
    have entered := enterTrainAfresh_goes c taken
    rw [link] at entered
    exact goes entered (moves ▸ ends)
  · have stays : linkAsserted c taken = taken := by
      rw [linkAsserted, cage]
      split
      · exact absurd ‹_› notTrain
      · exact absurd ‹_› notDark
      · rfl
    rwa [stays] at ends

/-- Settles O21: a move to IN-SERVICE after its record; under SEQUENCER its pattern is the one that admits the port. -/
theorem verifyEnds_spec : Obligations.VerifyEnds := by
  intro c s free state timer
  obtain ⟨t, answer, ends⟩ := eventNext_occurs (effect := verifyEnds c) free
    (show (decide ((s.cage c).state = .verify) && (s.cage c).timers.verify.isSome) = true by simp [state, timer])
  let noted := handRecord c .inService .verify none s
  have cage : noted.cage c = s.cage c := cage_congr (by simp [noted]) c
  have line : noted.line c = s.line c := line_congr (by simp [noted]) c
  have moved : Goes c _ noted (verifyEnds c s) := moveCage_goes noted rfl
  have record := moved.record
  rw [cage] at record
  refine ⟨t, answer, ends.onlyCage ((handRecord_onlyCage _ _ _ _ _).trans moved.only), ends.recordIs (record.congr rfl), ?_,
    ?_, fun lifted => ?_⟩
  · rw [ends.penalty, penalty_congr moved.penalties]
    exact penalty_congr (by simp [noted]) c
  · exact (recorded_handRecord c .inService .verify none s).congr (ends.same.events.trans moved.events)
  · obtain ⟨_, source⟩ := moveCage_took (c := c) (new := .inService) rfl .none noted
    rw [line, if_neg lifted] at source
    have in_ : (t.cage c).state = .inService := (ends.recordIs record).state
    have under : (t.line c).source = .sequencer := by rw [ends.line]; exact source
    rw [State.outputs, outputLevels, under, in_]
    rfl

end Sys2Proof.Machine
end

section
/-! PROOF. The flap, the training retry, and the cage timers that end in IDENTIFY, in FAULTED, in DARK-WAIT or in a request
(R13, R14, R20 to R22, R24, R25, R27, R29, R30). -/

namespace Sys2Proof.Machine

/-! ### Records of events -/

theorem history_handRecord (c : Cage) (kind : EventKind) (before : CageState) (cause : Option FaultCause) (s : State) :
    (handRecord c kind before cause s).events.histories[c] =
      (madeRecord s c s.events.nextSequence kind before cause (s.penalty c).value :: s.events.histories[c]).take 4 :=
  modifyAt_same _ _ _

theorem madeRecord_congr {s t : State} {c : Cage} (startup : t.startup = s.startup)
    (scan : t.cageScan c = s.cageScan c) : madeRecord t c = madeRecord s c := by
  funext number kind before cause penalty
  rw [madeRecord, madeRecord, snapshotFor, snapshotFor, State.conf, State.conf, startup, scan]

/-- A record made of a state is one made of any other with the same station time, sample record and event unit. -/
theorem recorded.of_units {s s' t : State} {c : Cage} {kind : EventKind} {before : CageState} {cause : Option FaultCause}
    {penalty : Nat} (h : recorded s' t c kind before cause penalty) (startup : s'.startup = s.startup)
    (scan : s'.cageScan c = s.cageScan c) (events : s'.events = s.events) :
    recorded s t c kind before cause penalty := by
  rw [recorded, ← madeRecord_congr startup scan, ← events]
  exact h

/-- Two records made at one event (R173, R174). -/
theorem history_handRecord_twice (c : Cage) (kind kind' : EventKind) (before before' : CageState)
    (cause cause' : Option FaultCause) (s : State) :
    (handRecord c kind' before' cause' (handRecord c kind before cause s)).events.histories[c] =
      (madeRecord s c ((s.events.nextSequence + 1) % 65536) kind' before' cause' (s.penalty c).value ::
        madeRecord s c s.events.nextSequence kind before cause (s.penalty c).value ::
        s.events.histories[c]).take 4 := by
  rw [history_handRecord, history_handRecord]
  simp only [List.take_succ_cons, List.take_take]
  rfl

theorem handRecord_cage (c d : Cage) (kind : EventKind) (before : CageState) (cause : Option FaultCause) (s : State) :
    (handRecord c kind before cause s).cage d = s.cage d := rfl

theorem handRecord_line (c d : Cage) (kind : EventKind) (before : CageState) (cause : Option FaultCause) (s : State) :
    (handRecord c kind before cause s).line d = s.line d := rfl

/-! ### A flap -/

/-- The state after the penalty of a flap and its record (R27, R103). -/
def flapped (c : Cage) (s : State) : State := handRecord c .flap .inService none (flapPenalty c s)

theorem penalty_flapped (c : Cage) (s : State) :
    (flapped c s).penalty c = { s.penalty c with value := min 16383 ((s.penalty c).value + s.conf.flapIncrement) } :=
  penalty_updPenalty s c _

theorem flapped_onlyCage (c : Cage) (s : State) : OnlyCage c s (flapped c s) :=
  (updPenalty_onlyCage c _ s).trans (handRecord_onlyCage _ _ _ _ _)

theorem recorded_flapped (c : Cage) (s : State) :
    recorded s (flapped c s) c .flap .inService none ((flapped c s).penalty c).value :=
  (recorded_handRecord c .flap .inService none (flapPenalty c s)).of_units rfl rfl rfl

/-- A flap at or above S: HOLD-DOWN after its record. -/
theorem takeFlap_suppressed {c : Cage} {s : State} (high : s.conf.suppress ≤ ((flapped c s).penalty c).value) :
    takeFlap c s = enterHoldDown c (handRecord c .holdDown .inService none (flapped c s)) :=
  if_pos (decide_eq_true high)

/-- A flap below S: TRAIN entered afresh. -/
theorem takeFlap_unsuppressed {c : Cage} {s : State} (low : ((flapped c s).penalty c).value < s.conf.suppress) :
    takeFlap c s = enterTrainAfresh c (flapped c s) :=
  if_neg (by
    rw [State.suppressed, decide_eq_true_eq]
    exact Nat.not_le_of_lt low)

/-- Under HELD or SEQUENCER a cage outside IN-SERVICE keeps its port shut (R156, R160). -/
theorem outputs_closed {s : State} {c : Cage} {l : CageLines} (took : tookSource .sequencer l (s.line c))
    {p : Levels} (pattern : (s.cage c).state.pattern = some p) (closed : p.portAdmit = false) :
    (s.outputs c).portAdmit = false := by
  obtain ⟨_, source⟩ := took
  rw [State.outputs, outputLevels, source]
  by_cases held : l.source = .held
  · rw [if_pos held]
    rfl
  · rw [if_neg held]
    simp only [NamedSource.source, pattern]
    exact closed

/-- What a flap does to a cage in IN-SERVICE (R27, R29, R103). -/
structure FlapTaken (c : Cage) (s u : State) : Prop where
  only    : OnlyCage c s u
  penalty : u.penalty c = { s.penalty c with
    value := min 16383 ((s.penalty c).value + s.conf.flapIncrement) }
  inputs  : (u.line c).inputs = (s.line c).inputs
  took    : tookSource .sequencer (s.line c) (u.line c)
  held    : s.conf.suppress ≤ (u.penalty c).value → u.recordIs c ((s.cage c).inHoldDown (s.lanesOf c)) ∧
    u.events.histories[c] =
      (madeRecord s c ((s.events.nextSequence + 1) % 65536) .holdDown .inService none (u.penalty c).value ::
        madeRecord s c s.events.nextSequence .flap .inService none (u.penalty c).value ::
        s.events.histories[c]).take 4
  trained : (u.penalty c).value < s.conf.suppress →
    u.recordIs c (({ s.cage c with trainRetries := 0 } : CageRecord).inTrain s.conf (s.line c).link) ∧
    recorded s u c .flap .inService none (u.penalty c).value

theorem takeFlap_taken (c : Cage) (s : State) : FlapTaken c s (takeFlap c s) := by
  rcases Nat.lt_or_ge ((flapped c s).penalty c).value s.conf.suppress with low | high
  · rw [takeFlap_unsuppressed low]
    have goes := enterTrainAfresh_goes c (flapped c s)
    have penalty : (enterTrainAfresh c (flapped c s)).penalty c = (flapped c s).penalty c := penalty_congr goes.penalties c
    exact {
      only := (flapped_onlyCage c s).trans goes.only
      penalty := penalty.trans (penalty_flapped c s)
      inputs := goes.inputs
      took := enterTrainAfresh_took c (flapped c s)
      held := fun high => by rw [penalty] at high; omega
      trained := fun _ => ⟨goes.record, by
        rw [penalty]
        exact (recorded_flapped c s).congr goes.events⟩ }
  · rw [takeFlap_suppressed high]
    have goes := enterHoldDown_goes c (handRecord c .holdDown .inService none (flapped c s))
    have penalty := penalty_congr goes.penalties c
    exact {
      only := ((flapped_onlyCage c s).trans (handRecord_onlyCage _ _ _ _ _)).trans goes.only
      penalty := penalty.trans (penalty_flapped c s)
      inputs := goes.inputs
      took := enterHoldDown_took c (handRecord c .holdDown .inService none (flapped c s))
      held := fun _ => ⟨goes.record, by
        rw [penalty, goes.events]
        exact history_handRecord_twice c .flap .holdDown .inService .inService none none (flapPenalty c s)⟩
      trained := fun low => by
        rw [penalty] at low
        exact absurd high (Nat.not_le_of_lt low) }

/-- Settles O12: the flap's penalty and record, and then HOLD-DOWN or TRAIN by what the penalty has come to. -/
theorem flapOnLinkDrop : Obligations.FlapOnLinkDrop := by
  intro c s free state hold raw up
  let taken := s.updLines c (fun l => { l with link := false, linkHold := none })
  have taken_eq : s.updLines c CageLines.linkTaken = taken := updLines_congr (by rw [CageLines.linkTaken, raw])
  obtain ⟨t, answer, ends⟩ := eventNext_occurs (effect := takeLink c) free (linkDue_of hold (by simp [raw, up]))
  have line : taken.line c = { s.line c with link := false, linkHold := none } := line_updLines _ _ _
  have effect : takeLink c s = takeFlap c taken := by
    rw [takeLink, taken_eq]
    refine (if_neg (by rw [line]; nofun)).trans ?_
    rw [linkDeasserted, show (taken.cage c).state = .inService from state]
  rw [effect] at ends
  obtain ⟨only, penalty, inputs, took, held, trained⟩ := takeFlap_taken c taken
  rw [line] at inputs took
  have value : ((takeFlap c taken).penalty c).value = min 16383 ((s.penalty c).value + s.conf.flapIncrement) := by
    rw [penalty]
    rfl
  rw [value] at held trained
  have link : (t.line c).link = false := (congrArg CageLines.link (ends.line c)).trans (congrArg (fun i => i.2.2.1) inputs)
  have closed : ∀ k : CageRecord, (takeFlap c taken).recordIs c k → (∃ p, k.state.pattern = some p ∧ p.portAdmit = false) →
      (t.outputs c).portAdmit = false := fun k is ⟨p, pattern, shut⟩ =>
    outputs_closed (s := t) (p := p) (by rw [ends.line]; exact took) (by rw [(ends.recordIs is).state]; exact pattern) shut
  refine ⟨t, answer, ends.onlyCage ((updLines_onlyCage c _ s).trans only), ?_, link, ?_, fun high => ?_, fun low => ?_⟩
  · rw [ends.penalty]
    exact penalty
  · rcases Nat.lt_or_ge (min 16383 ((s.penalty c).value + s.conf.flapIncrement)) s.conf.suppress with low | high
    · exact closed _ (trained low).1 ⟨_, by rw [line]; rfl, rfl⟩
    · exact closed _ (held high).1 ⟨_, rfl, rfl⟩
  · refine ⟨ends.recordIs (held high).1, ?_⟩
    rw [ends.same.events]
    exact (held high).2
  · have is := (trained low).1
    rw [line] at is
    exact ⟨ends.recordIs is, ((trained low).2.congr ends.same.events).of_units rfl rfl rfl⟩

/-! ### A training retry -/

theorem trainingRetry_spent {c : Cage} {timeout : Bool} {s : State} (spent : 3 ≤ (s.cage c).trainRetries) :
    trainingRetry c timeout s = enterFaulted c .trainExhausted
      (s.updCage c (fun k => { k with trainRetries := (s.cage c).trainRetries + 1 })) :=
  if_pos (Nat.succ_le_succ spent)

theorem trainingRetry_again {c : Cage} {timeout : Bool} {s : State} (few : (s.cage c).trainRetries < 3) :
    trainingRetry c timeout s = enterTrain c timeout
      (s.updCage c (fun k => { k with trainRetries := (s.cage c).trainRetries + 1 })) :=
  if_neg (by omega)

/-- What a training retry does to a cage in TRAIN or VERIFY (R24). -/
structure RetryTaken (c : Cage) (timeout : Bool) (s u : State) : Prop where
  only    : OnlyCage c s u
  penalty : u.penalties = s.penalties
  inputs  : (u.line c).inputs = (s.line c).inputs
  again   : (s.cage c).trainRetries < 3 →
    u.events = s.events ∧ u.links = s.links ∧
    u.recordIs c (({ s.cage c with trainRetries := (s.cage c).trainRetries + 1 } : CageRecord).inTrain s.conf
      (s.line c).link) ∧
    (u.cage c).requests = if timeout then
      addRequest ⟨.laneRestart, laneMask (s.lanesOf c), (s.cage c).visit + 1⟩ (s.cage c).requests
      else (s.cage c).requests
  spent   : 3 ≤ (s.cage c).trainRetries →
    u.cage c = ({ s.cage c with trainRetries := (s.cage c).trainRetries + 1 } : CageRecord).inFault .trainExhausted ∧
    recorded s u c .fault (s.cage c).state (some .trainExhausted) (s.penalty c).value

theorem enterFaulted_inputs (c : Cage) (cause : FaultCause) (s : State) :
    ((enterFaulted c cause s).line c).inputs = (s.line c).inputs := by
  obtain ⟨present, hold, link, linkHold⟩ :=
    moveCage_inputs c .faulted cause (handRecord c .fault (s.cage c).state (some cause) s)
  simp only [CageLines.inputs, enterFaulted, present, hold, link, linkHold, handRecord_line]

theorem trainingRetry_taken (c : Cage) (timeout : Bool) (s : State) :
    RetryTaken c timeout s (trainingRetry c timeout s) := by
  let counted := s.updCage c (fun k => { k with trainRetries := (s.cage c).trainRetries + 1 })
  have cage : counted.cage c = { s.cage c with trainRetries := (s.cage c).trainRetries + 1 } := cage_updCage _ _ _
  rcases Nat.lt_or_ge (s.cage c).trainRetries 3 with few | spent
  · rw [trainingRetry_again few]
    have goes := enterTrain_goes c timeout counted
    have requests := enterTrain_requests c timeout counted
    rw [State.lanesOf, cage] at requests
    rw [cage] at goes
    exact {
      only := (updCage_onlyCage c _ s).trans goes.only
      penalty := goes.penalties
      inputs := goes.inputs
      again := fun _ => ⟨goes.events, goes.links, goes.record, requests⟩
      spent := fun spent => by omega }
  · rw [trainingRetry_spent spent]
    have faulted := enterFaulted_cage c .trainExhausted counted
    have record := recorded_enterFaulted c .trainExhausted counted
    rw [cage] at faulted record
    exact {
      only := (updCage_onlyCage c _ s).trans (enterFaulted_onlyCage _ _ _)
      penalty := (enterFaulted_frame _ _ _).2.2.2.1
      inputs := enterFaulted_inputs _ _ _
      again := fun few => by omega
      spent := fun _ => ⟨faulted, record.of_units rfl rfl rfl⟩ }

/-! ### The timers -/

theorem updCage_updCage (s : State) (c : Cage) (f g : CageRecord → CageRecord) :
    (s.updCage c f).updCage c g = s.updCage c (fun k => g (f k)) := by
  simp [State.updCage, modifyAt]

theorem addRequest_of_new {q : CrsRequest} {list : List CrsRequest}
    (new : list.any (fun p => decide (p.kind = q.kind)) = false) : addRequest q list = list ++ [q] :=
  if_neg (by rw [new]; nofun)

theorem farEndDark_iff (s : State) (c : Cage) : s.farEndDark c = true ↔
    ∃ r, (s.cageScan c).sample = some r ∧ ∀ e ∈ r.entries, e.rxLost = true := by
  rw [State.farEndDark]
  cases (s.cageScan c).sample <;> simp

/-- Settles O20: a move to DARK-WAIT, or a training retry at a timeout. -/
theorem trainTimerExpires : Obligations.TrainTimerExpires := by
  intro c s free state timer link
  obtain ⟨t, answer, ends⟩ := eventNext_occurs (effect := trainEnds c) free
    (show (decide ((s.cage c).state = .train) && (s.cage c).timers.train.isSome) = true by simp [state, timer])
  cases dark : s.farEndDark c with
  | true =>
    have sample := (farEndDark_iff s c).1 dark
    have effect : trainEnds c s = moveCage c .darkWait .none s := if_pos dark
    rw [effect] at ends
    have goes := moveCage_goes (c := c) (new := .darkWait) s rfl
    refine ⟨t, answer, ends.onlyCage goes.only, (ends.penalty c).trans (penalty_congr goes.penalties c),
      fun _ => ⟨ends.recordIs (goes.record.congr rfl), ends.same.events.trans goes.events⟩, fun lit => ?_⟩
    obtain ⟨r, some_, all⟩ := sample
    obtain ⟨e, mem, light⟩ := lit r some_
    rw [all e mem] at light
    cases light
  | false =>
    have effect : trainEnds c s = trainingRetry c true s := if_neg (by rw [dark]; nofun)
    rw [effect] at ends
    have taken := trainingRetry_taken c true s
    refine ⟨t, answer, ends.onlyCage taken.only, (ends.penalty c).trans (penalty_congr taken.penalty c), fun shown => ?_,
      fun _ => ⟨fun few => ?_, fun spent => ?_⟩⟩
    · rw [(farEndDark_iff s c).2 shown] at dark
      cases dark
    · obtain ⟨events, links, record, requests⟩ := taken.again few
      rw [link] at record
      refine ⟨ends.recordIs record, ends.same.events.trans events, fun slot empty present => ?_⟩
      rw [empty, if_pos rfl] at requests
      have handed := ends.handsOver (data := some [laneMask (s.lanesOf c)]) (address := 120) (length := 1)
        ((crsSlot_congr links c).trans slot) requests
        ((congrArg (fun i => i.1) taken.inputs).trans present) rfl
      obtain ⟨r, held, _, _, address, _, data⟩ := handed.2
      exact ⟨r, held, address, data⟩
    · obtain ⟨record, recorded⟩ := taken.spent spent
      rw [state] at recorded
      rw [ends.cage_eq (by rw [record]; rfl), record]
      exact ⟨rfl, rfl, rfl, rfl, recorded.congr ends.same.events⟩

/-- Settles O16: IDENTIFY entered after the INSERTED record; its init wait runs where the source in force is SEQUENCER. -/
theorem debounceEnds_spec : Obligations.DebounceEnds := by
  intro c s free state timer
  obtain ⟨t, answer, ends⟩ := eventNext_occurs (effect := debounceEnds c) free
    (show (decide ((s.cage c).state = .debounce) && (s.cage c).timers.debounce.isSome) = true by simp [state, timer])
  let noted := handRecord c .inserted .debounce none s
  let moved := moveCage c .identify .none noted
  have effect : debounceEnds c s = moved.updCage c (fun k => { k with identity := none, identReads := 0 }) := rfl
  have only : OnlyCage c s moved := (handRecord_onlyCage _ _ _ _ _).trans (moveCage_onlyCage _ _ _ _)
  have took : tookSource .sequencer (s.line c) (moved.line c) := moveCage_took (new := .identify) rfl .none noted
  have released : noted.releasedAfter c .identify .none = !decide ((s.line c).source = .held) := by
    rw [State.releasedAfter, show (moveCage c .identify .none noted).line c = moved.line c from rfl, took.2]
    by_cases held : (s.line c).source = .held <;> simp [held, NamedSource.source]
  have record := moveCage_record c .identify .none noted
  rw [released] at record
  rw [effect] at ends
  have is : (moved.updCage c (fun k => { k with identity := none, identReads := 0 })).recordIs c { s.cage c with
      state := .identify,
      timers := if (s.line c).source = .held then noTimers
                else { noTimers with initWait := some 2000, initStart := s.openChoices },
      cause := .none, identity := none, identReads := 0, linkFails := 0, visit := (s.cage c).visit + 1 } := by
    rw [State.recordIs, cage_updCage, record]
    by_cases held : (s.line c).source = .held <;> simp only [held, decide_true, decide_false, if_true, if_false] <;> rfl
  refine ⟨t, answer, ends.onlyCage (only.trans (updCage_onlyCage _ _ _)), ends.recordIs is, ?_, ?_, ?_, ?_⟩
  · rw [ends.line]
    exact took
  · rw [ends.penalty]
    exact penalty_congr (moveCage_frame _ _ _ _).2.2.2.1 c
  · rw [ends.cageScan]
    exact moveCage_cageScan c .identify .none noted
  · exact (recorded_handRecord c .inserted .debounce none s).congr
      (ends.same.events.trans (moveCage_frame c .identify .none noted).2.2.2.2.2.1)

/-- Settles O18: the timer restarted, and a poll asked for unless one is due. -/
theorem pollTimerExpires : Obligations.PollTimerExpires := by
  intro c s free state timer
  obtain ⟨t, answer, ends⟩ := eventNext_occurs (effect := pollDue c) free
    (show (decide ((s.cage c).state = .powerUp) && (s.cage c).timers.poll.isSome) = true by simp [state, timer])
  let again := s.updCage c (fun k => { k with timers := { k.timers with poll := some 50 } })
  have due : again.statusReadDue c = s.statusReadDue c := by
    simp [again, State.statusReadDue, State.outstanding, CageRecord.awaits]
  refine ⟨t, answer, fun waits => ?_, fun none => ?_⟩
  · have effect : pollDue c s = again := if_pos (due.trans waits)
    rwa [effect] at ends
  · have unasked : (s.cage c).requests.any (fun p => decide (p.kind = .readyPoll)) = false := by
      simp only [State.statusReadDue, Bool.or_eq_false_iff] at none
      exact none.1.1.1
    have effect : pollDue c s = s.updCage c (fun k => { k with
        timers := { k.timers with poll := some 50 },
        requests := k.requests ++ [⟨.readyPoll, 0, k.visit⟩] }) := by
      have asked : pollDue c s = ask c .readyPoll 0 again := if_neg (by rw [due, none]; nofun)
      rw [asked, ask, updCage_updCage]
      exact updCage_congr (congrArg (fun requests => { s.cage c with
        timers := { (s.cage c).timers with poll := some 50 }, requests := requests }) (addRequest_of_new unasked))
    rw [effect] at ends
    refine ⟨ends, fun slot empty present => ?_⟩
    exact ends.handsOver slot (by rw [cage_updCage, empty]; rfl) present (readPoll_transaction _ _ _)

/-! ### Claims handed off -/

theorem Tested.claim_unlisted {s t : State} (h : Tested s t) {c : Cage} (unlisted : (s.claim c).listed = false) :
    t.claim c = s.claim c := by
  induction h with
  | stops s _ => rfl
  | queues d s t chosen _ _ ih =>
    have other : c ≠ d := fun same => by
      rw [same, candidate_listed chosen] at unlisted
      cases unlisted
    have kept : (queueIntent d s).claim c = s.claim c := claim_setClaim_other other _ _
    rw [ih (by rw [kept, unlisted]), kept]

/-- The queue-time test at the end of an event takes a cage of the admission list, so the claim of any other stays. -/
theorem EndsAs.claim_unlisted {u t : State} (h : EndsAs u t) {c : Cage} (unlisted : (u.claim c).listed = false) :
    t.claim c = u.claim c := by
  cases due : u.claims.testDue with
  | false => exact claim_congr (h.untested due).1 c
  | true =>
    obtain ⟨v, w, _, claims, _, tested, same, _⟩ := h.tested due
    have before : v.claim c = u.claim c := by rw [State.claim, claims]; rfl
    rw [claim_congr same, tested.claim_unlisted (by rw [before, unlisted]), before]

theorem abandonIntent_totals (e : OwnIntent) (s : State) :
    (abandonIntent e s).claims.committed = s.claims.committed ∧
    (abandonIntent e s).claims.releasePending = s.claims.releasePending := by
  unfold abandonIntent
  split <;> exact ⟨rfl, rfl⟩

theorem disposeClaim_committed (c : Cage) (s : State) : (disposeClaim c s).claims.committed = s.claims.committed := by
  unfold disposeClaim
  repeat' split
  · rfl
  · rfl
  · exact (abandonIntent_totals _ _).1
  · rfl
  · exact (abandonIntent_totals _ _).1
  · rfl

theorem disposeClaim_confirmed {c : Cage} {s : State} (confirmed : (s.claim c).state = .confirmed) :
    disposeClaim c s = releaseClaim c s := by
  rw [disposeClaim, confirmed]

theorem claimHandOff_faulted {c : Cage} {old : CageState} {s : State} (old_ : old = .powerUp ∨ old = .lightSettle) :
    claimHandOff c old .faulted s = disposeClaim c s := by
  rcases old_ with rfl | rfl <;> rfl

theorem EndsAs.totals {u t : State} (h : EndsAs u t) :
    t.claims.committed = u.claims.committed ∧ t.claims.releasePending = u.claims.releasePending := by
  rw [h.same.claimUnit]
  exact ⟨rfl, rfl⟩

/-- Settles O19: FAULTED entered with the timer's cause, and the claim handed off (R61). -/
theorem timeoutFaults : Obligations.TimeoutFaults := by
  intro i cause c s free which
  have fires : ∃ t, exec i s = .next t ∧ EndsAs (enterFaulted c cause s) t := by
    rcases which with ⟨rfl, rfl, state, timer⟩ | ⟨rfl, rfl, state, timer⟩
    · exact eventNext_occurs (effect := enterFaulted c .readyTimeout) free (by simp [state, timer])
    · exact eventNext_occurs (effect := enterFaulted c .noLight) free
        (by rcases state with h | h <;> simp [h, timer, CageState.settling])
  have state : (s.cage c).state = .powerUp ∨ (s.cage c).state = .lightSettle ∨ (s.cage c).state = .relight := by
    rcases which with ⟨_, _, state, _⟩ | ⟨_, _, state, _⟩
    · exact .inl state
    · exact .inr state
  obtain ⟨t, answer, ends⟩ := fires
  have claims := enterFaulted_claims c cause s
  have record := enterFaulted_cage c cause s
  obtain ⟨committed, pending⟩ := ends.totals
  let noted := handRecord c .fault (s.cage c).state (some cause) s
  have disposed : (s.cage c).state ≠ .relight →
      (enterFaulted c cause s).claims = (disposeClaim c noted).claims := fun not => by
    rw [claims, claimHandOff_faulted (by rcases state with h | h | h <;> simp_all)]
  have kept : (s.cage c).state = .relight → (enterFaulted c cause s).claims = s.claims := fun h => by
    rw [claims, h]
    rfl
  refine ⟨t, answer, ends.onlyCage (enterFaulted_onlyCage _ _ _), ?_, ?_, ?_, ?_, ?_, fun not confirmed unlisted => ?_,
    fun relight => ?_⟩
  · rw [ends.cage_eq (by rw [record]; rfl), record]
    rfl
  · rw [ends.line]
    exact enterFaulted_took c cause s
  · exact (ends.penalty c).trans (penalty_congr (enterFaulted_frame _ _ _).2.2.2.1 c)
  · exact (recorded_enterFaulted c cause s).congr ends.same.events
  · rw [committed]
    by_cases relight : (s.cage c).state = .relight
    · exact congrArg ClaimUnit.committed (kept relight)
    · exact (congrArg ClaimUnit.committed (disposed relight)).trans (disposeClaim_committed _ _)
  · have released : (enterFaulted c cause s).claims = (releaseClaim c noted).claims :=
      (disposed not).trans (by rw [disposeClaim_confirmed (s := noted) confirmed])
    have claim : (enterFaulted c cause s).claim c = { s.claim c with state := .none } :=
      (claim_congr released c).trans (claim_setClaim c .none noted)
    refine ⟨?_, ?_⟩
    · rw [ends.claim_unlisted (by rw [claim]; exact unlisted), claim]
    · rw [pending]
      exact congrArg ClaimUnit.releasePending released
  · rw [pending]
    exact congrArg ClaimUnit.releasePending (kept relight)

end Sys2Proof.Machine
end

section
/-! PROOF. The choice of a segment at the end of an event (R121), and the init waits that expire together (R14, R159). -/

namespace Sys2Proof.Machine

/-! ### Lists in order of a key -/

/-- Of two cages the first in order: the lower key, and at one key the lower number. -/
def keyedBefore (key : Cage → Nat) (c d : Cage) : Prop := key c < key d ∨ (key c = key d ∧ c < d)

theorem insertByKey_sorted {key : Cage → Nat} {x : Cage} {l : List Cage} (sorted : l.Pairwise (keyedBefore key))
    (first : ∀ y ∈ l, x < y) : (insertByKey key x l).Pairwise (keyedBefore key) := by
  induction l with
  | nil => exact .cons nofun .nil
  | cons y ys ih =>
    obtain ⟨after, rest⟩ := List.pairwise_cons.1 sorted
    unfold insertByKey
    split
    next le =>
      have before : keyedBefore key x y := (Nat.lt_or_eq_of_le le).imp_right fun same => ⟨same, first y (.head _)⟩
      refine .cons (fun z mem => ?_) sorted
      rcases List.mem_cons.1 mem with rfl | mem
      · exact before
      · rcases after z mem with lt | ⟨same, _⟩
        · exact .inl (Nat.lt_of_le_of_lt le lt)
        · exact (Nat.lt_or_eq_of_le (same ▸ le)).imp_right fun same => ⟨same, first z (.tail _ mem)⟩
    next gt =>
      refine .cons (fun z mem => ?_) (ih rest fun z mem => first z (.tail _ mem))
      rcases List.mem_cons.1 ((insertByKey_perm key x ys).mem_iff.1 mem) with rfl | mem
      · exact .inl (Nat.lt_of_not_le gt)
      · exact after z mem

/-- Cages in ascending order are put in the order of their keys, equal keys by number. -/
theorem sortByKey_sorted {key : Cage → Nat} {l : List Cage} (ascending : l.Pairwise (· < ·)) :
    (sortByKey key l).Pairwise (keyedBefore key) := by
  induction l with
  | nil => exact .nil
  | cons x l ih =>
    obtain ⟨first, rest⟩ := List.pairwise_cons.1 ascending
    exact insertByKey_sorted (ih rest) fun y mem => first y ((sortByKey_perm key l).mem_iff.1 mem)

theorem head_sortByKey {key : Cage → Nat} {l : List Cage} (ascending : l.Pairwise (· < ·)) {d : Cage} (mem : d ∈ l) :
    ∃ e ∈ l, (sortByKey key l).head? = some e ∧ (key e < key d ∨ (key e = key d ∧ e ≤ d)) := by
  have sorted := sortByKey_sorted (key := key) ascending
  have perm := sortByKey_perm key l
  cases list : sortByKey key l with
  | nil =>
    rw [list] at perm
    exact absurd (perm.mem_iff.2 mem) (by simp)
  | cons e es =>
    rw [list] at sorted perm
    refine ⟨e, perm.mem_iff.1 (.head _), rfl, ?_⟩
    rcases List.mem_cons.1 (perm.mem_iff.2 mem) with rfl | mem
    · exact .inr ⟨rfl, le_rfl⟩
    · exact ((List.pairwise_cons.1 sorted).1 d mem).imp_right fun h => ⟨h.1, le_of_lt h.2⟩

theorem allCages_ascending : allCages.Pairwise (· < ·) := by decide

theorem crsWaiting_ascending (s : State) (g : Seg) : (s.crsWaiting g).Pairwise (· < ·) :=
  (allCages_ascending.filter _).filter _

/-! ### The choice -/

theorem mem_crsWaiting {s : State} {c : Cage} (held : (s.crsSlot c).isSome = true) : c ∈ s.crsWaiting (segOf c) :=
  List.mem_filter.2 ⟨List.mem_filter.2 ⟨mem_allCages c, decide_eq_true rfl⟩, held⟩

/-- Where a CRS request waits, the choice is the CRS request of the lowest level, of equal levels the lowest number. -/
theorem chooseSlot_of_waiting {s : State} {d : Cage} (held : (s.crsSlot d).isSome = true) :
    ∃ e, s.chooseSlot (segOf d) = some (.crs e) ∧ segOf e = segOf d ∧
      ((s.claim e).level < (s.claim d).level ∨ ((s.claim e).level = (s.claim d).level ∧ e ≤ d)) := by
  obtain ⟨e, _, head, before⟩ := head_sortByKey (key := fun c => (s.claim c).level) (crsWaiting_ascending s (segOf d))
    (mem_crsWaiting held)
  have choice : s.chooseSlot (segOf d) = some (.crs e) := by rw [State.chooseSlot, head]
  exact ⟨e, choice, chooseSlot_crs choice, before⟩

theorem inSlot_setSlot_same (slot : Slot) (r : Option LinkRequest) (l : Link) : (l.setSlot slot r).inSlot slot = r := by
  cases slot <;> simp [Link.setSlot, Link.inSlot]

/-- The state in which a segment makes its choice at the end of an event: the requests are with the arbiters and the
scanners have begun their slots. -/
theorem finish_choice (u : State) (g : Seg) : ∃ v : State,
    (∀ c, (v.claim c).level = ((finish u).claim c).level) ∧
    v.link g = { u.link g with crsSlots := (v.link g).crsSlots, scanner := (v.link g).scanner } ∧
    (finish u).link g = (grantSegment g v).link g := by
  obtain ⟨links, _, _⟩ := runDueTest_frame (beforeTest u)
  obtain ⟨v, before, link, _⟩ := beforeGrants_segments u g
  have finish_link : (finish u).link g = (beforeTest u).link g := by rw [finish_eq, State.link, links]; rfl
  have claims : v.claims = u.claims := by
    rw [← (beforeTest_units u).1, before, (grantSegment_units 1 _).1, (grantSegment_units 0 v).1]
  have levels : ∀ w : State, w.claims = u.claims → ∀ c, (w.claim c).level = ((finish u).claim c).level := fun w same c => by
    rw [(finish_work u).claims c, State.claim, same]
    rfl
  rw [finish_link, before]
  rcases seg_cases g with rfl | rfl
  · exact ⟨v, levels v claims, link, grantSegment_other 1 0 _ (by decide)⟩
  · have kept : (grantSegment 0 v).link 1 = v.link 1 := grantSegment_other 0 1 v (by decide)
    exact ⟨grantSegment 0 v, levels _ ((grantSegment_units 0 v).1.trans claims), by rw [kept]; exact link, rfl⟩

theorem grantSegment_of_choice {v : State} {g : Seg} {slot : Slot} (idle : (v.link g).state = .idle)
    (choice : v.chooseSlot g = some slot) :
    ∃ r, (v.link g).inSlot slot = some r ∧ (grantSegment g v).link g = (v.link g).grant slot r := by
  have due : v.granted g = false := by simp [State.granted, idle, choice]
  rcases grantSegment_links g v with same | ⟨_, slot', r, choice', held, grant⟩
  · have settled := granted_grantSegment g v
    rw [same, due] at settled
    cases settled
  · rw [choice] at choice'
    cases choice'
    exact ⟨r, held, by rw [grant, link_updLink]⟩

/-- A grant leaves a slot of the segment full or empty as it was. -/
theorem isSome_inSlot_grant {l : Link} {slot : Slot} {r : LinkRequest} (held : l.inSlot slot = some r) {c : Cage} :
    ((l.grant slot r).inSlot (.crs c)).isSome = (l.inSlot (.crs c)).isSome := by
  cases slot with
  | passThrough => rfl
  | scanner => rfl
  | crs e =>
    by_cases same : slotIx c = slotIx e
    · have full : l.inSlot (.crs c) = some r := by
        simp only [Link.inSlot, same]
        exact held
      rw [full]
      simp [Link.grant, Link.setSlot, Link.inSlot, same]
    · have ne : (slotIx e).val ≠ (slotIx c).val := fun h => same (Fin.ext h.symm)
      simp [Link.grant, Link.setSlot, Link.inSlot, Vector.getElem_set_ne, ne]

/-- At the end of an event a segment that was IDLE, one of whose CRS slots is full, carries out the first chunk of the
request of the lowest level, of equal levels the lowest number (R121). -/
theorem finish_grants {u : State} {d : Cage} (idle : (u.link (segOf d)).state = .idle)
    (held : ((finish u).crsSlot d).isSome = true) :
    ∃ (e : Cage) (r : LinkRequest) (l : Link), segOf e = segOf d ∧
      (((finish u).claim e).level < ((finish u).claim d).level ∨
        (((finish u).claim e).level = ((finish u).claim d).level ∧ e ≤ d)) ∧
      (finish u).link (segOf d) = l.grant (.crs e) r := by
  obtain ⟨v, levels, link, granted⟩ := finish_choice u (segOf d)
  generalize finish u = t at *
  have idle' : (v.link (segOf d)).state = .idle := by rw [link]; exact idle
  have waits : (v.crsSlot d).isSome = true := by
    rw [State.crsSlot, granted] at held
    rcases grantSegment_links (segOf d) v with same | ⟨_, slot, r, _, full, grant⟩
    · rwa [same] at held
    · rwa [grant, link_updLink, isSome_inSlot_grant full] at held
  obtain ⟨e, choice, seg, before⟩ := chooseSlot_of_waiting waits
  obtain ⟨r, _, grant⟩ := grantSegment_of_choice idle' choice
  rw [levels, levels] at before
  exact ⟨e, r, _, seg, before, granted.trans grant⟩

theorem eventNext_finish {occurs : Bool} {effect : State → State} {s : State} (free : s.startup.resetHeld = false)
    (now : occurs = true) : eventNext occurs effect s = .next (finish (effect s)).nextChoice := by
  rw [eventNext, event, if_pos ⟨free, now⟩]

/-! ### The init waits -/

theorem mem_startedWith {s : State} {c d : Cage} : d ∈ s.startedWith c ↔
    (s.cage d).state = .identify ∧ (s.cage d).timers.initWait.isSome = true ∧
    (s.cage d).timers.initStart = (s.cage c).timers.initStart := by
  simp [State.startedWith, State.initRuns, mem_allCages, and_assoc]

theorem initWaitsEnd_eq (c : Cage) (s : State) : initWaitsEnd c s = { s with
    cages := Vector.ofFn (fun d : Cage => if d ∈ s.startedWith c then (s.cage d).initEnded else s.cage d) } := by
  have cages : (initWaitsEnd c s).cages = Vector.ofFn (fun d : Cage =>
      if d ∈ s.startedWith c then (s.cage d).initEnded else s.cage d) := by
    ext i lt
    rw [Vector.getElem_ofFn]
    exact initWaitsEnd_cage c ⟨i, lt⟩ s
  rw [initWaitsEnd_rest, cages]

/-- Settles O17: the records of the cages whose init waits began together, then the reads handed over, and the choice of
the segment. -/
theorem initWaitEnds_spec : Obligations.InitWaitEnds := by
  intro c s free state timer
  have occurs : s.initRuns c = true := by simp [State.initRuns, state, timer]
  let cages := fun d : Cage => if d ∈ s.startedWith c then (s.cage d).initEnded else s.cage d
  let ended : State := { s with cages := Vector.ofFn cages }
  have cage : ∀ d, ended.cage d = cages d := fun d => Vector.getElem_ofFn _
  have answer : exec (.initWaitExpiry c) s = .next (finish ended).nextChoice :=
    (eventNext_finish (effect := initWaitsEnd c) free occurs).trans (by rw [initWaitsEnd_eq])
  have ends : EndsAs ended (finish ended).nextChoice := finish_endsAs ended
  have grants : ∀ d, (s.link (segOf d)).state = .idle → ((finish ended).crsSlot d).isSome = true → _ :=
    fun d idle held => finish_grants (u := ended) (d := d) idle held
  have together : ∀ d, decide ((s.cage d).state = .identify ∧ (s.cage d).timers.initWait.isSome = true ∧
      (s.cage d).timers.initStart = (s.cage c).timers.initStart) = decide (d ∈ s.startedWith c) :=
    fun d => decide_eq_decide.2 mem_startedWith.symm
  simp only [together, decide_eq_true_eq]
  generalize finish ended = t at *
  refine ⟨_, answer, ends, fun d mem slot empty present => ?_, fun d idle held => ?_⟩
  · refine ends.handsOver slot ?_ present rfl
    rw [cage]
    simp only [cages, if_pos mem, CageRecord.initEnded, empty]
    rfl
  · obtain ⟨e, r, l, seg, before, granted⟩ := grants d idle held
    have link : t.nextChoice.link (segOf d) = _ := granted
    rw [link]
    exact ⟨rfl, e, _, seg, rfl, rfl, before⟩

end Sys2Proof.Machine
end

section
/-! PROOF. Frames and stuffed spans come back as they were sent (R75, R76, R80). -/

namespace Sys2Proof.Machine

/-! ### Stuffing -/

theorem unstuffFrom_stuffFrom (bits : List Bool) : ∀ (last : Bool) (run : Nat), run ≤ 5 →
    unstuffFrom last run (stuffFrom last run bits) = some bits := by
  induction bits with
  | nil => intros; rfl
  | cons b bs ih =>
    intro last run few
    have more : run ≠ 6 := by omega
    by_cases same : b = last
    · subst same
      by_cases five : run = 5
      · simp [stuffFrom, unstuffFrom, five, ih (!b) 1 (by decide)]
      · simp [stuffFrom, unstuffFrom, five, more, ih b (run + 1) (by omega)]
    · simp [stuffFrom, unstuffFrom, same, more, ih b 1 (by decide)]

/-- Where bits of the level of a run bring it to seven, a span does not unstuff. -/
theorem unstuffFrom_of_run {l : List Bool} : ∀ {v : Bool} {run : Nat}, run ≤ 6 →
    (∀ j, j < 7 - run → l[j]? = some v) → unstuffFrom v run l = none := by
  induction l with
  | nil =>
    intro v run few all
    cases all 0 (by omega)
  | cons b bs ih =>
    intro v run few all
    have first : b = v := by simpa using all 0 (by omega)
    subst first
    by_cases six : run = 6
    · simp [unstuffFrom, six]
    · have rest := ih (v := b) (run := run + 1) (by omega) fun j lt => by simpa using all (j + 1) (by omega)
      simp [unstuffFrom, six, rest]

/-- A span with seven equal bits in a row does not unstuff. -/
theorem unstuffFrom_of_seven {l : List Bool} {v : Bool} : ∀ {last : Bool} {run i : Nat}, run ≤ 6 →
    (∀ j, j < 7 → l[i + j]? = some v) → unstuffFrom last run l = none := by
  induction l with
  | nil =>
    intro last run i _ seven
    cases seven 0 (by decide)
  | cons b bs ih =>
    intro last run i few seven
    cases i with
    | zero =>
      have first : b = v := by simpa using seven 0 (by decide)
      subst first
      by_cases same : b = last
      · subst same
        exact unstuffFrom_of_run few fun j lt => by simpa using seven j (by omega)
      · have rest := unstuffFrom_of_run (v := b) (run := 1) (by decide) (l := bs) fun j lt => by
          simpa using seven (j + 1) (by omega)
        simp [unstuffFrom, same, rest]
    | succ i =>
      have later : ∀ last' run', run' ≤ 6 → unstuffFrom last' run' bs = none := fun last' run' few' =>
        ih few' fun j lt => by
          have := seven j lt
          rwa [Nat.succ_add, List.getElem?_cons_succ] at this
      unfold unstuffFrom
      split
      · split
        · rfl
        · exact later _ _ (by decide)
      · rw [later _ _ (by split <;> omega)]
        rfl

/-- Settles O54: unstuffing takes back each stuff bit, and a span with seven equal bits would not unstuff. -/
theorem stuffingRoundTrip : Obligations.StuffingRoundTrip := by
  intro bits
  have back : unstuff (stuff bits) = some bits := unstuffFrom_stuffFrom bits true 0 (by decide)
  refine ⟨back, fun i v seven => ?_⟩
  have none := unstuffFrom_of_seven (last := true) (run := 0) (by decide) seven
  rw [unstuff, none] at back
  cases back

/-! ### The fields of a frame -/

theorem word16_bytes {n : Nat} (h : n < 65536) : word16 (highByte n) (lowByte n) = n := by
  simp only [word16, highByte, lowByte, byteOf, BitVec.toNat_ofNat]
  omega

theorem byteBelow_byteOf {n : Nat} [NeZero n] (small : n ≤ 256) (v : Fin n) : byteBelow n (byteOf v.val) = some v := by
  have value : (byteOf v.val).toNat = v.val := byteOf_toNat (v.isLt.trans_le small)
  rw [byteBelow, value, if_pos v.isLt]
  exact congrArg some (Fin.ext (Nat.mod_eq_of_lt v.isLt))

theorem drawOf_bytes {d : Nat} (least : 1 ≤ d) (most : d ≤ 4095) : drawOf (highByte d) (lowByte d) = some d := by
  rw [drawOf, word16_bytes (by omega)]
  exact if_pos ⟨least, most⟩

theorem runStates_code (r : RunState) : runStates[(byteOf r.code).toNat]? = some r := by
  cases r <;> rfl

theorem busHealths_code (h : BusHealth) : busHealths[(byteOf h.code).toNat]? = some h := by
  cases h <;> rfl

theorem cageStates_code (st : CageState) : cageStates[(byteOf st.code).toNat]? = some st := by
  cases st <;> rfl

theorem faultCauses_code (q : FaultCause) : faultCauses[(byteOf q.code).toNat]? = some q := by
  cases q <;> rfl

/-- A tag byte carries the tag of its index, or 0 (Table 3-3). -/
theorem byteBelow_tagByte (tags : List Tag) (i : Nat) : byteBelow 16 (tagByte tags i) = some (tags[i]?.getD 0) := by
  unfold tagByte
  split
  next t found =>
    rw [found]
    exact byteBelow_byteOf (by decide) t
  next missing =>
    rw [missing]
    rfl

theorem take_tags {tags : List Tag} (few : tags.length ≤ 2) :
    [tags[0]?.getD 0, tags[1]?.getD 0].take (byteOf tags.length).toNat = tags := by
  rw [byteOf_toNat (by omega)]
  match tags with
  | [] => rfl
  | [t] => rfl
  | [t, u] => rfl
  | _ :: _ :: _ :: _ => simp at few

/-! ### A frame as its receiver finds it -/

theorem classNo_le (body : FrameBody) : body.classNo ≤ 3 := by cases body <;> simp [FrameBody.classNo]

theorem precedence_toNat {f : Frame} (level : f.level ≤ 31) :
    (encodeFrame f).precedence.toNat = f.body.classNo * 1024 + f.level * 32 + f.source.val := by
  have := classNo_le f.body
  have := f.source.isLt
  simp only [encodeFrame, precedenceValue, BitVec.toNat_ofNat]
  omega

theorem frameSource_encode {f : Frame} (level : f.level ≤ 31) : frameSource (encodeFrame f) = f.source := by
  have := f.source.isLt
  apply Fin.ext
  rw [frameSource, precedence_toNat level, Fin.val_ofNat]
  omega

theorem frameLevel_encode {f : Frame} (level : f.level ≤ 31) : frameLevel (encodeFrame f) = f.level := by
  have := f.source.isLt
  rw [frameLevel, precedence_toNat level]
  omega

theorem frameClass_encode {f : Frame} (level : f.level ≤ 31) : frameClass (encodeFrame f) = f.body.classNo := by
  have := f.source.isLt
  rw [frameClass, precedence_toNat level]
  omega

theorem kind_encode (f : Frame) : (encodeFrame f).kind.toNat = f.body.kindCode := by
  cases h : f.body <;> simp [encodeFrame, h, FrameBody.kindCode]

theorem length_encode {f : Frame} (short : f.body.payload.length ≤ 15) :
    (encodeFrame f).length.toNat = f.body.payload.length := by
  simp only [encodeFrame, BitVec.toNat_ofNat]
  omega

/-- A frame whose fields pass the receiver's checks is received as it was sent: its check is good by its making. -/
theorem decode_encode_of {f : Frame} {b : Bool} (level : f.level ≤ 31) (header : headerGood (encodeFrame f) = true)
    (levels : levelGood f.body.kindCode f.level = true)
    (content : contentOf f.body.kindCode f.body.payload = some f.body) : decodeFrame b (encodeFrame f) = .ok f := by
  have check : crcOf (coveredBits (encodeFrame f).precedence (encodeFrame f).kind (encodeFrame f).length
      (encodeFrame f).payload) = (encodeFrame f).check := rfl
  have payload : (encodeFrame f).payload = f.body.payload := rfl
  rw [payload] at check
  simp only [decodeFrame, header, check, kind_encode, frameLevel_encode level, levels, payload, content,
    frameSource_encode level, Bool.not_true, Bool.false_eq_true, if_true, if_false]

theorem Frame.sound.level {f : Frame} (h : f.sound) : f.level ≤ 31 := by
  cases body : f.body <;> simp only [Frame.sound, body] at h <;> omega

theorem Frame.sound.payload {f : Frame} (h : f.sound) : f.body.payload.length ≤ 15 := by
  cases body : f.body <;> simp only [Frame.sound, body] at h <;> simp [FrameBody.payload] <;> omega

theorem headerGood_encode {f : Frame} (h : f.sound) : headerGood (encodeFrame f) = true := by
  have payload : (encodeFrame f).payload = f.body.payload := rfl
  simp only [headerGood, payload, length_encode h.payload, kind_encode, frameClass_encode h.level]
  cases body : f.body <;> simp only [Frame.sound, body] at h <;>
    simp [FrameBody.kindCode, FrameBody.classNo, FrameBody.payload] <;> omega

theorem levelGood_encode {f : Frame} (h : f.sound) : levelGood f.body.kindCode f.level = true := by
  cases body : f.body <;> simp only [Frame.sound, body] at h <;> simp [FrameBody.kindCode, levelGood, h]

/-- The content that a receiver makes of a payload is the body that was sent, kind by kind. -/
theorem contentOf_payload {f : Frame} (h : f.sound) : contentOf f.body.kindCode f.body.payload = some f.body := by
  cases body : f.body with
  | intent c t d =>
    simp only [Frame.sound, body] at h
    simp [contentOf, FrameBody.kindCode, FrameBody.payload, byteBelow_byteOf (n := 16) (by decide), drawOf_bytes h.2.1 h.2.2]
  | confirm t d =>
    simp only [Frame.sound, body] at h
    simp [contentOf, FrameBody.kindCode, FrameBody.payload, byteBelow_byteOf (n := 16) (by decide), drawOf_bytes h.2.1 h.2.2]
  | withdraw t d =>
    simp only [Frame.sound, body] at h
    simp [contentOf, FrameBody.kindCode, FrameBody.payload, byteBelow_byteOf (n := 16) (by decide), drawOf_bytes h.2.1 h.2.2]
  | release a =>
    simp only [Frame.sound, body] at h
    simp only [contentOf, FrameBody.kindCode, FrameBody.payload, word16_bytes (show a < 65536 by omega)]
    exact if_pos h.2
  | status k =>
    simp only [Frame.sound, body] at h
    obtain ⟨_, total, tags, inService⟩ := h
    simp only [contentOf, FrameBody.kindCode, FrameBody.payload, byteBelow_tagByte, runStates_code, busHealths_code,
      word16_bytes (show k.total < 65536 by omega), byteOf_toNat (show k.inService < 256 by omega), take_tags tags,
      bind, Option.bind]
    rw [if_pos ⟨total, by rw [byteOf_toNat (by omega)]; exact tags, inService⟩]
    rfl
  | request target code args =>
    simp [contentOf, FrameBody.kindCode, FrameBody.payload, byteBelow_byteOf (n := 32) (by decide)]
  | reply code result data => rfl
  | cageReport r =>
    simp only [Frame.sound, body] at h
    simp only [contentOf, FrameBody.kindCode, FrameBody.payload, byteBelow_byteOf (n := 16) (by decide), cageStates_code,
      faultCauses_code, word16_bytes (show r.penalty < 65536 by omega), bind, Option.bind]
    rw [if_pos h.2]
    rfl

/-- Settles O53: the header, the level and the content of a sound frame all pass, and the check is made of the frame. -/
theorem frameRoundTrip : Obligations.FrameRoundTrip := fun _ _ sound =>
  decode_encode_of sound.level (headerGood_encode sound) (levelGood_encode sound) (contentOf_payload sound)

end Sys2Proof.Machine
end

section
/-! PROOF. The configuration loaded (R181 to R185, R12). -/

namespace Sys2Proof.Machine

/-! ### The start-up record at the end of an event -/

theorem queueTests_startup (n : Nat) (s : State) : (queueTests n s).startup = s.startup := by
  induction n generalizing s with
  | zero => rfl
  | succ n ih =>
    unfold queueTests
    split
    · split
      · rw [ih]
        simp
      · rfl
    · rfl

theorem runDueTest_startup (s : State) : (runDueTest s).startup = s.startup := by
  unfold runDueTest
  split
  · rw [queueTests_startup]
    rfl
  · rfl

/-- The end of an event moves the start-up block's record in ADOPTING alone (R189). -/
theorem finish_startup {s : State} (settled : s.startup.runState ≠ .adopting) : (finish s).startup = s.startup := by
  have adopting : endAdopting s = s := if_neg fun h => settled h.1
  have pumped : ∀ (cs : List Cage) (u : State), (cs.foldl pumpCage u).startup = u.startup := fun cs u =>
    foldl_keeps State.startup pumpCage (fun u c => by
      unfold pumpCage
      split
      · split <;> simp
      · rfl) cs u
  simp only [finish, adopting]
  simp [pumped, runDueTest_startup]

/-! ### The cages at the load -/

theorem loadCage_onlyCage (s : State) (c : Cage) : OnlyCage c s (loadCage s c) := by
  unfold loadCage
  repeat' split
  · exact moveCage_onlyCage _ _ _ _
  · exact moveCage_onlyCage _ _ _ _
  · exact .refl c s

/-- A cage still to be taken at the load of a parameter set. -/
structure Unloaded (k : Settings) (present : Bool) (c : Cage) (s : State) : Prop where
  conf    : s.conf = k
  vacant  : (s.cage c).state = .vacant
  present : (s.line c).present = present
  level   : (s.claim c).level = k.cages[c].level

/-- A cage as the load leaves it (R12, R40). -/
structure Loaded (k : Settings) (present : Bool) (c : Cage) (s : State) : Prop where
  state    : (s.cage c).state =
    if k.cages[c].enabled = false then .disabled else if present then .debounce else .vacant
  debounce : (s.cage c).state = .debounce → (s.cage c).timers = { noTimers with debounce := some k.debounce }
  level    : (s.claim c).level = k.cages[c].level

/-- A move out of VACANT to a state before admission hands no claim over (R5). -/
theorem moveCage_from_vacant {c : Cage} {new : CageState} {cause : FaultCause} {s : State}
    (vacant : (s.cage c).state = .vacant) (early : new = .disabled ∨ new = .debounce) :
    (moveCage c new cause s).claims = s.claims := by
  rw [moveCage_claimUnit, vacant]
  rcases early with rfl | rfl <;> rfl

theorem loadCage_loads {k : Settings} {present : Bool} {c : Cage} {s : State} (h : Unloaded k present c s) :
    Loaded k present c (loadCage s c) := by
  obtain ⟨conf, vacant, line, level⟩ := h
  have enabled : (s.cageConf c).enabled = k.cages[c].enabled := by rw [State.cageConf, conf]
  unfold loadCage
  rw [enabled, line]
  cases on : k.cages[c].enabled with
  | false =>
    refine ⟨(moveCage_state _ _ _ _).trans (if_pos on).symm, fun debounce => ?_, ?_⟩
    · cases (moveCage_state _ _ _ _).symm.trans debounce
    · exact (congrArg Claim.level (claim_congr (moveCage_from_vacant vacant (.inl rfl)) c)).trans level
  | true =>
    cases present with
    | true =>
      refine ⟨(moveCage_state _ _ _ _).trans (by rw [if_neg (by rw [on]; nofun)]; rfl), fun _ => ?_, ?_⟩
      · have record := moveCage_record c .debounce .none s
        rw [conf] at record
        exact congrArg CageRecord.timers record
      · exact (congrArg Claim.level (claim_congr (moveCage_from_vacant vacant (.inr rfl)) c)).trans level
    | false =>
      exact ⟨vacant.trans (by rw [if_neg (by rw [on]; nofun)]; rfl), (fun debounce => absurd (vacant.symm.trans debounce) nofun), level⟩

theorem Loaded.of_same {k : Settings} {present : Bool} {c : Cage} {s t : State} (h : Loaded k present c s)
    (cage : t.cage c = { s.cage c with requests := (t.cage c).requests })
    (claim : t.claim c = { s.claim c with state := (t.claim c).state }) : Loaded k present c t := by
  obtain ⟨state, debounce, level⟩ := h
  exact ⟨by rw [cage]; exact state, by rw [cage]; exact debounce, by rw [claim]; exact level⟩

theorem OnlyCage.conf {c : Cage} {s t : State} (h : OnlyCage c s t) : t.conf = s.conf := by
  rw [State.conf, State.conf, h.startup]

/-- A fold over a list that holds an element once establishes what the element's own step does, where every other step
keeps what it asks and what it gives. -/
theorem foldl_reaches_once {σ α : Type} {f : σ → α → σ} {Q P : σ → Prop} {c : α}
    (before : ∀ s a, a ≠ c → Q s → Q (f s a)) (here : ∀ s, Q s → P (f s c))
    (after : ∀ s a, a ≠ c → P s → P (f s a)) {l : List α} (once : l.Nodup) (mem : c ∈ l) {s : σ} (h : Q s) :
    P (l.foldl f s) := by
  have stays : ∀ (l : List α) (s : σ), c ∉ l → P s → P (l.foldl f s) := by
    intro l
    induction l with
    | nil => exact fun s _ h => h
    | cons a l ih =>
      intro s out h
      obtain ⟨other, out⟩ := not_or.1 (mt List.mem_cons.2 out)
      exact ih _ out (after s a (Ne.symm other) h)
  induction l generalizing s with
  | nil => cases mem
  | cons a l ih =>
    obtain ⟨out, once⟩ := List.nodup_cons.1 once
    by_cases same : a = c
    · subst same; exact stays l _ out (here s h)
    · exact ih once ((List.mem_cons.1 mem).resolve_left (Ne.symm same)) (before s a same h)

theorem mem_openOrder (s : State) (c : Cage) : c ∈ s.openOrder allCages :=
  (openOrder_perm s allCages).mem_iff.2 (mem_allCages c)

theorem loadAll_loads {k : Settings} {present : Bool} {c : Cage} {s : State} (order : State)
    (h : Unloaded k present c s) : Loaded k present c ((order.openOrder allCages).foldl loadCage s) := by
  refine foldl_reaches_once (Q := Unloaded k present c) (P := Loaded k present c) ?_ (fun u => loadCage_loads) ?_
    (openOrder_nodup order) (mem_openOrder order c) h
  · intro u a other ⟨conf, vacant, line, level⟩
    have only := loadCage_onlyCage u a
    exact ⟨only.conf.trans conf, by rw [only.cages c (Ne.symm other)]; exact vacant,
      by rw [only.lines c (Ne.symm other)]; exact line, by rw [only.claims c (Ne.symm other)]; exact level⟩
  · intro u a other loaded
    have only := loadCage_onlyCage u a
    exact loaded.of_same (only.cages c (Ne.symm other)) (only.claims c (Ne.symm other))

/-- What the load of the cages leaves of the units that are no cage's. -/
structure UnitsKept (s t : State) : Prop where
  startup   : t.startup = s.startup
  announce  : t.bus.announce = s.bus.announce
  decay     : t.penalties.decay = s.penalties.decay
  converter : t.scan.converting = s.scan.converting ∧ t.scan.channel = s.scan.channel

theorem UnitsKept.refl (s : State) : UnitsKept s s := ⟨rfl, rfl, rfl, rfl, rfl⟩

theorem loadCage_startup (s : State) (c : Cage) : (loadCage s c).startup = s.startup := by
  unfold loadCage
  repeat' split
  · exact moveCage_startup _ _ _ _
  · exact moveCage_startup _ _ _ _
  · rfl

theorem loadAll_units (cs : List Cage) (s : State) : UnitsKept s (cs.foldl loadCage s) := by
  refine foldl_invariant (UnitsKept s) loadCage (fun u c h => ?_) cs s (.refl s)
  have only := loadCage_onlyCage u c
  exact ⟨(loadCage_startup u c).trans h.startup, by rw [only.bus]; exact h.announce, only.decay.trans h.decay,
    only.converter.1.trans h.converter.1, only.converter.2.trans h.converter.2⟩

/-- A load of cages that all are in VACANT leaves LISTENING, each cage in its state and level, and each block's timers
started. -/
theorem loadSettings_loads {k : Settings} {s : State} (vacant : ∀ c, (s.cage c).state = .vacant) :
    LoadedWith k s (finish (loadSettings k s)).nextChoice := by
  have units : UnitsKept (installSettings k s) (loadSettings k s) := loadAll_units _ _
  have loads : ∀ c, Loaded k (s.line c).present c (loadSettings k s) := fun c =>
    loadAll_loads s
      { conf := rfl
        vacant := vacant c
        present := rfl
        level := congrArg Claim.level (installSettings_claim k s c) }
  generalize loadSettings k s = u at *
  obtain ⟨startup, announce, decay, converter⟩ := units
  have ends := finish_endsAs u
  have record : (finish u).startup = { s.startup with
      runState := .listening, loadPhase := .done, settings := some k, listenTicks := 0 } :=
    (finish_startup (by rw [startup]; nofun)).trans startup
  have cage : ∀ c, Loaded k (s.line c).present c (finish u).nextChoice := fun c =>
    (loads c).of_same (ends.cage c) (ends.same.claims c)
  generalize finish u = t at *
  exact {
    runState := by rw [show t.nextChoice.startup = t.startup from rfl, record]; exact ⟨rfl, rfl⟩
    settings := by rw [show t.nextChoice.startup = t.startup from rfl, record]; exact ⟨rfl, rfl⟩
    kept := by rw [show t.nextChoice.startup = t.startup from rfl, record]; exact ⟨rfl, rfl, rfl⟩
    cages := fun c => (cage c).state
    debounce := fun c => (cage c).debounce
    levels := fun c => (cage c).level
    timers := ⟨(congrArg PenaltyUnit.decay ends.same.penalties).trans decay,
      (congrArg BusUnit.announce ends.same.bus).trans announce⟩
    converter := by rw [ends.same.scan]; exact converter }

theorem memorySelected_of_loaded {k : Settings} {s t : State} (h : LoadedWith k s t) : t.memorySelected = false := by
  rw [State.memorySelected, State.spiRead, h.runState.2]
  rfl

theorem memorySelected_of_reading {s : State} (reading : s.startup.loadPhase = .read1 ∨ s.startup.loadPhase = .read2) :
    s.memorySelected = true := by
  rcases reading with h | h <;> simp [State.memorySelected, State.spiRead, h]

/-- Settles O5: a good read loads the set built from it, the first bad one begins the second read, and the second loads
the profile default set. -/
theorem configurationLoaded : Obligations.ConfigurationLoaded := by
  intro image s free vacant
  have answer : s.memorySelected = true →
      exec (.spiReadEnd image) s = .next (finish (readEnds image s)).nextChoice :=
    fun selected => eventNext_finish (effect := readEnds image) free selected
  refine ⟨fun good reading => ?_, fun bad first => ?_, fun bad second => ?_⟩
  · have effect : readEnds image s = loadSettings (imageSettings image) s := if_pos good
    have loads := loadSettings_loads (k := imageSettings image) vacant
    exact ⟨_, _, (answer (memorySelected_of_reading reading)).trans (by rw [effect]), imageSettings_fromImage image, loads,
      memorySelected_of_loaded loads⟩
  · have effect : readEnds image s = s.updStartup (fun u => { u with loadPhase := .read2 }) := by
      rw [readEnds, if_neg (by rw [bad]; nofun), first]
    simp only [effect] at answer
    have ends := finish_endsAs (s.updStartup fun u => { u with loadPhase := .read2 })
    refine ⟨_, answer (memorySelected_of_reading (.inl first)), ends, ?_⟩
    generalize (finish _).nextChoice = t at ends
    have phase : t.startup.loadPhase = .read2 := congrArg Startup.loadPhase ends.same.startup
    rw [State.spiRead, phase]
    rfl
  · have effect : readEnds image s = loadSettings (profileSettings s.startup.profile) s := by
      rw [readEnds, if_neg (by rw [bad]; nofun), second]
    have loads := loadSettings_loads (k := profileSettings s.startup.profile) vacant
    exact ⟨_, _, (answer (memorySelected_of_reading (.inr second))).trans (by rw [effect]), profileSettings_atDefaults _,
      loads, memorySelected_of_loaded loads⟩

end Sys2Proof.Machine
end

section
/-! PROOF. Receive errors, and the health that the counts decide (R79, R96, R97). -/

namespace Sys2Proof.Machine

/-! ### The health after a change of a count -/

theorem updBus_congr {s : State} {f g : BusUnit → BusUnit} (h : f s.bus = g s.bus) : s.updBus f = s.updBus g := by
  rw [State.updBus, State.updBus, h]

/-- A health that the counts leave as it was, or take to CAUTIOUS, is handed on to no block (R97). -/
theorem judgeHealth_quiet {s : State} {h : BusHealth}
    (after : healthAfterCounts s.bus.health s.bus.txErrors s.bus.rxErrors = h)
    (quiet : s.bus.health = h ∨ h = .cautious) : judgeHealth s = s.updBus (fun b => { b with health := h }) := by
  subst after
  have judged : (s.updBus BusUnit.judged).bus.health =
      healthAfterCounts s.bus.health s.bus.txErrors s.bus.rxErrors := rfl
  unfold judgeHealth healthReport
  split
  · rfl
  next moved =>
    rw [judged] at moved ⊢
    rw [quiet.resolve_left (Ne.symm moved)]
    exact updBus_congr (by rw [BusUnit.judged, quiet.resolve_left (Ne.symm moved)])

/-- A health that the counts take back to ACTIVE has the queue-time test run (R52, R97). -/
theorem judgeHealth_active {s : State} (was : s.bus.health ≠ .active)
    (after : healthAfterCounts s.bus.health s.bus.txErrors s.bus.rxErrors = .active) :
    judgeHealth s = dueTest (s.updBus (fun b => { b with health := .active })) := by
  have judged : (s.updBus BusUnit.judged).bus.health = .active := after
  unfold judgeHealth healthReport
  rw [if_neg (by rw [judged]; exact Ne.symm was), judged]
  exact congrArg dueTest (updBus_congr (by rw [BusUnit.judged, after]))

theorem counts_of_drives {b : BusUnit} (h : b.health = .active ∨ b.health = .cautious) : b.counts = true := by
  rcases h with h | h <;> rw [BusUnit.counts, h] <;> rfl

theorem counts_of_quiet {b : BusUnit} (h : b.health = .silent ∨ b.health = .recovering) : b.counts = false := by
  rcases h with h | h <;> rw [BusUnit.counts, h] <;> rfl

theorem rxFailed_drives {b : BusUnit} (h : b.health = .active ∨ b.health = .cautious) :
    b.rxFailed = { b with rxErrors := min 127 (b.rxErrors + 1) } := if_pos (counts_of_drives h)

theorem rxFailed_quiet {b : BusUnit} (h : b.health = .silent ∨ b.health = .recovering) : b.rxFailed = b :=
  if_neg (by rw [counts_of_quiet h]; nofun)

theorem healthAfterCounts_quiet {health : BusHealth} (h : health = .silent ∨ health = .recovering) (tx rx : Nat) :
    healthAfterCounts health tx rx = health := by
  rcases h with rfl | rfl <;> rfl

/-- What the counts decide of a part that drives the bus (R97). -/
theorem healthAfterCounts_drives {health : BusHealth} (h : health = .active ∨ health = .cautious) (tx rx : Nat) :
    healthAfterCounts health tx rx =
      if 160 ≤ tx then .silent else if 64 ≤ tx ∨ 64 ≤ rx then .cautious else .active := by
  rcases h with rfl | rfl
  · rfl
  · have low : (tx < 64 ∧ rx < 64) ↔ ¬ (64 ≤ tx ∨ 64 ≤ rx) := by omega
    change (if 160 ≤ tx then BusHealth.silent else if tx < 64 ∧ rx < 64 then .active else .cautious) = _
    simp only [low, ite_not]

/-! ### Receive errors -/

/-- A receive error, detected or found in a frame that does not pass its checks, is the same event (R79). -/
theorem receptionFailed_occurs {i : Instr} {e : RxError} {s : State} (free : s.startup.resetHeld = false)
    (loaded : s.startup.runState ≠ .loading)
    (comes : i = .receiveError e ∨ ∃ raw, i = .goodReception raw ∧ ∀ b, decodeFrame b raw = .error e) :
    ∃ t, exec i s = .next t ∧ EndsAs (receptionFailed e s) t := by
  rcases comes with rfl | ⟨raw, rfl, bad⟩
  · exact eventNext_occurs (effect := receptionFailed e) free (onBus_of loaded)
  · have effect : receive raw s = receptionFailed e s := by rw [receive, bad]
    rw [← effect]
    exact eventNext_occurs (effect := receive raw) free (onBus_of loaded)

/-- The count of a receive error where the counts move (R96). -/
theorem receptionFailed_eq {e : RxError} {s : State} (drives : s.bus.health = .active ∨ s.bus.health = .cautious) :
    receptionFailed e s = judgeHealth (s.updBus (fun b =>
      { b with rxErrors := min 127 (b.rxErrors + 1), lastError := rxBusError e })) := by
  have counted : (s.updBus (BusUnit.noteError (rxBusError e))).updBus BusUnit.rxFailed = s.updBus (fun b =>
      { b with rxErrors := min 127 (b.rxErrors + 1), lastError := rxBusError e }) :=
    updBus_congr (s := s) (f := fun b => (b.noteError (rxBusError e)).rxFailed) (rxFailed_drives drives)
  rw [receptionFailed, counted]

/-- Settles O36: by the health, and by what the counts then decide. -/
theorem receiveErrorCounted : Obligations.ReceiveErrorCounted := by
  intro i e s free loaded comes
  obtain ⟨t, answer, ends⟩ := receptionFailed_occurs free loaded comes
  intro error counted
  have known : error = rxBusError e := by cases e <;> rfl
  clear_value error
  subst known
  refine ⟨fun active rx tx => ⟨t, answer, ?_⟩, fun drives tx high => ⟨t, answer, ?_⟩,
    fun cautious rx tx => ⟨t, answer, ?_⟩, fun quiet => ⟨t, answer, ?_⟩⟩
  · have judged := judgeHealth_quiet (h := .active)
      (s := s.updBus (fun b => { b with rxErrors := min 127 (b.rxErrors + 1), lastError := rxBusError e }))
      ((healthAfterCounts_drives (.inl active) _ _).trans
        (by rw [updBus_bus, if_neg (by dsimp only; omega), if_neg (by dsimp only; omega)])) (.inl active)
    rw [receptionFailed_eq (.inl active), judged] at ends
    have same : (s.updBus (fun b => { b with rxErrors := b.rxErrors + 1, lastError := rxBusError e })) =
        (s.updBus (fun b => { b with rxErrors := min 127 (b.rxErrors + 1), lastError := rxBusError e })).updBus
          (fun b => { b with health := .active }) :=
      updBus_congr (g := fun b => { b with
        rxErrors := min 127 (b.rxErrors + 1), lastError := rxBusError e, health := .active })
        (by rw [← active, Nat.min_eq_right (by omega)])
    rwa [same]
  · have judged := judgeHealth_quiet (h := .cautious)
      (s := s.updBus (fun b => { b with rxErrors := min 127 (b.rxErrors + 1), lastError := rxBusError e }))
      ((healthAfterCounts_drives drives _ _).trans
        (by rw [updBus_bus, if_neg (by dsimp only; omega), if_pos (by dsimp only; omega)])) (.inr rfl)
    rw [receptionFailed_eq drives, judged] at ends
    have bus := ends.same.bus
    exact ⟨by rw [bus]; rfl, by rw [bus]; rfl, by rw [bus]; rfl, ends⟩
  · have judged := judgeHealth_active
      (s := s.updBus (fun b => { b with rxErrors := min 127 (b.rxErrors + 1), lastError := rxBusError e }))
      (by rw [updBus_bus, cautious]; nofun)
      ((healthAfterCounts_drives (.inr cautious) _ _).trans
        (by rw [updBus_bus, if_neg (by dsimp only; omega), if_neg (by dsimp only; omega)]))
    rw [receptionFailed_eq (.inr cautious), judged] at ends
    exact ends
  · have uncounted : (s.updBus (BusUnit.noteError (rxBusError e))).updBus BusUnit.rxFailed =
        s.updBus (fun b => { b with lastError := rxBusError e }) :=
      updBus_congr (s := s) (f := fun b => (b.noteError (rxBusError e)).rxFailed) (rxFailed_quiet quiet)
    have judged := judgeHealth_quiet (s := s.updBus (fun b => { b with lastError := rxBusError e }))
      (healthAfterCounts_quiet quiet _ _) (.inl rfl)
    rw [receptionFailed, uncounted, judged] at ends
    exact ends

end Sys2Proof.Machine
end

section
/-! PROOF. A lost arbitration (R77, R44, R54, R93). -/

namespace Sys2Proof.Machine

/-! ### The frame under attempt -/

theorem underAttempt_at {s : State} {i : Nat} {f : TxFrame} (h : s.underAttempt = some (i, f)) :
    s.bus.txQueue[i]? = some f := by
  unfold State.underAttempt at h
  split at h
  next j _ =>
    obtain ⟨x, at_, pair⟩ := Option.map_eq_some_iff.1 h
    cases pair
    exact at_
  · cases h

theorem modify_eq_set {α : Type} {l : List α} {i : Nat} {x : α} (g : α → α) (h : l[i]? = some x) :
    l.modify i g = l.set i (g x) := by
  rw [List.modify_eq_set_getElem?, h]
  rfl

/-- The transmit queue with a frame that waits again (R77, R79). -/
def BusUnit.waitsAgain (i : Nat) (f : TxFrame) (again : TxFrame) (b : BusUnit) : BusUnit :=
  { b with
    statusRenew := if f.body.isStatus then false else b.statusRenew
    txQueue := b.txQueue.set i again }

theorem kept_waitsAgain {b : BusUnit} {i : Nat} {f : TxFrame} (pending : Nat) (h : b.txQueue[i]? = some f) :
    b.kept pending i f = b.waitsAgain i f (f.again pending) := by
  rw [BusUnit.kept, BusUnit.updFrame, modify_eq_set _ h]
  rfl

theorem attemptLost_eq {s : State} {i : Nat} {f : TxFrame} (h : s.underAttempt = some (i, f))
    (own : f.mark ≠ .detached) : attemptLost s =
      reportKept f.body (s.updBus (BusUnit.waitsAgain i f (f.again s.claims.releasePending))) := by
  rw [attemptLost, h]
  exact (if_neg own).trans (congrArg _ (updBus_congr (kept_waitsAgain _ (underAttempt_at h))))

theorem attemptLost_detached {s : State} {i : Nat} {f : TxFrame} (h : s.underAttempt = some (i, f))
    (detached : f.mark = .detached) : attemptLost s = s.dequeued i := by
  rw [attemptLost, h]
  exact if_pos detached

theorem reportKept_unmarked {b : FrameBody} {s : State}
    (h : ∀ c tag d, b = .intent c tag d → ∀ x, s.intentOf tag = some x → x.withdrawAtEnd = false) :
    reportKept b s = s := by
  cases b with
  | intent c tag d =>
    rw [reportKept]
    split
    next x found => exact if_neg (by rw [h c tag d rfl x found]; nofun)
    · rfl
  | _ => rfl

theorem intentOf_tag {s : State} {tag : Tag} {x : OwnIntent} (h : s.intentOf tag = some x) : x.tag = tag :=
  of_decide_eq_true (List.find?_some (p := fun e : OwnIntent => decide (e.tag = tag)) h)

/-- The cancellation of an own intent with its waiting frame (R53). -/
theorem reportKept_marked {c : Cage} {tag : Tag} {d : Nat} {x : OwnIntent} {s : State} (found : s.intentOf tag = some x)
    (marked : x.withdrawAtEnd = true) : reportKept (.intent c tag d) s =
      dueTest (setClaim x.cage .none ((s.updClaims (fun u => { u with
        intents := u.intents.filter (fun y => decide (y.tag ≠ tag)) })).updBus (BusUnit.removeIntent tag))) := by
  have effect : reportKept (.intent c tag d) s = cancelIntent x s := by
    rw [reportKept, found]
    exact if_pos marked
  rw [effect, ← intentOf_tag found]
  rfl

/-- Settles O34: the frame waits again, or its intent is cancelled, or a Restart has left it. -/
theorem lostArbitration : Obligations.LostArbitration := by
  intro i f s free loaded attempt
  have fires : ∃ t, exec .lostArbitration s = .next t ∧ EndsAs (attemptLost s) t :=
    eventNext_occurs (effect := attemptLost) free (by rw [onBus_of loaded, attempt]; rfl)
  refine ⟨fun detached => ?_, fun attempting => ?_⟩
  · rwa [attemptLost_detached attempt detached] at fires
  · intro again lost
    have kept : lost = s.updBus (BusUnit.waitsAgain i f (f.again s.claims.releasePending)) := by
      have same : again = f.again s.claims.releasePending := by
        obtain ⟨level, body, mark, follow⟩ := f
        cases body <;> cases follow <;> rfl
      simp only [lost, same]
      rfl
    have effect : attemptLost s = reportKept f.body lost := by
      rw [kept]
      exact attemptLost_eq attempt (by rw [attempting]; nofun)
    rw [effect] at fires
    refine ⟨fun unmarked => ?_, fun c tag d x body found marked => ?_⟩
    · rwa [reportKept_unmarked (s := lost) unmarked] at fires
    · rw [body, reportKept_marked (s := lost) found marked] at fires
      exact fires

end Sys2Proof.Machine
end

section
/-! PROOF. Transmit errors and the good receipt of a RELEASE (R79, R96, R97, R64, R43, R44). -/

namespace Sys2Proof.Machine

/-! ### The queue-time test at the end of an event -/

theorem mem_place {b : BusUnit} {f g : TxFrame} (kept : g.body.isReport = false) (mem : g ∈ b.txQueue) :
    g ∈ (b.place f).txQueue := by
  unfold BusUnit.place
  split
  · exact List.mem_append_left _ mem
  · split
    next i worst =>
      obtain ⟨x, at_, report⟩ : ∃ x, b.txQueue[i]? = some x ∧ x.body.isReport = true := by
        rcases worstReport_spec _ 0 none i worst with ⟨b, none, _⟩ | ⟨k, f, rfl, at_, _, report⟩
        · cases none
        · exact ⟨f, by rw [Nat.zero_add]; exact at_, report⟩
      obtain ⟨j, found⟩ := List.getElem?_of_mem mem
      have other : j ≠ i := by
        rintro rfl
        cases at_.symm.trans found
        rw [kept] at report
        cases report
      exact List.mem_append_left _ (List.mem_eraseIdx_iff_getElem?.2 ⟨j, other, found⟩)
    · exact mem

theorem mem_of_mem_place {b : BusUnit} {f g : TxFrame} (mem : g ∈ (b.place f).txQueue) : g ∈ b.txQueue ∨ g = f := by
  rcases place_txQueue b f with same | ⟨q, sub, _, _, _, placed⟩
  · exact .inl (same ▸ mem)
  · rw [placed] at mem
    rcases List.mem_append.1 mem with old | new
    · exact .inl (sub.subset old)
    · exact .inr (List.mem_singleton.1 new)

/-- The queue-time test takes no frame but a report out of the transmit queue. -/
theorem Tested.keepsFrame {v w : State} (h : Tested v w) {f : TxFrame} (kept : f.body.isReport = false)
    (mem : f ∈ v.bus.txQueue) : f ∈ w.bus.txQueue := by
  induction h with
  | stops => exact mem
  | queues c s t _ _ _ ih => exact ih (mem_place kept mem)

/-- The queue-time test brings no frame but INTENTs into the transmit queue. -/
theorem Tested.newFrame {v w : State} (h : Tested v w) {f : TxFrame} (mem : f ∈ w.bus.txQueue)
    (other : f.body.isIntent = false) : f ∈ v.bus.txQueue := by
  induction h with
  | stops => exact mem
  | queues c s t _ _ _ ih =>
    rcases mem_of_mem_place (ih mem) with old | rfl
    · exact old
    · cases other

theorem EndsAs.keepsFrame {u t : State} (h : EndsAs u t) {f : TxFrame} (kept : f.body.isReport = false)
    (mem : f ∈ u.bus.txQueue) : f ∈ t.bus.txQueue := by
  cases due : u.claims.testDue with
  | false => rw [(h.untested due).2]; exact mem
  | true =>
    obtain ⟨v, w, _, _, bus, run, _, same⟩ := h.tested due
    rw [same]
    exact run.keepsFrame kept (bus ▸ mem)

theorem EndsAs.newFrame {u t : State} (h : EndsAs u t) {f : TxFrame} (mem : f ∈ t.bus.txQueue)
    (other : f.body.isIntent = false) : f ∈ u.bus.txQueue := by
  cases due : u.claims.testDue with
  | false => rw [← (h.untested due).2]; exact mem
  | true =>
    obtain ⟨v, w, _, _, bus, run, _, same⟩ := h.tested due
    rw [same] at mem
    exact bus ▸ run.newFrame mem other

/-- A state in which no cage passes the queue-time test, whatever its candidate (R51). -/
def State.passesNone (s : State) : Prop :=
  s.claims.blind = true ∨ s.bus.health.drives = false ∨ s.startup.runState ≠ .running

theorem testPasses_of_passesNone {s : State} (h : s.passesNone) (c : Cage) : s.testPasses c = false := by
  rcases h with h | h | h <;> simp [State.testPasses, h]

theorem Tested.stays {v w : State} (h : Tested v w) (none : v.passesNone) : w = v := by
  cases h with
  | stops => rfl
  | queues c s t _ passes _ => rw [testPasses_of_passesNone none c] at passes; cases passes

/-- Where no cage passes the queue-time test, it changes no claim and no frame. -/
theorem EndsAs.unpassed {u t : State} (h : EndsAs u t) (none : u.passesNone) :
    t.claims = { u.claims with testDue := false } ∧ t.bus = u.bus := by
  cases due : u.claims.testDue with
  | false =>
    obtain ⟨claims, bus⟩ := h.untested due
    exact ⟨claims.trans (by rw [← due]), bus⟩
  | true =>
    obtain ⟨v, w, same, claims, bus, run, claims', bus'⟩ := h.tested due
    have stays : w = v := by
      refine run.stays ?_
      rcases none with blind | health | idle
      · exact .inl (by rw [claims]; exact blind)
      · exact .inr (.inl (by rw [bus]; exact health))
      · refine .inr (.inr ?_)
        rcases same.runState with run | ⟨_, run⟩
        · rw [run]; exact idle
        · rw [run]; nofun
    rw [claims', bus', stays]
    exact ⟨claims, bus⟩

/-! ### Every own intent abandoned (R63, R64) -/

theorem abandonAll_bus (s : State) : (abandonAll s).bus = { s.bus with txQueue := (abandonAll s).bus.txQueue } := by
  refine foldl_invariant (fun u : State => u.bus = { s.bus with txQueue := u.bus.txQueue })
    (fun s e => abandonIntent e s) (fun u e h => ?_) _ s rfl
  unfold abandonIntent
  split
  · exact h
  · exact congrArg (fun b : BusUnit => b.removeIntent e.tag) h

/-- The abandoning of the own intents changes the claims, the intents and whether a test is due. -/
theorem abandonAll_claimUnit (s : State) : (abandonAll s).claims = { s.claims with
    claims := (abandonAll s).claims.claims, intents := (abandonAll s).claims.intents,
    testDue := (abandonAll s).claims.testDue } := by
  refine foldl_invariant (fun u : State => u.claims = { s.claims with
    claims := u.claims.claims, intents := u.claims.intents, testDue := u.claims.testDue })
    (fun s e => abandonIntent e s) (fun u e h => ?_) _ s rfl
  unfold abandonIntent
  split
  · exact congrArg (fun k : ClaimUnit => { k with
      intents := k.intents.map (fun f : OwnIntent => if f.tag = e.tag then f.marked else f) }) h
  · exact congrArg (fun k : ClaimUnit => { k with
      testDue := true
      intents := k.intents.filter (fun f => decide (f.tag ≠ e.tag))
      claims := (cancelIntent e u).claims.claims }) h

/-- The abandoning of the own intents takes waiting INTENTs alone out of the transmit queue. -/
theorem abandonAll_keepsFrame {s : State} {f : TxFrame} (other : f.body.isIntent = false) (mem : f ∈ s.bus.txQueue) :
    f ∈ (abandonAll s).bus.txQueue := by
  refine foldl_invariant (fun u : State => f ∈ u.bus.txQueue) (fun s e => abandonIntent e s) (fun u e h => ?_) _ s mem
  unfold abandonIntent
  split
  · exact h
  · refine List.mem_filter.2 ⟨h, ?_⟩
    have plain : f.body.isIntentOf e.tag = false := by cases body : f.body <;> simp_all [FrameBody.isIntent, FrameBody.isIntentOf]
    rw [plain, Bool.and_false]
    rfl

/-- An entry of an intent left after the abandoning of one is marked, or is one of another tag as it was. -/
theorem abandonIntent_marks {e x : OwnIntent} {s : State} (mem : x ∈ (abandonIntent e s).claims.intents) :
    x.withdrawAtEnd = true ∨ (x ∈ s.claims.intents ∧ x.tag ≠ e.tag) := by
  unfold abandonIntent at mem
  split at mem
  · obtain ⟨y, old, rfl⟩ := List.mem_map.1 mem
    split
    · exact .inl rfl
    next other => exact .inr ⟨old, other⟩
  · obtain ⟨old, other⟩ := List.mem_filter.1 mem
    exact .inr ⟨old, of_decide_eq_true other⟩

/-- Every own intent that is left is marked to end in a WITHDRAW (R63, R64). -/
theorem abandonAll_marks {s : State} : ∀ x ∈ (abandonAll s).claims.intents, x.withdrawAtEnd = true := by
  have all : ∀ (l : List OwnIntent) (u : State),
      (∀ x ∈ u.claims.intents, x.withdrawAtEnd = true ∨ ∃ e ∈ l, x.tag = e.tag) →
      ∀ x ∈ (l.foldl (fun s e => abandonIntent e s) u).claims.intents, x.withdrawAtEnd = true := by
    intro l
    induction l with
    | nil => exact fun u h x mem => (h x mem).resolve_right (fun ⟨_, mem, _⟩ => nomatch mem)
    | cons a l ih =>
      intro u h
      refine ih _ fun x mem => ?_
      rcases abandonIntent_marks mem with marked | ⟨old, other⟩
      · exact .inl marked
      · rcases h x old with marked | ⟨e, mem, tag⟩
        · exact .inl marked
        · rcases List.mem_cons.1 mem with rfl | mem
          · exact absurd tag other
          · exact .inr ⟨e, mem, tag⟩
  exact all _ s fun x mem => .inr ⟨x, mem, rfl⟩

end Sys2Proof.Machine
end

section
/-! PROOF. Transmit errors and the good receipt of a RELEASE (R79, R96, R97, R64, R43, R44). -/

namespace Sys2Proof.Machine

/-! ### The health that a change of a count hands on -/

/-- What a count's change hands on where the part goes on driving the bus: the queue-time test where CAUTIOUS becomes
ACTIVE (R52, R97). -/
def State.afterHealth (was health : BusHealth) (u : State) : State :=
  if was = .cautious ∧ health = .active then dueTest u else u

theorem afterHealth_bus (was health : BusHealth) (u : State) : (u.afterHealth was health).bus = u.bus := by
  unfold State.afterHealth
  split <;> rfl

theorem judgeHealth_tested {s : State} {health : BusHealth}
    (after : healthAfterCounts s.bus.health s.bus.txErrors s.bus.rxErrors = health)
    (drives : s.bus.health = .active ∨ s.bus.health = .cautious) (driven : health = .active ∨ health = .cautious) :
    judgeHealth s = (s.updBus (fun b => { b with health := health })).afterHealth s.bus.health health := by
  rcases driven with rfl | rfl
  · rcases drives with was | was
    · rw [State.afterHealth, if_neg (by rw [was]; nofun)]
      exact judgeHealth_quiet after (.inl was)
    · rw [State.afterHealth, if_pos ⟨was, rfl⟩]
      exact judgeHealth_active (by rw [was]; nofun) after
  · rw [State.afterHealth, if_neg (fun h => nomatch h.2)]
    exact judgeHealth_quiet after (.inr rfl)

/-- A health that the counts take to SILENT has every own intent abandoned (R64, R97). -/
theorem judgeHealth_silent {s : State} (drives : s.bus.health = .active ∨ s.bus.health = .cautious)
    (after : healthAfterCounts s.bus.health s.bus.txErrors s.bus.rxErrors = .silent) :
    judgeHealth s = abandonAll (s.updBus (fun b => { b with health := .silent })) := by
  have judged : (s.updBus BusUnit.judged).bus.health = .silent := after
  unfold judgeHealth healthReport
  rw [if_neg (by rw [judged]; rcases drives with h | h <;> rw [h] <;> nofun), judged]
  exact congrArg abandonAll (updBus_congr (by rw [BusUnit.judged, after]))

theorem txFailed_drives {b : BusUnit} (h : b.health = .active ∨ b.health = .cautious) :
    b.txFailed = { b with txErrors := min 160 (b.txErrors + 4) } := if_pos (counts_of_drives h)

/-! ### Transmit errors -/

/-- The transmit queue and the counts after an attempt that ended by an error (R79, R96). -/
def BusUnit.failed (e : TxError) (i : Nat) (f again : TxFrame) (b : BusUnit) : BusUnit :=
  { b with
    txErrors := min 160 (b.txErrors + 4), lastError := txBusError e,
    statusRenew := if f.body.isStatus then false else b.statusRenew
    txQueue := b.txQueue.set i again }

theorem attemptFailed_eq {e : TxError} {s : State} {i : Nat} {f : TxFrame} (h : s.underAttempt = some (i, f))
    (own : f.mark ≠ .detached) : attemptFailed e s =
      judgeHealth ((reportKept f.body ((s.updBus (BusUnit.noteError (txBusError e))).updBus
        (BusUnit.waitsAgain i f (f.again s.claims.releasePending)))).updBus BusUnit.txFailed) := by
  have kept : (s.updBus (BusUnit.noteError (txBusError e))).updBus (BusUnit.kept s.claims.releasePending i f) =
      (s.updBus (BusUnit.noteError (txBusError e))).updBus
        (BusUnit.waitsAgain i f (f.again s.claims.releasePending)) :=
    updBus_congr (kept_waitsAgain _ (underAttempt_at h))
  rw [attemptFailed, h, ← kept]
  exact if_neg own

theorem attemptFailed_detached {e : TxError} {s : State} {i : Nat} {f : TxFrame} (h : s.underAttempt = some (i, f))
    (detached : f.mark = .detached) :
    attemptFailed e s = (s.updBus (fun b => { b with lastError := txBusError e })).dequeued i := by
  rw [attemptFailed, h]
  exact if_pos detached

/-- The state with an own intent cancelled, its entry and its waiting frame gone (R53). -/
def cancelled (tag : Tag) (c : Cage) (s : State) : State :=
  dueTest (setClaim c .none ((s.updClaims (fun u => { u with
    intents := u.intents.filter (fun y => decide (y.tag ≠ tag)) })).updBus (BusUnit.removeIntent tag)))

theorem TxFrame.again_isIntent (pending : Nat) (f : TxFrame) : (f.again pending).body.isIntent = f.body.isIntent := by
  obtain ⟨level, body, mark, follow⟩ := f
  cases body <;> cases follow <;> rfl

theorem TxFrame.again_isReport (pending : Nat) (f : TxFrame) : (f.again pending).body.isReport = f.body.isReport := by
  obtain ⟨level, body, mark, follow⟩ := f
  cases body <;> cases follow <;> rfl

/-- Settles O35: the frame goes, or waits again with the counts raised and their health judged, or its intent is
cancelled. -/
theorem transmitErrorCounted : Obligations.TransmitErrorCounted := by
  intro e i f s free loaded attempt error
  have known : error = txBusError e := by cases e <;> rfl
  clear_value error
  subst known
  have fires : ∃ t, exec (.transmitError e) s = .next t ∧ EndsAs (attemptFailed e s) t :=
    eventNext_occurs (effect := attemptFailed e) free (by rw [onBus_of loaded, attempt]; rfl)
  refine ⟨fun detached => ?_, fun attempting drives => ?_⟩
  · rwa [attemptFailed_detached attempt detached] at fires
  intro health again failed
  have same : again = f.again s.claims.releasePending := by
    obtain ⟨level, body, mark, follow⟩ := f
    cases body <;> cases follow <;> rfl
  clear_value again
  subst same
  have known : health = if 160 ≤ s.bus.txErrors + 4 then .silent
       else if 64 ≤ s.bus.txErrors + 4 ∨ 64 ≤ s.bus.rxErrors then .cautious else .active := rfl
  have after : ∀ h, h = .active ∨ h = .cautious →
      healthAfterCounts h (min 160 (s.bus.txErrors + 4)) s.bus.rxErrors = health := fun h is => by
    have silent : 160 ≤ min 160 (s.bus.txErrors + 4) ↔ 160 ≤ s.bus.txErrors + 4 := by omega
    have cautious : 64 ≤ min 160 (s.bus.txErrors + 4) ↔ 64 ≤ s.bus.txErrors + 4 := by omega
    rw [healthAfterCounts_drives is, known]
    simp only [silent, cautious]
  have failure : failed = (s.updBus (BusUnit.failed e i f (f.again s.claims.releasePending))).updBus
      (fun b => { b with health := health }) := rfl
  clear_value health failed
  subst failure
  have effect := attemptFailed_eq (e := e) attempt (by rw [attempting]; nofun)
  obtain ⟨t, answer, ends⟩ := fires
  refine ⟨fun unmarked => ⟨t, answer, ?_⟩, fun c tag d x body found marked unsilent => ⟨t, answer, ?_⟩⟩
  · have counted : ((s.updBus (BusUnit.noteError (txBusError e))).updBus
        (BusUnit.waitsAgain i f (f.again s.claims.releasePending))).updBus BusUnit.txFailed =
        s.updBus (BusUnit.failed e i f (f.again s.claims.releasePending)) :=
      updBus_congr (s := s)
        (f := fun b => ((b.noteError (txBusError e)).waitsAgain i f (f.again s.claims.releasePending)).txFailed)
        (txFailed_drives drives)
    rw [reportKept_unmarked (s := (s.updBus _).updBus _) unmarked, counted] at effect
    by_cases silent : health = .silent
    · subst silent
      rw [effect, judgeHealth_silent (s := s.updBus (BusUnit.failed e i f _)) drives (after _ drives)] at ends
      obtain ⟨claims, bus⟩ := ends.unpassed (.inr (.inl (by rw [abandonAll_bus]; rfl)))
      have fields := bus.trans (abandonAll_bus _)
      refine ⟨by rw [fields]; rfl, by rw [fields]; rfl, by rw [fields]; rfl, by rw [fields]; rfl,
        fun _ => ⟨by rw [claims]; exact abandonAll_marks, fun other => ?_⟩, fun loud => ?_, fun _ loud => nomatch loud⟩
      · rw [bus]
        refine abandonAll_keepsFrame ((f.again_isIntent _).trans other) ?_
        exact List.mem_set (List.getElem?_eq_some_iff.1 (underAttempt_at attempt)).1 _
      · rcases loud with loud | ⟨_, loud⟩ <;> cases loud
    · have driven : health = .active ∨ health = .cautious := by
        revert known silent
        repeat' split
        all_goals rintro rfl; simp
      rw [effect, judgeHealth_tested (s := s.updBus (BusUnit.failed e i f _)) (after _ drives) drives driven] at ends
      change EndsAs (State.afterHealth s.bus.health health _) t at ends
      have bus := ends.same.bus
      rw [afterHealth_bus] at bus
      refine ⟨by rw [bus]; rfl, by rw [bus]; rfl, by rw [bus]; rfl, by rw [bus]; rfl,
        fun loud => absurd loud silent, fun stays => ?_, fun was now => ?_⟩
      · have calm : ¬ (s.bus.health = .cautious ∧ health = .active) := by
          rintro ⟨was, now⟩
          rcases stays with h | ⟨h, _⟩
          · cases h.symm.trans now
          · cases h.symm.trans was
        rwa [State.afterHealth, if_neg calm] at ends
      · rwa [State.afterHealth, if_pos ⟨was, now⟩] at ends
  · rw [body, reportKept_marked (s := (s.updBus _).updBus _) found marked] at effect
    have counted : (cancelled tag x.cage ((s.updBus (BusUnit.noteError (txBusError e))).updBus
        (BusUnit.waitsAgain i f (f.again s.claims.releasePending)))).updBus BusUnit.txFailed =
        cancelled tag x.cage (s.updBus (BusUnit.failed e i f (f.again s.claims.releasePending))) :=
      updBus_congr (s := cancelled tag x.cage s)
        (f := fun _ => (((s.bus.noteError (txBusError e)).waitsAgain i f
          (f.again s.claims.releasePending)).removeIntent tag).txFailed)
        (g := fun _ => (s.bus.failed e i f (f.again s.claims.releasePending)).removeIntent tag)
        (txFailed_drives drives)
    have driven : health = .active ∨ health = .cautious := by
      revert known unsilent
      repeat' split
      all_goals rintro rfl; simp
    have judged := judgeHealth_tested
      (s := cancelled tag x.cage (s.updBus (BusUnit.failed e i f (f.again s.claims.releasePending))))
      (after _ drives) drives driven
    rw [effect, show dueTest _ = cancelled tag x.cage _ from rfl, counted, judged, State.afterHealth] at ends
    split at ends
    · exact ends
    · exact ends

end Sys2Proof.Machine
end

section
/-! PROOF. The good receipt of a RELEASE (R43, R44). -/

namespace Sys2Proof.Machine

/-! ### What a change of a count leaves alone -/

/-- What the health handed on after a change of a count leaves of the other units. -/
structure HealthLeaves (s t : State) : Prop where
  startup   : t.startup = s.startup
  lines     : t.lines = s.lines
  cages     : t.cages = s.cages
  peers     : t.peers = s.peers
  penalties : t.penalties = s.penalties
  links     : t.links = s.links
  scan      : t.scan = s.scan
  service   : t.service = s.service
  events    : t.events = s.events
  claims    : t.claims = { s.claims with
    claims := t.claims.claims, intents := t.claims.intents, testDue := t.claims.testDue }
  bus       : t.bus = { s.bus with health := t.bus.health, txQueue := t.bus.txQueue }

theorem HealthLeaves.refl (s : State) : HealthLeaves s s where
  startup := rfl
  lines := rfl
  cages := rfl
  peers := rfl
  penalties := rfl
  links := rfl
  scan := rfl
  service := rfl
  events := rfl
  claims := rfl
  bus := rfl

theorem abandonAll_leaves (s : State) : HealthLeaves s (abandonAll s) where
  startup := foldl_keeps State.startup _ (fun s e => by simp) _ _
  lines := foldl_keeps State.lines _ (fun s e => by simp) _ _
  cages := foldl_keeps State.cages _ (fun s e => by simp) _ _
  peers := foldl_keeps State.peers _ (fun s e => by simp) _ _
  penalties := foldl_keeps State.penalties _ (fun s e => by simp) _ _
  links := foldl_keeps State.links _ (fun s e => by simp) _ _
  scan := foldl_keeps State.scan _ (fun s e => by simp) _ _
  service := foldl_keeps State.service _ (fun s e => by simp) _ _
  events := foldl_keeps State.events _ (fun s e => by simp) _ _
  claims := abandonAll_claimUnit s
  bus := by rw [abandonAll_bus]

theorem dueTest_leaves (s : State) : HealthLeaves s (dueTest s) :=
  { HealthLeaves.refl s with claims := rfl }

theorem HealthLeaves.of_judged {s t : State} (h : HealthLeaves (s.updBus BusUnit.judged) t) : HealthLeaves s t :=
  { h with bus := h.bus }

theorem judgeHealth_leaves (s : State) : HealthLeaves s (judgeHealth s) := by
  refine .of_judged ?_
  unfold judgeHealth healthReport
  repeat' split
  · exact .refl _
  · exact abandonAll_leaves _
  · exact dueTest_leaves _
  · exact .refl _
  · exact .refl _

/-! ### The frame that has been sent -/

theorem attemptSent_eq {clocks : ClockHold} {s : State} {i : Nat} {f : TxFrame} (h : s.underAttempt = some (i, f))
    (own : f.mark ≠ .detached) : attemptSent clocks s =
      reportSent clocks f.body (judgeHealth (s.updBus (fun b => (b.sent i f).txGood))) := by
  rw [attemptSent, h]
  exact if_neg own

theorem attemptSent_detached {clocks : ClockHold} {s : State} {i : Nat} {f : TxFrame}
    (h : s.underAttempt = some (i, f)) (detached : f.mark = .detached) : attemptSent clocks s = s.dequeued i := by
  rw [attemptSent, h]
  exact if_pos detached

theorem goodReceipt_occurs {clocks : ClockHold} {s : State} {i : Nat} {f : TxFrame}
    (free : s.startup.resetHeld = false) (loaded : s.startup.runState ≠ .loading)
    (attempt : s.underAttempt = some (i, f)) :
    ∃ t, exec (.goodReceipt clocks) s = .next t ∧ EndsAs (attemptSent clocks s) t :=
  eventNext_occurs (effect := attemptSent clocks) free (by rw [onBus_of loaded, attempt]; rfl)

/-- A RELEASE handed over where none is queued takes a new place (R44). -/
theorem mem_releaseUp {b : BusUnit} {amount : Nat} (none : ∀ e ∈ b.txQueue, e.body.isRelease = false)
    (room : b.txQueue.length < 8) : newFrame 0 (.release amount) ∈ (b.releaseUp amount).txQueue := by
  have absent : ∀ mark, holds b.txQueue mark FrameBody.isRelease = false := fun mark =>
    List.any_eq_false.2 fun e mem => by rw [none e mem, Bool.and_false]; nofun
  rw [BusUnit.releaseUp, absent, absent, BusUnit.place, if_neg nofun, if_neg nofun, if_pos room]
  exact List.mem_append_right _ (List.mem_singleton.2 rfl)

theorem eraseIdx_of_others {α : Type} {l : List α} {i : Nat} {P : α → Prop}
    (h : ∀ j x, l[j]? = some x → j ≠ i → P x) : ∀ x ∈ l.eraseIdx i, P x := fun x mem => by
  obtain ⟨j, other, at_⟩ := List.mem_eraseIdx_iff_getElem?.1 mem
  exact h j x at_ other

theorem isRelease_of_isIntent {b : FrameBody} (h : b.isIntent = true) : b.isRelease = false := by
  cases b <;> simp_all [FrameBody.isIntent, FrameBody.isRelease]

/-- What the good receipt of a RELEASE leaves at its own event, before the work that ends it (R43, R44). -/
structure ReleaseTaken (amount : Nat) (s u : State) : Prop where
  leaves : u.lines = s.lines ∧ u.penalties = s.penalties ∧ u.peers = s.peers ∧ u.events = s.events ∧ u.cages = s.cages
  totals : u.claims.releasePending = s.claims.releasePending - amount ∧
    u.claims.committed = s.claims.committed - amount
  spent  : amount = s.claims.releasePending → ∀ e ∈ u.bus.txQueue, e.body.isRelease = false
  rest   : amount < s.claims.releasePending →
    newFrame 0 (.release (s.claims.releasePending - amount)) ∈ u.bus.txQueue

theorem attemptSent_release {clocks : ClockHold} {s : State} {i : Nat} {f : TxFrame} {amount : Nat}
    (attempt : s.underAttempt = some (i, f)) (own : f.mark = .attempting) (body : f.body = .release amount)
    (room : s.bus.txQueue.length ≤ 8)
    (single : ∀ j e, s.bus.txQueue[j]? = some e → j ≠ i → e.body.isRelease = false) :
    ReleaseTaken amount s (attemptSent clocks s) := by
  have lt := (List.getElem?_eq_some_iff.1 (underAttempt_at attempt)).1
  have queue : (s.bus.sent i f).txGood.txQueue = s.bus.txQueue.eraseIdx i := by
    rw [(BusUnit.txGood_queues _).1]
    have renewed : renewal s.bus.statusRenew f = [] := by
      obtain ⟨level, b, mark, follow⟩ := f
      cases body
      rfl
    show _ ++ renewal s.bus.statusRenew f = _
    rw [renewed, List.append_nil]
  have leaves := judgeHealth_leaves (s.updBus (fun b => (b.sent i f).txGood))
  obtain ⟨_, sub⟩ := judgeHealth_queue (s.updBus (fun b => (b.sent i f).txGood))
  rw [updBus_bus, queue] at sub
  have effect := attemptSent_eq (clocks := clocks) attempt (by rw [own]; nofun)
  rw [body] at effect
  generalize judgeHealth (s.updBus (fun b => (b.sent i f).txGood)) = u at *
  have pending : u.claims.releasePending = s.claims.releasePending := by rw [leaves.claims]; rfl
  have committed : u.claims.committed = s.claims.committed := by rw [leaves.claims]; rfl
  have none : ∀ e ∈ u.bus.txQueue, e.body.isRelease = false := fun e mem =>
    eraseIdx_of_others single e (sub.subset mem)
  have short : u.bus.txQueue.length < 8 := by
    have := sub.length_le
    rw [List.length_eraseIdx_of_lt lt] at this
    omega
  rw [effect]
  refine ⟨?_, ?_, fun all => ?_, fun some => ?_⟩
  · simp [reportSent, leaves.lines, leaves.penalties, leaves.peers, leaves.events, leaves.cages]
  · simp only [reportSent, releaseSent, dueTest, pending]
    split
    · exact ⟨rfl, congrArg (· - amount) committed⟩
    · exact ⟨rfl, congrArg (· - amount) committed⟩
  · have gone : u.claims.releasePending - amount = 0 := by omega
    simp only [reportSent, releaseSent, dueTest, gone, if_true]
    exact none
  · have left : u.claims.releasePending - amount ≠ 0 := by omega
    simp only [reportSent, releaseSent, if_neg left]
    rw [pending]
    exact mem_releaseUp none short

/-- Settles O33: the amount leaves both totals, and the rest goes into a new RELEASE. -/
theorem releaseSent_spec : Obligations.ReleaseSent := by
  intro clocks i f amount s free loaded attempt own body le room single
  obtain ⟨t, answer, ends⟩ := goodReceipt_occurs (clocks := clocks) free loaded attempt
  obtain ⟨⟨lines, penalties, peers, events, cages⟩, ⟨pending, committed⟩, spent, rest⟩ :=
    attemptSent_release (clocks := clocks) attempt own body room single
  obtain ⟨total, left⟩ := ends.totals
  refine ⟨t, answer, left.trans pending, total.trans committed, fun all e mem => ?_, fun some => ?_,
    ends.same.lines.trans lines, ends.same.penalties.trans penalties, ends.same.peers.trans peers,
    ends.same.events.trans events, fun c => ?_⟩
  · cases kind : e.body.isIntent with
    | true => exact isRelease_of_isIntent kind
    | false => exact spent all e (ends.newFrame mem kind)
  · exact ends.keepsFrame rfl (rest some)
  · have same : (attemptSent clocks s).cage c = s.cage c := congrArg (fun v : Vector CageRecord 16 => v[c]) cages
    rw [← same]
    exact ends.same.cages c

end Sys2Proof.Machine
end

section
/-! PROOF. Requests that are turned away, by row and by frame (R88, R162 to R164). -/

namespace Sys2Proof.Machine

/-! ### A request by its row (Table 8-1) -/

/-- A request row stands for the arrival of its request. -/
theorem exec_row {i : Instr} {q : Request} (h : rowRequest i = some q) (s : State) : exec i s = requestArrives q s := by
  cases i
  case readCage | readEvent | readPeer | readHealth | hold | unhold | retry | clearPenalty | setCeiling | moduleRead |
      moduleWrite | restart =>
    cases h
    rfl
  all_goals cases h

/-! ### The reply to a request (R164) -/

/-- The state with a REPLY handed over and the service unit REPLYING (R162, R164). -/
def State.answered (s : State) (r : Request) (result : Result) (data : List Byte) : State :=
  (s.replying r).updBus
    (fun b => { b with txQueue := b.txQueue ++ [newFrame 16 (.reply r.code (byteOf result.code) data)] })

theorem answer_eq {s : State} (room : s.bus.txQueue.length < 8) (r : Request) (result : Result) (data : List Byte) :
    answer r result data s = s.answered r result data := by
  have placed := fun f => show s.bus.place f = { s.bus with txQueue := s.bus.txQueue ++ [f] } from
    if_pos room
  simp only [answer, queueFrame, State.updBus, placed]
  rfl

/-- A REPLY handed over waits at the end of the event. -/
theorem replyWaits_of_answered {u t : State} {r : Request} {result : Result} {data : List Byte}
    (ends : EndsAs (u.answered r result data) t) : t.replyWaits r.code result data :=
  ends.keepsFrame rfl (List.mem_append_right _ (List.mem_singleton.2 rfl))

theorem serveRequest_judged {r : Request} {s : State} {result : Result}
    (h : r.judge s.startup.runState = some result) : serveRequest r s = answer r result [] s := by
  rw [serveRequest, h]

theorem serveRequest_passes {r : Request} {s : State} (h : r.judge s.startup.runState = none) :
    serveRequest r s = carryOut r s := by
  rw [serveRequest, h]

/-! ### The checks of a request (R163) -/

theorem badArg_of_code {r : Request} {run : RunState} (h : 12 ≤ r.codeNo) : r.judge run = some .badArg := if_pos h

theorem badArg_of_form {r : Request} {run : RunState} (h : r.countGood = false ∨ r.rangeGood = false) :
    r.judge run = some .badArg := by
  unfold Request.judge
  rcases h with h | h <;> simp [h]

/-- The number of argument bytes of Table 8-1, by code. -/
theorem countGood_cases {r : Request} (h : r.countGood = true) :
    ((r.codeNo = 0 ∨ r.codeNo = 2 ∨ r.codeNo = 3 ∨ r.codeNo = 8) → r.args.length = 1) ∧
    ((r.codeNo = 1 ∨ r.codeNo = 9) → r.args.length = 2) ∧
    ((r.codeNo = 4 ∨ r.codeNo = 5 ∨ r.codeNo = 6 ∨ r.codeNo = 7 ∨ r.codeNo = 11) → r.args.length = 0) ∧
    (r.codeNo = 10 → 2 ≤ r.args.length ∧ r.args.length ≤ 5) := by
  unfold Request.countGood at h
  dsimp only at h
  split at h <;> simp_all

/-- The ranges of the arguments, by code (R163). -/
theorem rangeGood_cases {r : Request} (h : r.rangeGood = true) :
    (r.codeNo = 0 → r.arg 0 ≤ 3) ∧ (r.codeNo = 1 → r.arg 0 ≤ 3 ∧ r.arg 1 ≤ 5) ∧
    (r.codeNo = 2 → r.arg 0 ≤ 31) ∧ (r.codeNo = 3 → r.arg 0 ≤ 1) ∧
    (r.codeNo = 9 → 1 ≤ r.arg 1 ∧ r.arg 1 ≤ 6 ∧ r.arg 0 + r.arg 1 - 1 ≤ 255) ∧
    (r.codeNo = 10 → r.arg 0 + (r.args.length - 1) - 1 ≤ 255) := by
  unfold Request.rangeGood at h
  split at h <;> simp_all

/-- A request that fails the checks of its form is answered BAD-ARG. -/
theorem judge_illFormed {q : Request} (run : RunState) (h : q.illFormed) : q.judge run = some .badArg := by
  by_cases known : 12 ≤ q.codeNo
  · exact badArg_of_code known
  cases count : q.countGood with
  | false => exact badArg_of_form (.inl count)
  | true =>
    cases range : q.rangeGood with
    | false => exact badArg_of_form (.inr range)
    | true =>
      have counts := countGood_cases count
      have ranges := rangeGood_cases range
      have bad : 12 ≤ q.codeNo ∨ _ := h
      simp only [← show q.codeNo = q.code.toNat % 16 from rfl, ← show ∀ i, q.arg i = (byteAt q.args i).toNat from
        fun _ => rfl] at bad
      generalize q.codeNo = code, q.args.length = n, q.arg 0 = first, q.arg 1 = second at *
      omega

theorem changesState_iff (q : Request) : q.changesState = true ↔ q.alters := by
  unfold Request.changesState Request.alters
  dsimp only
  rw [show q.codeNo = q.code.toNat % 16 from rfl]
  split <;> simp_all
  omega

/-- A request of a good form is answered NOT-READY in LISTENING where it changes state. -/
theorem judge_alters {q : Request} (formed : ¬ q.illFormed) (alters : q.alters) : q.judge .listening = some .notReady := by
  have forms : q.countGood = true ∧ q.rangeGood = true ∧ ¬ 12 ≤ q.codeNo := by
    unfold Request.illFormed at formed
    unfold Request.alters at alters
    dsimp only at formed alters
    unfold Request.countGood Request.rangeGood
    dsimp only
    simp only [Request.codeNo, Request.arg]
    split <;> simp_all <;> omega
  obtain ⟨count, range, known⟩ := forms
  simp [Request.judge, known, count, range, (changesState_iff q).2 alters]

/-! ### A request that comes in a frame (R81, R88) -/

theorem rxGood_drives {b : BusUnit} (h : b.health = .active ∨ b.health = .cautious) :
    b.rxGood = { b with rxErrors := b.rxErrors - 1 } := if_pos (counts_of_drives h)

theorem rxGood_quiet {b : BusUnit} (h : b.health = .silent ∨ b.health = .recovering) : b.rxGood = b :=
  if_neg (by rw [counts_of_quiet h]; nofun)

/-- The receive error count after a good reception (R96). -/
def State.heard (s : State) : State := s.updBus (fun b => { b with
  rxErrors := if b.health = .silent ∨ b.health = .recovering then b.rxErrors else b.rxErrors - 1 })

theorem rxGood_heard (s : State) : s.updBus BusUnit.rxGood = s.heard := by
  refine updBus_congr ?_
  by_cases quiet : s.bus.health = .silent ∨ s.bus.health = .recovering
  · rw [rxGood_quiet quiet, if_pos quiet]
  · have drives : s.bus.health = .active ∨ s.bus.health = .cautious := by
      revert quiet; cases s.bus.health <;> simp
    rw [rxGood_drives drives, if_neg quiet]

/-- A good reception after which the health is as it was goes to the block its kind names (R81). -/
theorem goodReception_occurs {raw : RawFrame} {f : Frame} {s : State} (free : s.startup.resetHeld = false)
    (loaded : s.startup.runState ≠ .loading) (good : ∀ b, decodeFrame b raw = .ok f) :
    ∃ t, exec (.goodReception raw) s = .next t ∧ EndsAs (routeFrame f (judgeHealth s.heard)) t := by
  have effect : receive raw s = routeFrame f (judgeHealth s.heard) := by
    rw [receive, good, ← rxGood_heard]
    rfl
  rw [← effect]
  exact eventNext_occurs (effect := receive raw) free (onBus_of loaded)

/-- The counts leave the health as it is (R97). -/
def BusUnit.steady (b : BusUnit) : Prop :=
  (b.health = .active ∧ b.txErrors < 64 ∧ b.rxErrors < 64) ∨
  (b.health = .cautious ∧ b.txErrors < 160 ∧ (64 ≤ b.txErrors ∨ 65 ≤ b.rxErrors)) ∨
  b.health = .silent ∨ b.health = .recovering

theorem judgeHealth_heard {s : State} (h : s.bus.steady) : judgeHealth s.heard = s.heard := by
  have same : healthAfterCounts s.heard.bus.health s.heard.bus.txErrors s.heard.bus.rxErrors = s.heard.bus.health := by
    rcases h with ⟨active, tx, rx⟩ | ⟨cautious, tx, high⟩ | quiet
    · have rx' : s.heard.bus.rxErrors = s.bus.rxErrors - 1 := if_neg (by rw [active]; nofun)
      rw [rx', show s.heard.bus.health = .active from active, show s.heard.bus.txErrors = s.bus.txErrors from rfl,
        healthAfterCounts_drives (.inl rfl), if_neg (by omega), if_neg (by omega)]
    · have rx' : s.heard.bus.rxErrors = s.bus.rxErrors - 1 := if_neg (by rw [cautious]; nofun)
      rw [rx', show s.heard.bus.health = .cautious from cautious, show s.heard.bus.txErrors = s.bus.txErrors from rfl,
        healthAfterCounts_drives (.inr rfl), if_neg (by omega), if_pos (by omega)]
    · exact healthAfterCounts_quiet quiet _ _
  rw [judgeHealth_quiet same (.inl rfl)]
  rfl

theorem routeFrame_request {f : Frame} {code : Byte} {args : List Byte} {s : State}
    (other : f.source ≠ s.startup.station) (body : f.body = .request s.startup.station code args) :
    routeFrame f s = checkRequest f.source ⟨code, args⟩ s := by
  rw [routeFrame, if_neg other, body]
  exact if_pos rfl

theorem serves_heard {s : State} (h : s.serves) : s.heard.serves := ⟨h.free, h.onBus, h.idle, h.queue, h.room⟩

theorem acceptRequest_full {s : State} (r : Request) (full : 4 ≤ s.bus.serviceQueue.length) :
    acceptRequest r s = s.updBus (fun b => { b with serviceOverflow := min 65535 (b.serviceOverflow + 1) }) :=
  if_neg (by omega)

/-- Settles O48: by the checks of R163, for a row and for a frame alike, and a row at a full queue. -/
theorem requestsTurnedAway : Obligations.RequestsTurnedAway := by
  intro s turned
  have turns : ∀ {i : Instr} {q : Request} {result : Result} {u : State}, u.serves →
      q.judge u.startup.runState = some result →
      (∃ t, exec i s = .next t ∧ EndsAs (acceptRequest q u) t) →
      ∃ t, exec i s = .next t ∧ turned q result u t := by
    rintro i q result u serves judged ⟨t, next, ends⟩
    rw [acceptRequest_of_serves serves, serveRequest_judged judged, answer_eq serves.room] at ends
    exact ⟨t, next, replyWaits_of_answered ends, ends⟩
  refine ⟨fun i q serves row => ?_, fun raw f q serves good other body passes health tx rx => ?_,
    fun free loaded full i q row => ?_⟩
  · have arrives : ∃ t, exec i s = .next t ∧ EndsAs (acceptRequest q s) t := by
      rw [exec_row row]
      exact eventNext_occurs (effect := acceptRequest q) serves.free (onBus_of serves.onBus)
    exact ⟨fun bad => turns serves (judge_illFormed _ bad) arrives,
      fun formed alters listening => turns serves ((congrArg q.judge listening).trans (judge_alters formed alters)) arrives⟩
  · intro heard
    have same : heard = s.heard := updBus_congr (by rw [if_neg (by rw [health]; nofun)])
    have arrives : ∃ t, exec (.goodReception raw) s = .next t ∧ EndsAs (acceptRequest q heard) t := by
      have occurs := goodReception_occurs serves.free serves.onBus good
      rw [judgeHealth_heard (.inl ⟨health, tx, rx⟩), routeFrame_request (s := s.heard) other body, checkRequest,
        if_pos (show sourceMatches s.heard.conf f.source = true from passes), ← same] at occurs
      exact occurs
    have ready : heard.serves := same ▸ serves_heard serves
    exact ⟨fun bad => turns ready (judge_illFormed _ bad) arrives,
      fun formed alters listening =>
        turns ready ((congrArg q.judge listening).trans (judge_alters formed alters)) arrives⟩
  · rw [exec_row row, requestArrives, ← acceptRequest_full q (by omega)]
    exact eventNext_occurs (effect := acceptRequest q) free (onBus_of loaded)

end Sys2Proof.Machine
end

section
/-! PROOF. Good receptions routed (R81, R88, R95, R63). -/

namespace Sys2Proof.Machine

/-! ### A request taken by the service unit (R162) -/

/-- What the service of a request leaves of the service unit and of the bus. -/
structure Takes (r : Request) (s t : State) : Prop where
  request : t.service.request = some r
  busy    : t.service.phase ≠ .idle
  bus     : t.bus = { s.bus with
    txQueue := t.bus.txQueue, reportDrop := t.bus.reportDrop, lastError := t.bus.lastError }

theorem answer_takes {r : Request} {result : Result} {data : List Byte} {s u : State}
    (bus : u.bus = { s.bus with
      txQueue := u.bus.txQueue, reportDrop := u.bus.reportDrop, lastError := u.bus.lastError }) :
    Takes r s (answer r result data u) where
  request := rfl
  busy := nofun
  bus := by
    have placed : (answer r result data u).bus = u.bus.place (newFrame 16 (.reply r.code (byteOf result.code) data)) := rfl
    rw [placed, place_bus, bus]

theorem answerCage_takes {r : Request} {c : Cage} {outcome : Result × State} {s : State}
    (only : OnlyCage c s outcome.2) : Takes r s (answerCage r c outcome) :=
  answer_takes (by rw [only.bus])

theorem zeroRetries_onlyCage (c : Cage) (s : State) : OnlyCage c s (zeroRetries c s) := updCage_onlyCage c _ s

theorem holdCage_onlyCage (c : Cage) (s : State) : OnlyCage c s (holdCage c s).2 := by
  unfold holdCage
  split
  · exact .refl c s
  · exact .refl c s
  · exact .refl c s
  · exact (handRecord_onlyCage c _ _ _ s).trans (moveCage_onlyCage c _ _ _)

theorem unholdCage_onlyCage (c : Cage) (s : State) : OnlyCage c s (unholdCage c s).2 := by
  unfold unholdCage
  split
  · have freed : OnlyCage c s (zeroRetries c (handRecord c .manual .manualHold none s)) :=
      (handRecord_onlyCage c _ _ _ s).trans (zeroRetries_onlyCage c _)
    dsimp only
    split
    · exact freed.trans (enterIdentify_onlyCage c _)
    · exact (freed.trans (moveCage_onlyCage c _ _ _)).trans (updCage_onlyCage c _ _)
  · exact .refl c s

theorem retryCage_onlyCage (c : Cage) (s : State) : OnlyCage c s (retryCage c s).2 := by
  unfold retryCage
  split
  · exact ((handRecord_onlyCage c _ _ _ s).trans (zeroRetries_onlyCage c _)).trans (enterIdentify_onlyCage c _)
  · exact .refl c s

theorem zeroPenalty_onlyCage (c : Cage) (s : State) : OnlyCage c s (zeroPenalty c s) := updPenalty_onlyCage c _ s

theorem clearPenaltyOf_onlyCage (c : Cage) (s : State) : OnlyCage c s (clearPenaltyOf c s) := by
  unfold clearPenaltyOf
  dsimp only
  split
  · exact (zeroPenalty_onlyCage c s).trans (enterRelight_onlyCage c _)
  · exact zeroPenalty_onlyCage c s

theorem presentPassThrough_takes (r : Request) (l : LinkRequest) (s : State) : Takes r s (presentPassThrough r l s) := by
  unfold presentPassThrough
  split
  · exact ⟨rfl, nofun, by simp [setService]⟩
  · exact answer_takes rfl

theorem carryOut_takes (r : Request) (s : State) : Takes r s (carryOut r s) := by
  unfold carryOut
  split
  · exact answer_takes rfl
  · exact answer_takes rfl
  · exact answer_takes rfl
  · unfold serveHealth
    dsimp only
    split
    · exact answer_takes rfl
    · exact answer_takes rfl
  · exact answerCage_takes (holdCage_onlyCage _ s)
  · exact answerCage_takes (unholdCage_onlyCage _ s)
  · exact answerCage_takes (retryCage_onlyCage _ s)
  · exact answerCage_takes (clearPenaltyOf_onlyCage _ s)
  · exact answer_takes rfl
  · exact presentPassThrough_takes _ _ s
  · unfold serveWrite
    dsimp only
    split
    · split
      · exact answer_takes rfl
      · exact answer_takes rfl
    · exact presentPassThrough_takes _ _ s
  · have taken := answer_takes (r := r) (result := .done) (data := []) (s := s) (u := s) rfl
    exact ⟨taken.request, nofun, taken.bus⟩

/-- A request served is the service unit's, which is IDLE no longer; of the bus the transmit queue moves, and the last
bus error with a READ-HEALTH. -/
theorem serveRequest_takes (r : Request) (s : State) : Takes r s (serveRequest r s) := by
  unfold serveRequest
  split
  · exact answer_takes rfl
  · exact carryOut_takes r s

/-! ### The routes of a frame (R81) -/

theorem routeFrame_budget {f : Frame} {s : State} (other : f.source ≠ s.startup.station) (budget : f.body.classNo ≤ 1) :
    routeFrame f s = takeBudgetFrame f s := by
  rw [routeFrame, if_neg other]
  cases body : f.body with
  | request _ _ _ | reply _ _ _ | cageReport _ => rw [body] at budget; simp [FrameBody.classNo] at budget
  | _ => rfl

theorem routeFrame_nowhere {f : Frame} {s : State}
    (h : f.source = s.startup.station ∨ f.body.isReply = true ∨ f.body.isReport = true ∨
      ∃ target code args, f.body = .request target code args ∧ target ≠ s.startup.station) : routeFrame f s = s := by
  unfold routeFrame
  split
  · rfl
  next other =>
    rcases h with own | reply | report | ⟨target, code, args, body, elsewhere⟩
    · exact absurd own other
    · cases body : f.body <;> rw [body] at reply <;> simp_all [FrameBody.isReply]
    · cases body : f.body <;> rw [body] at report <;> simp_all [FrameBody.isReport]
    · rw [body]
      exact if_neg elsewhere

theorem acceptRequest_busy {r : Request} {s : State} (room : s.bus.serviceQueue.length < 4)
    (busy : s.service.phase ≠ .idle) :
    acceptRequest r s = s.updBus (fun b => { b with serviceQueue := b.serviceQueue ++ [r] }) := by
  rw [acceptRequest, if_pos room]
  exact if_neg busy

/-- A request is taken at once by an IDLE service unit whose queue is empty, whether a REPLY has room or not. -/
theorem acceptRequest_idle {r : Request} {s : State} (empty : s.bus.serviceQueue = []) (idle : s.service.phase = .idle) :
    acceptRequest r s = serveRequest r s := by
  have queued : s.updBus (fun b => { b with serviceQueue := b.serviceQueue ++ [r] }) =
      s.updBus (fun b => { b with serviceQueue := [r] }) := updBus_congr (by rw [empty]; rfl)
  have taken : s.updBus (fun b => { b with serviceQueue := [] }) = s := by
    simp only [State.updBus, ← empty]
  rw [acceptRequest, if_pos (by rw [empty]; exact Nat.zero_lt_succ 3), queued]
  exact (if_pos idle).trans (congrArg (serveRequest r) taken)

/-- What the loss of a budget frame leaves at its own event (R95, R63). -/
theorem enterBlind_leaves (s : State) : HealthLeaves (s.updClaims (fun k =>
    { k with blind := true, blindTimer := some s.conf.announce })) (enterBlind s) := abandonAll_leaves _

/-- Settles O37: by the kind of the frame, its source, and the room of the queue it enters. -/
theorem goodReceptionRouted : Obligations.GoodReceptionRouted := by
  intro raw f s free loaded good rx budget other nowhere
  obtain ⟨t, answer, ends⟩ := goodReception_occurs free loaded good
  have heard : s.heard = s.updBus (fun b => { b with rxErrors := rx }) := rfl
  refine ⟨fun steady => ?_, fun cautious tx low gone => ?_⟩
  · rw [judgeHealth_heard steady] at ends
    refine ⟨fun elsewhere ofBudget room => ⟨t, answer, ?_⟩, fun elsewhere ofBudget full => ⟨t, answer, ?_⟩,
      fun code args elsewhere body => ?_, fun gone => ⟨t, answer, ?_⟩⟩
    · rw [routeFrame_budget (s := s.heard) elsewhere ofBudget, takeBudgetFrame,
        if_pos (show s.heard.bus.budgetQueue.length < 16 from room)] at ends
      exact ends
    · rw [routeFrame_budget (s := s.heard) elsewhere ofBudget, takeBudgetFrame,
        if_neg (show ¬ s.heard.bus.budgetQueue.length < 16 by exact Nat.not_lt.2 full)] at ends
      have left := enterBlind_leaves (s.heard.updBus (fun b => { b with budgetLoss := satAdd 65535 b.budgetLoss 1 }))
      have marks : ∀ x ∈ (enterBlind (s.heard.updBus (fun b =>
          { b with budgetLoss := satAdd 65535 b.budgetLoss 1 }))).claims.intents, x.withdrawAtEnd = true :=
        abandonAll_marks
      have blind := congrArg ClaimUnit.blind left.claims
      have timer := congrArg ClaimUnit.blindTimer left.claims
      have committed := congrArg ClaimUnit.committed left.claims
      have pending := congrArg ClaimUnit.releasePending left.claims
      have queue := congrArg BusUnit.budgetQueue left.bus
      have loss := congrArg BusUnit.budgetLoss left.bus
      have errors := congrArg BusUnit.rxErrors left.bus
      obtain ⟨claims, bus⟩ := ends.unpassed (.inl blind)
      rw [claims, bus]
      exact ⟨queue, loss, errors, blind, timer, marks, committed, pending, ends.same.peers.trans left.peers,
        ends.same.lines.trans left.lines, ends.same.penalties.trans left.penalties, ends.same.events.trans left.events⟩
    · rw [routeFrame_request (s := s.heard) elsewhere body, checkRequest] at ends
      refine ⟨fun denied => ⟨t, answer, ?_⟩, fun passes full => ⟨t, answer, ?_⟩, fun passes room busy => ⟨t, answer, ?_⟩,
        fun passes empty idle => ⟨t, answer, ?_⟩⟩
      · rw [if_neg (show ¬ sourceMatches s.heard.conf f.source = true by
          exact fun h => nomatch denied.symm.trans h)] at ends
        exact ends
      · rw [if_pos (show sourceMatches s.heard.conf f.source = true from passes), acceptRequest_full (s := s.heard) _ full] at ends
        exact ends
      · rw [if_pos (show sourceMatches s.heard.conf f.source = true from passes),
          acceptRequest_busy (s := s.heard) room busy] at ends
        exact ends
      · rw [if_pos (show sourceMatches s.heard.conf f.source = true from passes),
          acceptRequest_idle (s := s.heard) empty idle] at ends
        have taken := serveRequest_takes ⟨code, args⟩ s.heard
        generalize serveRequest ⟨code, args⟩ s.heard = u at *
        have bus := ends.same.bus
        rw [taken.bus] at bus
        rw [ends.same.service, bus]
        exact ⟨rfl, empty, taken.busy, taken.request⟩
    · rw [routeFrame_nowhere (s := s.heard) gone] at ends
      exact ends
  · have rxLow : rx = s.bus.rxErrors - 1 := if_neg (by rw [cautious]; nofun)
    have judged : judgeHealth s.heard = dueTest (s.heard.updBus (fun b => { b with health := .active })) :=
      judgeHealth_active (by rw [show s.heard.bus.health = _ from cautious]; nofun)
        ((healthAfterCounts_drives (.inr cautious) _ _).trans (by
          rw [show s.heard.bus.txErrors = s.bus.txErrors from rfl, show s.heard.bus.rxErrors = _ from rxLow,
            if_neg (by omega), if_neg (by omega)]))
    rw [judged, routeFrame_nowhere (s := dueTest (s.heard.updBus _)) gone] at ends
    exact ⟨t, answer, ends⟩

end Sys2Proof.Machine
end

section
/-! PROOF. The transmit queue at a cage's move (R3, R90, R92). -/

namespace Sys2Proof.Machine

/-! ### Room for a frame (R92) -/

/-- A frame that is no report finds a place: the queue has room, or holds a waiting report that makes room. -/
def BusUnit.makesRoom (b : BusUnit) : Prop :=
  b.txQueue.length < 8 ∨ ∃ f ∈ b.txQueue, f.mark = .waiting ∧ f.body.isReport = true

theorem worstReport_isSome {q : List TxFrame} {i : Nat} {best : Option (Nat × Nat)}
    (h : best.isSome = true ∨ ∃ f ∈ q, f.mark = .waiting ∧ f.body.isReport = true) :
    (worstReport i best q).isSome = true := by
  induction q generalizing i best with
  | nil =>
    rcases h with some | ⟨f, mem, _⟩
    · rw [worstReport, Option.isSome_map]; exact some
    · cases mem
  | cons f fs ih =>
    have later : ¬ (f.mark = .waiting ∧ f.body.isReport = true) →
        best.isSome = true ∨ ∃ f ∈ fs, f.mark = .waiting ∧ f.body.isReport = true := fun other =>
      h.imp_right fun ⟨g, mem, waits⟩ => by
        rcases List.mem_cons.1 mem with rfl | mem
        · exact absurd waits other
        · exact ⟨g, mem, waits⟩
    unfold worstReport
    split
    · split
      · split
        · exact ih (.inl rfl)
        · exact ih (.inl rfl)
      · exact ih (.inl rfl)
    next other => exact ih (later other)

theorem mem_place_new {b : BusUnit} {f : TxFrame} (room : b.makesRoom) : f ∈ (b.place f).txQueue := by
  unfold BusUnit.place
  split
  · exact List.mem_append_right _ (List.mem_singleton.2 rfl)
  next full =>
    obtain ⟨i, worst⟩ := Option.isSome_iff_exists.1 (worstReport_isSome (i := 0) (best := none)
      (.inr (room.resolve_left full)))
    rw [worst]
    exact List.mem_append_right _ (List.mem_singleton.2 rfl)

theorem place_length (b : BusUnit) (f : TxFrame) : (b.place f).txQueue.length ≤ b.txQueue.length + 1 := by
  rcases place_txQueue b f with same | ⟨q, sub, _, _, _, placed⟩
  · rw [same]; exact Nat.le_succ _
  · rw [placed, List.length_append]
    exact Nat.add_le_add_right sub.length_le 1

theorem report_makesRoom {b : BusUnit} (short : b.txQueue.length < 8) (r : CageReport) (level : Nat) :
    (b.report r level).makesRoom := by
  unfold BusUnit.report
  repeat' split
  · exact .inl (by rwa [List.length_map])
  · exact .inl (by rwa [List.length_map])
  · exact .inr ⟨_, List.mem_append_right _ (List.mem_singleton.2 rfl), rfl, rfl⟩

theorem releaseUp_length (b : BusUnit) (amount : Nat) :
    (b.releaseUp amount).txQueue.length ≤ b.txQueue.length + 1 := by
  unfold BusUnit.releaseUp
  split
  · rw [List.length_map]; exact Nat.le_succ _
  · split
    · exact Nat.le_succ _
    · exact place_length _ _

theorem abandonIntent_length (e : OwnIntent) (s : State) :
    (abandonIntent e s).bus.txQueue.length ≤ s.bus.txQueue.length := by
  unfold abandonIntent
  split
  · exact le_rfl
  · exact List.length_filter_le _ _

theorem disposeClaim_length (c : Cage) (s : State) :
    (disposeClaim c s).bus.txQueue.length ≤ s.bus.txQueue.length + 1 := by
  unfold disposeClaim
  repeat' split
  · exact Nat.le_succ _
  · exact releaseUp_length _ _
  · exact (abandonIntent_length _ _).trans (Nat.le_succ _)
  · exact Nat.le_succ _
  · exact (abandonIntent_length _ _).trans (Nat.le_succ _)
  · exact Nat.le_succ _

theorem claimHandOff_length (c : Cage) (old new : CageState) (s : State) :
    (claimHandOff c old new s).bus.txQueue.length ≤ s.bus.txQueue.length + 1 := by
  unfold claimHandOff
  repeat' split
  · exact Nat.le_succ _
  · exact Nat.le_succ _
  · exact disposeClaim_length c (leaveList c s)
  · exact releaseUp_length _ _
  · exact Nat.le_succ _
  · exact disposeClaim_length c s
  · exact disposeClaim_length c s
  · exact Nat.le_succ _
  · exact Nat.le_succ _
  · exact Nat.le_succ _

/-- The report of a cage in its present state (R90). -/
def State.reportOf (s : State) (c : Cage) : CageReport :=
  ⟨c, (s.cage c).state, if (s.cage c).state = .faulted then (s.cage c).cause else .none, (s.penalty c).value⟩

/-- What a cage's move does to the bus: what the hand-off of the claim does, and the report of a new state. -/
theorem moveCage_bus (c : Cage) (new : CageState) (cause : FaultCause) (s : State) :
    (moveCage c new cause s).bus =
      if new = (s.cage c).state then (claimHandOff c (s.cage c).state new s).bus
      else (claimHandOff c (s.cage c).state new s).bus.report ((moveCage c new cause s).reportOf c)
        ((moveCage c new cause s).claim c).level := by
  have dropped : ∀ u : State, (if new.powered then u else dropScanOf c u).bus = u.bus := fun u => by
    split <;> simp
  have emptied : ∀ u : State, (if new.emptiesList then emptyRequests c u else u).bus = u.bus := fun u => by
    split <;> simp
  have vacated : ∀ u : State, (if new = .vacant then u.updScan c CageScan.vacated else u).bus = u.bus := fun u => by
    split <;> rfl
  unfold moveCage
  dsimp only
  by_cases same : new = (s.cage c).state
  · rw [if_pos same, if_pos same, vacated, updCage_bus, (nameSource_frame c new _).2.2.2.2.2.1, emptied, dropped]
  · rw [if_neg same, if_neg same]
    have moved : ∀ u : State, (handReport c u).bus = u.bus.report (u.reportOf c) (u.claim c).level := fun _ => rfl
    have kept : ∀ u : State, (handReport c u).reportOf c = u.reportOf c ∧ (handReport c u).claim c = u.claim c :=
      fun u => ⟨rfl, rfl⟩
    rw [moved, (kept _).1, (kept _).2, vacated, updCage_bus, (nameSource_frame c new _).2.2.2.2.2.1, emptied, dropped]

/-- A move to another state leaves room for a frame that is no report, where the queue had room for two (R92). -/
theorem moveCage_makesRoom {c : Cage} {new : CageState} {cause : FaultCause} {s : State}
    (short : s.bus.txQueue.length < 7) (moves : new ≠ (s.cage c).state) : (moveCage c new cause s).bus.makesRoom := by
  rw [moveCage_bus, if_neg moves]
  exact report_makesRoom (by have := claimHandOff_length c (s.cage c).state new s; omega) _ _

end Sys2Proof.Machine
end

section
/-! PROOF. The sums and the queue-time test in the spec's terms (R46, R49 to R51, R57). -/

namespace Sys2Proof.Machine

/-! ### Sums that stop at 2097151 (R50) -/

theorem sumAdd_stops (a b x : Nat) : min 2097151 (sumAdd a b + x) = min 2097151 (a + b + x) := by
  unfold sumAdd satAdd
  omega

theorem foldl_sumAdd_stops (l : List Nat) (a x : Nat) :
    min 2097151 (l.foldl sumAdd a + x) = min 2097151 (a + l.sum + x) := by
  induction l generalizing a with
  | nil => rfl
  | cons y l ih =>
    have step := sumAdd_stops a y (l.sum + x)
    rw [List.foldl_cons, ih, List.sum_cons]
    omega

theorem peerTerm_eq (s : State) (n : Station) (counts : PeerIntent → Bool) :
    peerTerm s.conf n (s.peer n) counts = s.peerShare n counts := rfl

theorem peerSum_stops (s : State) (start x : Nat) (counts : Station → PeerIntent → Bool) :
    min 2097151 (s.peerSum start counts + x) = min 2097151 (start + s.peerShares counts + x) := by
  unfold State.peerSum State.peerShares
  generalize List.finRange 32 = l
  induction l generalizing start with
  | nil => rfl
  | cons n l ih =>
    rw [List.foldl_cons, ih]
    by_cases own : n = s.startup.station
    · rw [if_pos own, List.filter_cons_of_neg (by simpa using own)]
    · rw [if_neg own, List.filter_cons_of_pos (by simpa using own), List.map_cons, List.sum_cons, peerTerm_eq]
      have step := sumAdd_stops start (s.peerShare n (counts n))
        (((l.filter (fun n => decide (n ≠ s.startup.station))).map (fun n => s.peerShare n (counts n))).sum + x)
      omega

theorem min_sumAdd (a b : Nat) : sumAdd a b = min 2097151 (a + b) := rfl

/-- The admission sum in the spec's terms (R50). -/
theorem admissionSum_eq (s : State) (d : Nat) : s.admissionSum d = s.admissionTotal d := by
  have own := foldl_sumAdd_stops (s.claims.intents.map OwnIntent.draw) s.claims.committed
    (s.peerShares (fun _ _ => true) + d)
  rw [State.admissionSum, State.admissionTotal, min_sumAdd, peerSum_stops]
  rw [← Nat.add_assoc, ← Nat.add_assoc] at own
  exact own

/-! ### The own entries senior to one (R56, R57) -/

theorem seniorOwn_of_new {e : OwnIntent} {before : Bool} {l : List OwnIntent} (new : ∀ f ∈ l, f.tag ≠ e.tag) :
    seniorOwn e before l =
      ((l.filter (fun f => f.sent && ownSenior f e before)).map OwnIntent.draw).sum := by
  induction l with
  | nil => rfl
  | cons f l ih =>
    rw [seniorOwn, if_neg (new f List.mem_cons_self), ih fun g mem => new g (List.mem_cons_of_mem _ mem)]
    cases senior : f.sent && ownSenior f e before with
    | false => simp [senior]
    | true => simp [senior]

theorem seniorOwn_append {e : OwnIntent} {l : List OwnIntent} (new : ∀ f ∈ l, f.tag ≠ e.tag) (behind : List OwnIntent) :
    seniorOwn e true (l ++ e :: behind) = seniorOwn e true l + seniorOwn e false behind := by
  induction l with
  | nil => simp [seniorOwn]
  | cons f l ih =>
    have other := new f List.mem_cons_self
    rw [List.cons_append, seniorOwn, if_neg other, seniorOwn, if_neg other,
      ih fun g mem => new g (List.mem_cons_of_mem _ mem), Nat.add_assoc]

theorem ownSenior_before (f e : OwnIntent) : ownSenior f e true = decide (f.level ≤ e.level) := by
  have split : f.level ≤ e.level ↔ f.level < e.level ∨ f.level = e.level := Nat.le_iff_lt_or_eq
  simp [ownSenior, split]

theorem ownSenior_behind (f e : OwnIntent) : ownSenior f e false = decide (f.level < e.level) := by
  simp [ownSenior]

/-- The confirm sum in the spec's terms (R57). -/
theorem confirmSum_eq {s : State} {i : Nat} {e : OwnIntent} (at_ : s.claims.intents[i]? = some e)
    (distinct : (s.claims.intents.map OwnIntent.tag).Nodup) : s.confirmSum e = s.confirmTotal i e := by
  obtain ⟨lt, is⟩ := List.getElem?_eq_some_iff.1 at_
  have parts : s.claims.intents = s.claims.intents.take i ++ e :: s.claims.intents.drop (i + 1) := by
    rw [← is, ← List.drop_eq_getElem_cons lt, List.take_append_drop]
  have tags := distinct
  rw [parts, List.map_append, List.map_cons, List.nodup_append] at tags
  obtain ⟨_, behind, apart⟩ := tags
  have before : ∀ f ∈ s.claims.intents.take i, f.tag ≠ e.tag := fun f mem =>
    apart _ (List.mem_map_of_mem mem) _ List.mem_cons_self
  have after : ∀ f ∈ s.claims.intents.drop (i + 1), f.tag ≠ e.tag := fun f mem same =>
    (List.nodup_cons.1 behind).1 (same ▸ List.mem_map_of_mem mem)
  have senior : seniorOwn e true s.claims.intents =
      ((((s.claims.intents.take i).filter (fun x => x.sent && decide (x.level ≤ e.level))) ++
        (s.claims.intents.drop (i + 1)).filter (fun x => x.sent && decide (x.level < e.level))).map
        OwnIntent.draw).sum := by
    conv_lhs => rw [parts]
    rw [seniorOwn_append before, seniorOwn_of_new before, seniorOwn_of_new after, List.map_append, List.sum_append]
    simp only [ownSenior_before, ownSenior_behind]
  have counts : (fun (n : Station) (x : PeerIntent) => seniorTo x.level n e.level s.startup.station) =
      fun n x => decide (x.level < e.level ∨ (x.level = e.level ∧ n < s.startup.station)) := by
    funext n x
    simp [seniorTo]
  unfold State.confirmSum State.confirmTotal
  dsimp only
  rw [counts, min_sumAdd, peerSum_stops, ← senior]
  have step := sumAdd_stops s.claims.committed (seniorOwn e true s.claims.intents)
    (s.peerShares (fun n x => decide (x.level < e.level ∨ (x.level = e.level ∧ n < s.startup.station))) + e.draw)
  rw [← Nat.add_assoc, ← Nat.add_assoc] at step
  exact step

/-! ### The five conditions (R51) -/

theorem openTags_lt_iff (s : State) : s.openTags.length < 2 ↔ s.tagFree := by
  have answers : ∀ q : List TxFrame, (answersOf q).length =
      (q.filter (fun f => decide (f.mark ≠ .detached) && f.body.answerTag.isSome)).length := by
    intro q
    induction q with
    | nil => rfl
    | cons f q ih =>
      rw [answersOf] at ih ⊢
      rw [List.filterMap_cons, List.filter_cons]
      by_cases detached : f.mark = .detached
      · simpa [detached] using ih
      · cases tag : f.body.answerTag with
        | none => simpa [detached, tag] using ih
        | some t => simpa [detached, tag] using ih
  rw [State.tagFree, ← answers, State.openTags, answerTags_eq, List.length_append, List.length_map]

theorem drives_iff (h : BusHealth) : h.drives = true ↔ h = .active ∨ h = .cautious := by
  cases h <;> simp [BusHealth.drives]

theorem testPasses_iff (s : State) (c : Cage) : s.testPasses c = true ↔ s.admits c := by
  rw [State.testPasses, admissionSum_eq]
  simp only [Bool.and_eq_true, decide_eq_true_eq, Bool.not_eq_true', openTags_lt_iff, drives_iff]
  exact ⟨fun ⟨⟨⟨⟨running, seeing⟩, healthy⟩, tag⟩, fits⟩ => ⟨running, seeing, healthy, tag, fits⟩,
    fun ⟨running, seeing, healthy, tag, fits⟩ => ⟨⟨⟨⟨running, seeing⟩, healthy⟩, tag⟩, fits⟩⟩

/-! ### The candidate (R46, R49) -/

/-- Whether a cage can be the candidate, as the search of the admission list asks it. -/
def State.isReady (s : State) (c : Cage) : Bool :=
  decide ((s.claim c).state = .none) && (s.claim c).backoff.isNone && decide ((s.claim c).level < s.claims.ceiling)

theorem ready_iff (s : State) (c : Cage) : s.ready c ↔ (s.claim c).listed = true ∧ s.isReady c = true := by
  simp [State.ready, State.isReady, and_assoc]

theorem keyedBefore_iff (s : State) (c d : Cage) :
    keyedBefore (fun c => listKey s.startup.stationTime (s.claim c)) c d ↔ s.listedBefore c d := by
  have bound := fun k : Cage => (s.startup.stationTime - (s.claim k).listTime).isLt
  have hc := bound c
  have hd := bound d
  simp only [keyedBefore, State.listedBefore, listKey, timeSince, Fin.lt_def]
  generalize (s.startup.stationTime - (s.claim c).listTime).toNat = x at *
  generalize (s.startup.stationTime - (s.claim d).listTime).toNat = y at *
  omega

theorem admissionList_sorted (s : State) :
    s.admissionList.Pairwise (keyedBefore fun c => listKey s.startup.stationTime (s.claim c)) :=
  sortByKey_sorted (allCages_ascending.filter _)

theorem mem_admissionList (s : State) (c : Cage) : c ∈ s.admissionList ↔ (s.claim c).listed = true := by
  rw [State.admissionList, (sortByKey_perm _ _).mem_iff, List.mem_filter]
  exact and_iff_right (mem_allCages c)

theorem listedBefore_asymm {s : State} {c d : Cage} (h : s.listedBefore c d) : ¬ s.listedBefore d c := by
  simp only [State.listedBefore, Fin.lt_def] at h ⊢
  generalize (s.startup.stationTime - (s.claim c).listTime).toNat = x at *
  generalize (s.startup.stationTime - (s.claim d).listTime).toNat = y at *
  omega

/-- The first of an ordered list that meets a test is the one before all others that meet it. -/
theorem find?_eq_some_iff_before {r : Cage → Cage → Prop} (asymm : ∀ c d, r c d → ¬ r d c) {p : Cage → Bool}
    {l : List Cage} (sorted : l.Pairwise r) (c : Cage) :
    l.find? p = some c ↔ (c ∈ l ∧ p c = true) ∧ ∀ d ∈ l, p d = true → d ≠ c → r c d := by
  induction l with
  | nil => simp
  | cons x l ih =>
    obtain ⟨first, rest⟩ := List.pairwise_cons.1 sorted
    cases test : p x with
    | true =>
      rw [List.find?_cons_of_pos test]
      constructor
      · rintro ⟨⟩
        refine ⟨⟨List.mem_cons_self, test⟩, fun d mem _ other => ?_⟩
        exact first d ((List.mem_cons.1 mem).resolve_left other)
      · rintro ⟨⟨mem, _⟩, before⟩
        rcases List.mem_cons.1 mem with rfl | mem
        · rfl
        · by_contra other
          have other : x ≠ c := fun same => other (congrArg some same)
          exact asymm _ _ (before x List.mem_cons_self test other) (first c mem)
    | false =>
      rw [List.find?_cons_of_neg (by rw [test]; nofun), ih rest]
      have skip : ∀ d, p d = true → (d ∈ x :: l ↔ d ∈ l) := fun d pass => by
        refine List.mem_cons.trans (or_iff_right ?_)
        rintro rfl
        cases test.symm.trans pass
      constructor
      · rintro ⟨⟨mem, pass⟩, before⟩
        exact ⟨⟨List.mem_cons_of_mem _ mem, pass⟩, fun d mem pass => before d ((skip d pass).1 mem) pass⟩
      · rintro ⟨⟨mem, pass⟩, before⟩
        exact ⟨⟨(skip c pass).1 mem, pass⟩, fun d mem pass => before d ((skip d pass).2 mem) pass⟩

/-- The candidate in the spec's terms (R49). -/
theorem candidate_iff (s : State) (c : Cage) : s.candidate = some c ↔ s.mostUrgent c := by
  have search : s.candidate = s.admissionList.find? s.isReady := rfl
  rw [search, find?_eq_some_iff_before (fun c d h k => listedBefore_asymm ((keyedBefore_iff s c d).1 h)
    ((keyedBefore_iff s d c).1 k)) (admissionList_sorted s), State.mostUrgent]
  simp only [mem_admissionList, keyedBefore_iff, ready_iff]
  exact and_congr_right fun _ => forall_congr' fun d =>
    ⟨fun h ⟨listed, pass⟩ other => h listed pass other, fun h listed pass other => h ⟨listed, pass⟩ other⟩

/-! ### After the event (R51, R52) -/

theorem Tested.fails {v w : State} (h : Tested v w) : ∀ c, w.candidate = some c → w.testPasses c = false := by
  induction h with
  | stops s fails => exact fails
  | queues _ _ _ _ _ _ ih => exact ih

/-- What the queue-time test looks at and does not move. -/
structure TestView (s t : State) : Prop where
  station : t.startup.station = s.startup.station
  conf    : t.conf = s.conf
  time    : t.startup.stationTime = s.startup.stationTime
  running : t.startup.runState = .running ↔ s.startup.runState = .running
  peers   : t.peers = s.peers

theorem TestView.refl (s : State) : TestView s s := ⟨rfl, rfl, rfl, Iff.rfl, rfl⟩

theorem TestView.trans {s t u : State} (h : TestView s t) (k : TestView t u) : TestView s u :=
  ⟨k.station.trans h.station, k.conf.trans h.conf, k.time.trans h.time, k.running.trans h.running,
    k.peers.trans h.peers⟩

theorem TestView.symm {s t : State} (h : TestView s t) : TestView t s :=
  ⟨h.station.symm, h.conf.symm, h.time.symm, h.running.symm, h.peers.symm⟩

theorem SameOutsideWork.testView {s t : State} (h : SameOutsideWork s t) : TestView s t where
  station := by rw [h.startup]
  conf := by rw [State.conf, State.conf, h.startup]
  time := by rw [h.startup]
  running := by
    rcases h.runState with same | ⟨was, now⟩
    · rw [same]
    · rw [was, now]; exact ⟨nofun, nofun⟩
  peers := h.peers

theorem Tested.testView {v w : State} (h : Tested v w) : TestView v w := by
  induction h with
  | stops s _ => exact .refl s
  | queues c s t _ _ _ ih =>
    obtain ⟨_, startup, _, _, peers, _⟩ := queueFrame_frame (s.claim c).level
      (.intent c (s.claims.lastTag + 1) (s.claim c).draw) s
    refine TestView.trans ⟨?_, ?_, ?_, ?_, ?_⟩ ih <;> simp [queueIntent, State.conf]

/-- A test of the claims and the bus of another state, which agrees on what the test looks at beside them. -/
theorem candidate_congr {s t : State} (view : TestView s t) (claims : t.claims = s.claims) : t.candidate = s.candidate := by
  unfold State.candidate State.admissionList State.claim
  rw [claims, view.time]

theorem testPasses_congr {s t : State} (view : TestView s t) (claims : t.claims = s.claims) (bus : t.bus = s.bus)
    (c : Cage) : t.testPasses c = s.testPasses c := by
  have running : decide (t.startup.runState = .running) = decide (s.startup.runState = .running) :=
    decide_eq_decide.2 view.running
  unfold State.testPasses State.openTags State.answerTags State.admissionSum State.peerSum State.claim State.peer
  rw [claims, bus, running, view.conf, view.station, view.peers]

/-- At the end of an event that runs the queue-time test no candidate passes (R51, R52). -/
theorem EndsAs.noneAdmitted {u t : State} (h : EndsAs u t) (due : u.claims.testDue = true) (k : Cage)
    (urgent : t.mostUrgent k) : ¬ t.admits k := by
  obtain ⟨v, w, same, _, _, run, claims, bus⟩ := h.tested due
  have view : TestView w t := (run.testView.symm.trans same.testView.symm).trans h.same.testView
  rw [← testPasses_iff, testPasses_congr view claims bus]
  rw [← candidate_iff, candidate_congr view claims] at urgent
  rw [run.fails k urgent]
  nofun

end Sys2Proof.Machine
end

section
/-! PROOF. The backoff and Blind timers, and what the queue-time test does at an event (R49 to R52, R60, R63). -/

namespace Sys2Proof.Machine

/-! ### One run of the queue-time test -/

theorem queueIntent_units (c : Cage) (s : State) :
    (queueIntent c s).claims.intents = s.claims.intents ++
      [⟨s.claims.lastTag + 1, c, (s.claim c).draw, (s.claim c).level, none, none, false⟩] ∧
    (queueIntent c s).claim c = { s.claim c with state := .queued } ∧
    (queueIntent c s).bus = s.bus.place
      (newFrame (s.claim c).level (.intent c (s.claims.lastTag + 1) (s.claim c).draw)) :=
  ⟨rfl, claim_setClaim c .queued s, rfl⟩

theorem Tested.keepsIntent {v w : State} (h : Tested v w) {x : OwnIntent} (mem : x ∈ v.claims.intents) :
    x ∈ w.claims.intents := by
  induction h with
  | stops => exact mem
  | queues c s t _ _ _ ih => exact ih (by rw [(queueIntent_units c s).1]; exact List.mem_append_left _ mem)

/-- The queue-time test takes claims that are NONE alone (R49). -/
theorem Tested.keepsClaim {v w : State} (h : Tested v w) {k : Cage} (held : (v.claim k).state ≠ .none) :
    w.claim k = v.claim k := by
  induction h with
  | stops => rfl
  | queues c s t chosen _ _ ih =>
    have other : k ≠ c := by
      rintro rfl
      exact held (candidate_none chosen)
    have kept : (queueIntent c s).claim k = s.claim k := claim_setClaim_other other _ _
    rw [ih (by rw [kept]; exact held), kept]

/-- What the queue-time test of an event does, with the state it is run in (R51). -/
structure TestRun (u t : State) : Prop where
  passes : ∀ k : Cage, u.mostUrgent k → u.admits k →
    (t.claim k).state = .queued ∧ (t.claim k).draw = (u.claim k).draw ∧
    (⟨u.claims.lastTag + 1, k, (u.claim k).draw, (u.claim k).level, none, none, false⟩ : OwnIntent) ∈ t.claims.intents ∧
    (u.bus.txQueue.length < 8 → newFrame (u.claim k).level
      (.intent k (u.claims.lastTag + 1) (u.claim k).draw) ∈ t.bus.txQueue)
  fails  : (∀ k : Cage, u.mostUrgent k → ¬ u.admits k) →
    t.claims = { u.claims with testDue := false } ∧ t.bus = u.bus
  ends   : ∀ k : Cage, t.mostUrgent k → ¬ t.admits k

theorem EndsAs.testRun {u t : State} (h : EndsAs (dueTest u) t) : TestRun u t := by
  obtain ⟨v, w, same, claims, bus, run, claims', bus'⟩ := h.tested rfl
  let tested := u.updClaims (fun k => { k with testDue := false })
  have view : TestView tested v := ⟨same.testView.station, same.testView.conf, same.testView.time,
    same.testView.running, same.testView.peers⟩
  have candidate : v.candidate = u.candidate := candidate_congr (s := tested) view claims
  have passes : ∀ c, v.testPasses c = u.testPasses c :=
    testPasses_congr (s := tested) view claims bus
  have claim : ∀ c, v.claim c = u.claim c := fun c => by rw [State.claim, claims]; rfl
  have tag : v.claims.lastTag = u.claims.lastTag := by rw [claims]; rfl
  refine ⟨fun k urgent admits => ?_, fun none => ?_, h.noneAdmitted rfl⟩
  · have chosen := candidate.trans ((candidate_iff u k).2 urgent)
    have pass := (passes k).trans ((testPasses_iff u k).2 admits)
    cases run with
    | stops _ fails => exact absurd pass (by rw [fails k chosen]; nofun)
    | queues c _ _ first _ rest =>
      obtain rfl : c = k := Option.some.inj (first.symm.trans chosen)
      obtain ⟨intents, queued, frames⟩ := queueIntent_units c v
      have kept := (claim_congr claims' c).trans (rest.keepsClaim (k := c) (by rw [queued]; nofun))
      rw [kept, queued, claims', bus', ← tag, ← claim c]
      refine ⟨rfl, rfl, rest.keepsIntent ?_, fun room => rest.keepsFrame rfl ?_⟩
      · rw [intents]
        exact List.mem_append_right _ (List.mem_singleton.2 rfl)
      · rw [frames]
        exact mem_place_new (.inl (by rw [bus]; exact room))
  · cases run with
    | stops => exact ⟨claims'.trans claims, bus'.trans bus⟩
    | queues c _ _ first pass _ =>
      rw [candidate] at first
      rw [passes] at pass
      exact absurd ((testPasses_iff u c).1 pass) (none c ((candidate_iff u c).1 first))

/-- Settles O44: either timer stops, and the queue-time test is run. -/
theorem backoffAndBlindEnd : Obligations.BackoffAndBlindEnd := by
  intro i c s free ended comes
  have fires : ∃ t, exec i s = .next t ∧ EndsAs (dueTest ended) t ∧ ended.bus = s.bus ∧
      ended.claims.lastTag = s.claims.lastTag ∧ (∀ k, (ended.claim k).draw = (s.claim k).draw ∧
        (ended.claim k).level = (s.claim k).level) ∧
      (i = .backoffExpiry c → (ended.claim c).backoff = none) ∧
      (i = .blindTimerExpiry → ended.claims.blind = false ∧ ended.claims.blindTimer = none) := by
    rcases comes with ⟨rfl, runs⟩ | ⟨rfl, runs⟩
    · have is : ended = s.updClaim c (fun k => { k with backoff := none }) := if_neg nofun
      rw [is]
      obtain ⟨t, answer, ends⟩ := eventNext_occurs (effect := fun s => dueTest (s.updClaim c (fun k => { k with backoff := none })))
        free runs
      refine ⟨t, answer, ends, rfl, rfl, fun k => ?_, fun _ => by rw [claim_updClaim], nofun⟩
      by_cases same : k = c
      · subst same; rw [claim_updClaim]; exact ⟨rfl, rfl⟩
      · rw [claim_updClaim_other _ _ _ _ same]; exact ⟨rfl, rfl⟩
    · have is : ended = s.updClaims (fun k => { k with blind := false, blindTimer := none }) := if_pos rfl
      rw [is]
      obtain ⟨t, answer, ends⟩ := eventNext_occurs (effect := fun s => dueTest (s.updClaims (fun k =>
        { k with blind := false, blindTimer := none }))) free runs
      exact ⟨t, answer, ends, rfl, rfl, fun k => ⟨rfl, rfl⟩, nofun, fun _ => ⟨rfl, rfl⟩⟩
  obtain ⟨t, answer, ends, bus, tag, kept, backoff, blind⟩ := fires
  obtain ⟨passes, fails, none⟩ := ends.testRun
  refine ⟨t, answer, ends, fun is => ?_, fun is => ?_, fun k urgent admits => ?_, fun no => ?_, none⟩
  · rw [ends.same.claims c]
    exact backoff is
  · rw [ends.same.claimUnit]
    exact blind is
  · have queued := passes k urgent admits
    rwa [(kept k).1, (kept k).2, tag, bus] at queued
  · obtain ⟨claims, same⟩ := fails no
    exact ⟨claims, same.trans bus⟩

end Sys2Proof.Machine
end

section
/-! PROOF. The requests CLEAR-PENALTY, SET-CEILING, MODULE-READ and MODULE-WRITE (R36, R113, R169, R170). -/

namespace Sys2Proof.Machine

/-! ### Requests that pass the checks (R163) -/

theorem judge_passes {r : Request} {run : RunState} (known : r.codeNo < 12) (count : r.countGood = true)
    (range : r.rangeGood = true) (heard : run ≠ .listening) : r.judge run = none := by
  simp [Request.judge, count, range, heard, Nat.not_le_of_lt known]

/-- HOLD, UNHOLD, RETRY and CLEAR-PENALTY carry no argument. -/
theorem judge_bare (c : Cage) {code : Nat} (named : code = 4 ∨ code = 5 ∨ code = 6 ∨ code = 7) {run : RunState}
    (heard : run ≠ .listening) : Request.judge run ⟨cageCode c code, []⟩ = none := by
  have known := codeNo_cageCode c (code := code) (by omega) []
  refine judge_passes (by omega) ?_ ?_ heard
  · rw [Request.countGood, known]
    rcases named with rfl | rfl | rfl | rfl <;> rfl
  · rw [Request.rangeGood, known]
    rcases named with rfl | rfl | rfl | rfl <;> rfl

/-- A request row that passes the checks is carried out. -/
theorem carriesOut {i : Instr} {q : Request} {s : State} (serves : s.serves) (row : rowRequest i = some q)
    (passes : q.judge s.startup.runState = none) : ∃ t, exec i s = .next t ∧ EndsAs (carryOut q s) t := by
  rw [exec_row row]
  exact requestArrives_of_serves serves passes

/-! ### Requests of a cage at the end of an event (R7) -/

theorem mem_addRequest (q : CrsRequest) (l : List CrsRequest) : q ∈ addRequest q l := by
  unfold addRequest
  split
  next waits =>
    obtain ⟨p, mem, kind⟩ := List.any_eq_true.1 waits
    exact List.mem_map.2 ⟨p, mem, if_pos (of_decide_eq_true kind)⟩
  · exact List.mem_append_right _ (List.mem_singleton.2 rfl)

/-- What a cage asks for waits or is carried at the end of the event (R6, R7). -/
theorem EndsAs.asks {u t : State} {c : Cage} {q : CrsRequest} {address length : Nat} {data : Option (List Byte)}
    (h : EndsAs u t) (mem : q ∈ (u.cage c).requests) (present : (u.line c).present = true)
    (transaction : crsTransaction c q =
      { readRequest (.crs q false) c address length with writeData := data }) : t.asks c q address length data := by
  cases slot : u.crsSlot c with
  | some r => exact .inl (by rw [((h.requests c).full r slot).1]; exact mem)
  | none =>
    cases list : (u.cage c).requests with
    | nil => rw [list] at mem; cases mem
    | cons p rest =>
      obtain ⟨left, held⟩ := (h.requests c).handed p rest slot list present
      rw [list] at mem
      rcases List.mem_cons.1 mem with rfl | mem
      · exact .inr (carries_of_slot transaction held)
      · exact .inl (by rw [left]; exact mem)

theorem txDisable_transaction (c : Cage) (value : Byte) (visit : Nat) :
    crsTransaction c ⟨.txDisable, value, visit⟩ =
      { readRequest (.crs ⟨.txDisable, value, visit⟩ false) c 121 1 with writeData := some [value] } := rfl

/-- A cage whose present visit asks for a tx-disable write gets it asked for at the end of the event (R8). -/
theorem EndsAs.asksTx {u t : State} {c : Cage} {value : Byte} (h : EndsAs u t)
    (mem : ⟨.txDisable, value, (u.cage c).visit⟩ ∈ (u.cage c).requests) (present : (u.line c).present = true) :
    t.asksTx c value := by
  have visit : (t.cage c).visit = (u.cage c).visit := by rw [h.same.cages c]
  rw [State.asksTx, visit]
  exact h.asks mem present (txDisable_transaction _ _ _)

theorem enterRelight_asks (c : Cage) (s : State) :
    ⟨.txDisable, 0, ((enterRelight c s).cage c).visit⟩ ∈ ((enterRelight c s).cage c).requests := by
  have settled : ∀ u : State, ⟨.txDisable, 0, ((startSettling c u).cage c).visit⟩ ∈ ((startSettling c u).cage c).requests := by
    intro u
    have cleared : (clearWindows c (wantTx c 0 u)).cage c = (wantTx c 0 u).cage c := cage_congr (by simp) c
    rw [startSettling, cage_updCage, cleared, wantTx_cage]
    exact mem_addRequest _ _
  rw [enterRelight, zeroRetries, cage_updCage]
  exact settled _

/-! ### A reply after the effect of a request (R164) -/

/-- A REPLY handed over after an effect waits at the end of the event. -/
theorem replyWaits_of_room {u t : State} {r : Request} {result : Result} {data : List Byte} (room : u.bus.makesRoom)
    (ends : EndsAs (answer r result data u) t) : t.replyWaits r.code result data :=
  ends.keepsFrame rfl (mem_place_new room)

/-- A REPLY handed over after an effect on one cage moves the service unit and the transmit queue beside. -/
theorem answer_onlyCage {c : Cage} {s u : State} (only : OnlyCage c s u) (r : Request) (result : Result)
    (data : List Byte) : OnlyCage c (s.replying r) (answer r result data u) :=
  { only with
    bus := by
      have placed : (answer r result data u).bus = u.bus.place (newFrame 16 (.reply r.code (byteOf result.code) data)) :=
        rfl
      rw [placed, place_bus, only.bus]
      rfl
    service := by
      show ({ u.service with phase := .replying, request := some r } : ServiceUnit) = _
      rw [only.service]
      rfl }

theorem enterRelight_line (c : Cage) (s : State) : ((enterRelight c s).line c).present = (s.line c).present := by
  have settled : ((enterRelight c s).line c) = ((moveCage c .relight .none s).line c) := line_congr (by simp [enterRelight]) c
  rw [settled]
  exact (moveCage_inputs c .relight .none s).1

/-! ### CLEAR-PENALTY and SET-CEILING -/

theorem zeroPenalty_penalty (c : Cage) (s : State) : (zeroPenalty c s).penalty c =
    ⟨0, (s.penalty c).lastModule.map (fun m => { m with stored := 0 })⟩ := penalty_updPenalty s c _

theorem carryOut_clearPenalty (c : Cage) (s : State) : carryOut ⟨cageCode c 7, []⟩ s =
    answer ⟨cageCode c 7, []⟩ .done [byteOf ((clearPenaltyOf c s).cage c).state.code] (clearPenaltyOf c s) := by
  have code := codeNo_cageCode c (code := 7) (by omega) []
  simp only [carryOut, code, cage_cageCode c (code := 7) (by omega)]
  rfl

theorem carryOut_setCeiling (v : Byte) (s : State) : carryOut ⟨8, [v]⟩ s =
    answer ⟨8, [v]⟩ .done [byteOf (min 32 v.toNat)]
      (dueTest (s.updClaims (fun k => { k with ceiling := min 32 v.toNat }))) := rfl

theorem clearPenalty_served (c : Cage) (s : State) (serves : s.serves) (heard : s.startup.runState ≠ .listening)
    (short : s.bus.txQueue.length < 7) :
    let q : Request := ⟨byteOf (c.val * 16 + 7), []⟩
    ∃ t, exec (.clearPenalty c) s = .next t ∧ OnlyCage c (s.replying q) t ∧
      t.penalty c = ⟨0, (s.penalty c).lastModule.map (fun m => { m with stored := 0 })⟩ ∧
      t.events = s.events ∧
      ((s.cage c).state = .holdDown → (t.cage c).state = .relight ∧
        (t.cage c).wantedTx = some 0 ∧ (t.cage c).trainRetries = 0 ∧
        (t.cage c).timers = { noTimers with settle := some s.conf.settleTimeout } ∧
        ((s.line c).present = true → t.asksTx c 0) ∧
        t.replyWaits q.code .done [byteOf 11]) ∧
      ((s.cage c).state ≠ .holdDown →
        t.cage c = { s.cage c with requests := (t.cage c).requests } ∧
        t.replyWaits q.code .done [byteOf (s.cage c).state.code] ∧
        EndsAs { (s.replying q).updBus (fun b => { b with txQueue := b.txQueue ++
          [newFrame 16 (.reply q.code 0 [byteOf (s.cage c).state.code])] }) with
          penalties := t.penalties } t) := by
  intro q
  obtain ⟨t, next, ends⟩ := carriesOut (i := .clearPenalty c) (q := q) serves rfl
    (judge_bare c (code := 7) (by omega) heard)
  rw [show q = ⟨cageCode c 7, []⟩ from rfl, carryOut_clearPenalty, ← show q = ⟨cageCode c 7, []⟩ from rfl] at ends
  have only := answer_onlyCage (clearPenaltyOf_onlyCage c s) q .done [byteOf ((clearPenaltyOf c s).cage c).state.code]
  refine ⟨t, next, ends.onlyCage only, ?_⟩
  by_cases state : (s.cage c).state = .holdDown
  · have effect : clearPenaltyOf c s = enterRelight c (zeroPenalty c s) := if_pos state
    have shows_ := enterRelight_shows (s := zeroPenalty c s) (c := c) ⟨rfl, rfl⟩
    have room : (enterRelight c (zeroPenalty c s)).bus.makesRoom := by
      have bus : (enterRelight c (zeroPenalty c s)).bus = (moveCage c .relight .none (zeroPenalty c s)).bus := by
        simp [enterRelight]
      rw [bus]
      exact moveCage_makesRoom short (by rw [show ((zeroPenalty c s).cage c).state = _ from state]; nofun)
    have asks := enterRelight_asks c (zeroPenalty c s)
    have line := enterRelight_line c (zeroPenalty c s)
    have penalties : (enterRelight c (zeroPenalty c s)).penalties = (zeroPenalty c s).penalties := by simp
    have events : (enterRelight c (zeroPenalty c s)).events = s.events := by simp
    rw [effect] at ends
    have reply : ((enterRelight c (zeroPenalty c s)).cage c).state = .relight := shows_.1.state
    rw [reply] at ends
    generalize enterRelight c (zeroPenalty c s) = u at *
    have is : t.recordIs c _ := ends.recordIs (k := (s.cage c).inRelight s.conf) shows_.1
    refine ⟨?_, ends.same.events.trans events, fun _ => ?_, fun other => absurd state other⟩
    · rw [ends.penalty, ← zeroPenalty_penalty]
      exact penalty_congr penalties c
    · refine ⟨by rw [is]; rfl, by rw [is]; rfl, by rw [is]; rfl, by rw [is]; rfl, fun present => ?_,
        replyWaits_of_room room ends⟩
      exact ends.asksTx asks (line.trans present)
  · have effect : clearPenaltyOf c s = zeroPenalty c s := if_neg state
    rw [effect, answer_eq (s := zeroPenalty c s) serves.room] at ends
    refine ⟨?_, ends.same.events, fun held => absurd held state, fun _ => ⟨ends.same.cages c, ?_, ?_⟩⟩
    · rw [ends.penalty, ← zeroPenalty_penalty]
      rfl
    · exact replyWaits_of_answered ends
    · rw [ends.same.penalties]
      exact ends

theorem setCeiling_served (v : Byte) (s : State) (serves : s.serves) (heard : s.startup.runState ≠ .listening) :
    ∃ t, exec (.setCeiling v) s = .next t ∧ t.claims.ceiling = min 32 v.toNat ∧
      t.replyWaits 8 .done [byteOf (min 32 v.toNat)] ∧
      EndsAs (dueTest (((s.replying ⟨8, [v]⟩).updClaims
        (fun k => { k with ceiling := min 32 v.toNat })).updBus (fun b => { b with
        txQueue := b.txQueue ++ [newFrame 16 (.reply 8 0 [byteOf (min 32 v.toNat)])] }))) t ∧
      ∀ k : Cage, t.mostUrgent k → ¬ t.admits k := by
  obtain ⟨t, next, ends⟩ := carriesOut (i := .setCeiling v) (q := ⟨8, [v]⟩) serves rfl
    (judge_passes (show 8 % 16 < 12 by omega) rfl rfl heard)
  rw [carryOut_setCeiling, answer_eq (s := dueTest (s.updClaims _)) serves.room] at ends
  refine ⟨t, next, ?_, replyWaits_of_answered ends, ends, ends.noneAdmitted rfl⟩
  rw [ends.same.claimUnit]
  rfl

/-- Settles O50: by the state of the cage, and by the ceiling that the request sets. -/
theorem penaltyAndCeilingRequests : Obligations.PenaltyAndCeilingRequests :=
  ⟨clearPenalty_served, setCeiling_served⟩

end Sys2Proof.Machine
end

section
/-! PROOF. The pass-through requests MODULE-READ and MODULE-WRITE at their presentation (R119, R130, R170). -/

namespace Sys2Proof.Machine

/-! ### The checks of a pass-through request (R163) -/

theorem judge_moduleRead (c : Cage) (address count : Byte) {run : RunState} (heard : run ≠ .listening)
    (some : 1 ≤ count.toNat) (few : count.toNat ≤ 6) (inside : address.toNat + count.toNat ≤ 256) :
    Request.judge run ⟨cageCode c 9, [address, count]⟩ = none := by
  have known := codeNo_cageCode c (code := 9) (by omega) [address, count]
  refine judge_passes (by omega) ?_ ?_ heard
  · rw [Request.countGood, known]
    rfl
  · have fits : address.toNat + count.toNat - 1 ≤ 255 := by omega
    rw [Request.rangeGood, known]
    simp [Request.arg, byteAt, some, few, fits]

theorem judge_moduleWrite (c : Cage) (address : Byte) (data : List Byte) {run : RunState} (heard : run ≠ .listening)
    (some : 1 ≤ data.length) (few : data.length ≤ 4) (inside : address.toNat + data.length ≤ 256) :
    Request.judge run ⟨cageCode c 10, address :: data⟩ = none := by
  have known := codeNo_cageCode c (code := 10) (by omega) (address :: data)
  refine judge_passes (by omega) ?_ ?_ heard
  · rw [Request.countGood, known]
    simp only [List.length_cons, Bool.and_eq_true, decide_eq_true_eq]
    omega
  · have fits : address.toNat + data.length - 1 ≤ 255 := by omega
    rw [Request.rangeGood, known]
    simp [Request.arg, byteAt, fits]

theorem carryOut_moduleRead (c : Cage) (address count : Byte) (s : State) :
    carryOut ⟨cageCode c 9, [address, count]⟩ s =
      presentPassThrough ⟨cageCode c 9, [address, count]⟩ (readRequest .passThrough c address.toNat count.toNat) s := by
  have code := codeNo_cageCode c (code := 9) (by omega) [address, count]
  simp only [carryOut, code, cage_cageCode c (code := 9) (by omega)]
  rfl

theorem carryOut_moduleWrite (c : Cage) (address : Byte) (data : List Byte) (s : State) :
    carryOut ⟨cageCode c 10, address :: data⟩ s = serveWrite ⟨cageCode c 10, address :: data⟩ s := by
  have code := codeNo_cageCode c (code := 10) (by omega) (address :: data)
  simp only [carryOut, code]

/-! ### A pass-through presented (R119, R170) -/

/-- A request put in an empty slot is there at the end of the event, whether its first chunk has been granted or not. -/
theorem EndsAs.passThrough_held {u t : State} {g : Seg} {r : LinkRequest} (h : EndsAs u t)
    (held : (u.link g).passThrough = some r) :
    (t.link g).passThrough = some r ∨ (t.link g).passThrough = some r.grant := by
  rcases (h.segments g).pass with same | ⟨_, granted⟩
  · exact .inl (same.trans held)
  · exact .inr (by rw [granted, held]; rfl)

theorem presented_present {r : Request} {l : LinkRequest} {s t : State} (present : (s.line l.cage).present = true)
    (ends : EndsAs (presentPassThrough r l s) t) :
    t.service = { s.service with phase := .carrying, request := some r } ∧
    ((t.link (segOf l.cage)).passThrough = some l ∨ (t.link (segOf l.cage)).passThrough = some l.grant) := by
  rw [presentPassThrough, if_pos present] at ends
  refine ⟨ends.same.service, ends.passThrough_held ?_⟩
  show ((putRequest (segOf l.cage) .passThrough l s).link (segOf l.cage)).passThrough = some l
  rw [putRequest, link_updLink]
  rfl

/-- An answer leaves nothing but the service unit and the transmit queue, beside the work of the event. -/
theorem answered_work {u t : State} {r : Request} {result : Result} {data : List Byte}
    (ends : EndsAs (u.answered r result data) t) : SameOutsideWork (u.replying r) t := by
  refine SameOutsideWork.trans ?_ ends.same
  exact { SameOutsideWork.refl (u.replying r) with bus := rfl }

theorem presented_absent {r : Request} {l : LinkRequest} {s t : State} (absent : (s.line l.cage).present = false)
    (room : s.bus.txQueue.length < 8) (ends : EndsAs (presentPassThrough r l s) t) :
    t.replyWaits r.code .absent [] ∧ SameOutsideWork (s.replying r) t := by
  rw [presentPassThrough, if_neg (by rw [absent]; nofun), answer_eq room] at ends
  exact ⟨replyWaits_of_answered ends, answered_work ends⟩

/-- The arbiter refuses a write that covers address 120 or 121 outside FAULTED and MANUAL-HOLD (R130). -/
theorem refusesWrite_iff (s : State) (c : Cage) (address length : Nat) : s.refusesWrite c address length = true ↔
    (address ≤ 121 ∧ 120 < address + length) ∧ ¬ ((s.cage c).state = .faulted ∨ (s.cage c).state = .manualHold) := by
  rw [State.refusesWrite, Bool.and_eq_true, coversControl, Bool.and_eq_true, decide_eq_true_eq, decide_eq_true_eq]
  cases (s.cage c).state <;> simp

theorem serveWrite_presents {c : Cage} {address : Byte} {data : List Byte} {s : State}
    (allowed : s.refusesWrite c address.toNat data.length = false) :
    serveWrite ⟨cageCode c 10, address :: data⟩ s = presentPassThrough ⟨cageCode c 10, address :: data⟩
      (writeRequest .passThrough c address.toNat data) s := by
  have cage := cage_cageCode c (code := 10) (by omega) (address :: data)
  rw [serveWrite, cage]
  exact if_neg (by rw [show Request.arg ⟨cageCode c 10, address :: data⟩ 0 = address.toNat from rfl]; simp [allowed])

theorem serveWrite_refused {c : Cage} {address : Byte} {data : List Byte} {s : State}
    (refused : s.refusesWrite c address.toNat data.length = true) (present : (s.line c).present = true) :
    serveWrite ⟨cageCode c 10, address :: data⟩ s = answer ⟨cageCode c 10, address :: data⟩ .wrongState [] s := by
  have cage := cage_cageCode c (code := 10) (by omega) (address :: data)
  rw [serveWrite, cage]
  exact (if_pos refused).trans (if_pos (by rw [present]; rfl))

/-- Settles O51: a read by the presence of its module, a write by the check of R130 as well. -/
theorem passThroughPresented : Obligations.PassThroughPresented := by
  intro c address s serves heard empty
  refine ⟨fun count some few inside => ?_, fun data some few inside => ?_⟩
  · obtain ⟨t, next, ends⟩ := carriesOut (i := .moduleRead c address count) serves rfl
      (judge_moduleRead c address count heard some few inside)
    rw [show (⟨byteOf (c.val * 16 + 9), [address, count]⟩ : Request) = ⟨cageCode c 9, [address, count]⟩ from rfl,
      carryOut_moduleRead] at ends
    refine ⟨t, next, fun present => ?_, fun absent => presented_absent absent serves.room ends⟩
    obtain ⟨service, held⟩ := presented_present present ends
    refine ⟨service, ?_⟩
    rcases held with held | held <;> exact ⟨_, held, rfl, rfl, rfl, rfl⟩
  · intro covers free
    obtain ⟨t, next, ends⟩ := carriesOut (i := .moduleWrite c address data) serves rfl
      (judge_moduleWrite c address data heard some few inside)
    rw [show (⟨byteOf (c.val * 16 + 10), address :: data⟩ : Request) = ⟨cageCode c 10, address :: data⟩ from rfl,
      carryOut_moduleWrite] at ends
    have refuses := refusesWrite_iff s c address.toNat data.length
    have presents : (¬ covers ∨ free) → EndsAs (presentPassThrough ⟨cageCode c 10, address :: data⟩
        (writeRequest .passThrough c address.toNat data) s) t := fun allowed => by
      rwa [serveWrite_presents] at ends
      rw [← Bool.not_eq_true, refuses]
      exact fun ⟨is, not⟩ => allowed.elim (fun h => h is) not
    refine ⟨t, next, fun present allowed => ?_, fun present is not => ?_, fun absent allowed =>
      presented_absent absent serves.room (presents allowed)⟩
    · obtain ⟨service, held⟩ := presented_present present (presents allowed)
      refine ⟨service, ?_⟩
      rcases held with held | held <;> exact ⟨_, held, rfl, rfl, rfl, rfl⟩
    · rw [serveWrite_refused (refuses.2 ⟨is, not⟩) present, answer_eq serves.room] at ends
      exact ⟨replyWaits_of_answered ends, answered_work ends⟩

end Sys2Proof.Machine
end

section
/-! PROOF. The requests HOLD, UNHOLD and RETRY (R33 to R35, R168). -/

namespace Sys2Proof.Machine

/-! ### IDENTIFY entered (R14) -/

/-- The record with which a cage enters IDENTIFY: no identity record, no read counted, and the init wait, which needs the
source SEQUENCER in force. -/
def State.identifyRecord (s : State) (c : Cage) : CageRecord :=
  { s.cage c with
    state := .identify,
    timers := if (s.line c).source = .held then noTimers
              else { noTimers with initWait := some 2000, initStart := s.openChoices },
    cause := .none, identity := none, identReads := 0, linkFails := 0, visit := (s.cage c).visit + 1 }

theorem enterIdentify_took (c : Cage) (s : State) : tookSource .sequencer (s.line c) ((enterIdentify c s).line c) :=
  moveCage_took (new := .identify) rfl .none s

theorem enterIdentify_record (c : Cage) (s : State) : (enterIdentify c s).recordIs c (s.identifyRecord c) := by
  have released : s.releasedAfter c .identify .none = !decide ((s.line c).source = .held) := by
    rw [State.releasedAfter, (moveCage_took (new := .identify) rfl .none s).2]
    by_cases held : (s.line c).source = .held <;> simp [held, NamedSource.source]
  have record := moveCage_record c .identify .none s
  rw [released] at record
  rw [State.recordIs, enterIdentify, cage_updCage, record, State.identifyRecord]
  by_cases held : (s.line c).source = .held <;> simp only [held, decide_true, decide_false, if_true, if_false] <;> rfl

/-! ### The effects of the three requests -/

theorem holdCage_unmoved {c : Cage} {s : State} :
    ((s.cage c).state = .manualHold → holdCage c s = (.done, s)) ∧
    ((s.cage c).state = .disabled ∨ (s.cage c).state = .adopt → holdCage c s = (.wrongState, s)) := by
  refine ⟨fun state => by rw [holdCage, state], fun state => ?_⟩
  rcases state with state | state <;> rw [holdCage, state]

theorem holdCage_moves {c : Cage} {s : State} (enabled : (s.cage c).state ≠ .disabled) (known : (s.cage c).state ≠ .adopt)
    (free : (s.cage c).state ≠ .manualHold) : holdCage c s =
      (.done, moveCage c .manualHold .none (handRecord c .manual (s.cage c).state none s)) := by
  unfold holdCage
  split
  · contradiction
  · contradiction
  · contradiction
  · rfl

/-- The state with the MANUAL record and the training retry count at 0, with which a cage leaves MANUAL-HOLD or FAULTED. -/
def freed (c : Cage) (before : CageState) (s : State) : State := zeroRetries c (handRecord c .manual before none s)

theorem freed_cage (c : Cage) (before : CageState) (s : State) :
    (freed c before s).cage c = { s.cage c with trainRetries := 0 } := cage_updCage _ _ _

theorem freed_onlyCage (c : Cage) (before : CageState) (s : State) : OnlyCage c s (freed c before s) :=
  (handRecord_onlyCage c _ _ _ s).trans (zeroRetries_onlyCage c _)

theorem recorded_freed (c : Cage) (before : CageState) (s : State) :
    recorded s (freed c before s) c .manual before none (s.penalty c).value := recorded_handRecord c .manual before none s

theorem unholdCage_present {c : Cage} {s : State} (state : (s.cage c).state = .manualHold)
    (present : (s.line c).present = true) : unholdCage c s = (.done, enterIdentify c (freed c .manualHold s)) := by
  rw [unholdCage, state]
  exact if_pos present

theorem unholdCage_absent {c : Cage} {s : State} (state : (s.cage c).state = .manualHold)
    (absent : (s.line c).present = false) : unholdCage c s = (.done,
      (moveCage c .vacant .none (freed c .manualHold s)).updCage c (fun k => { k with identity := none })) := by
  rw [unholdCage, state]
  exact if_neg (by rw [show ((zeroRetries c (handRecord c .manual .manualHold none s)).line c).present = _ from absent]; nofun)

theorem unholdCage_unmoved {c : Cage} {s : State} (state : (s.cage c).state ≠ .manualHold) :
    unholdCage c s = (.wrongState, s) := by
  unfold unholdCage
  split
  · contradiction
  · rfl

theorem retryCage_moves {c : Cage} {s : State} (state : (s.cage c).state = .faulted) :
    retryCage c s = (.done, enterIdentify c (freed c .faulted s)) := by
  rw [retryCage, state]
  rfl

theorem retryCage_unmoved {c : Cage} {s : State} (state : (s.cage c).state ≠ .faulted) :
    retryCage c s = (.wrongState, s) := by
  unfold retryCage
  split
  · contradiction
  · rfl

/-! ### The three rows (R168) -/

theorem carryOut_hold (c : Cage) (s : State) :
    carryOut ⟨cageCode c 4, []⟩ s = answerCage ⟨cageCode c 4, []⟩ c (holdCage c s) := by
  have code := codeNo_cageCode c (code := 4) (by omega) []
  simp only [carryOut, code, cage_cageCode c (code := 4) (by omega)]

theorem carryOut_unhold (c : Cage) (s : State) :
    carryOut ⟨cageCode c 5, []⟩ s = answerCage ⟨cageCode c 5, []⟩ c (unholdCage c s) := by
  have code := codeNo_cageCode c (code := 5) (by omega) []
  simp only [carryOut, code, cage_cageCode c (code := 5) (by omega)]

theorem carryOut_retry (c : Cage) (s : State) :
    carryOut ⟨cageCode c 6, []⟩ s = answerCage ⟨cageCode c 6, []⟩ c (retryCage c s) := by
  have code := codeNo_cageCode c (code := 6) (by omega) []
  simp only [carryOut, code, cage_cageCode c (code := 6) (by omega)]

/-- What a request that moves its cage leaves at the end of the event, from what its effect leaves (R168). -/
structure CageServed (c : Cage) (q : Request) (s u t : State) : Prop where
  only    : OnlyCage c (s.replying q) t
  reply   : t.replyWaits q.code .done [byteOf (u.cage c).state.code]
  cage    : t.cage c = { u.cage c with requests := (t.cage c).requests }
  emptied : (u.cage c).requests = [] → t.cage c = u.cage c
  line    : t.line c = u.line c
  penalty : t.penalty c = u.penalty c
  events  : t.events = u.events

theorem cageServed {c : Cage} {q : Request} {s u t : State} (only : OnlyCage c s u) (room : u.bus.makesRoom)
    (ends : EndsAs (answerCage q c (.done, u)) t) : CageServed c q s u t where
  only := ends.onlyCage (answer_onlyCage only q .done _)
  reply := replyWaits_of_room room ends
  cage := ends.same.cages c
  emptied := fun empty => ends.cage_eq empty
  line := ends.line c
  penalty := ends.penalty c
  events := ends.same.events

theorem answerCage_unmoved {c : Cage} {q : Request} {result : Result} {s t : State} (room : s.bus.txQueue.length < 8)
    (ends : EndsAs (answerCage q c (result, s)) t) :
    t.replyWaits q.code result [byteOf (s.cage c).state.code] ∧
      EndsAs (s.answered q result [byteOf (s.cage c).state.code]) t := by
  rw [answerCage, answer_eq room] at ends
  exact ⟨replyWaits_of_answered ends, ends⟩

theorem outputs_forced {s : State} {c : Cage} {l : CageLines} (took : tookSource .forced l (s.line c)) :
    s.outputs c = ⟨true, true, false⟩ := by
  rw [State.outputs, outputLevels, took.2]
  by_cases held : l.source = .held
  · rw [if_pos held]; rfl
  · rw [if_neg held]; rfl

theorem enterIdentify_makesRoom {c : Cage} {s : State} (short : s.bus.txQueue.length < 7)
    (moves : (s.cage c).state ≠ .identify) : (enterIdentify c s).bus.makesRoom :=
  moveCage_makesRoom short (Ne.symm moves)

/-- Settles O49: each request by the state of the cage, UNHOLD by the presence of its module as well. -/
theorem holdUnholdRetry : Obligations.HoldUnholdRetry := by
  intro c s serves heard short n hold unhold retry only
  refine ⟨?_, ?_, ?_⟩
  · obtain ⟨t, next, ends⟩ := carriesOut (i := .hold c) (q := hold) serves rfl (judge_bare c (code := 4) (by omega) heard)
    rw [show hold = ⟨cageCode c 4, []⟩ from rfl, carryOut_hold, ← show hold = ⟨cageCode c 4, []⟩ from rfl] at ends
    refine ⟨t, next, fun enabled known free => ?_, fun held => ?_, fun wrong => ?_⟩
    · let u := moveCage c .manualHold .none (handRecord c .manual n none s)
      have moved : holdCage c s = (.done, u) := holdCage_moves enabled known free
      have kept := holdCage_onlyCage c s
      rw [moved] at ends kept
      have room : u.bus.makesRoom := moveCage_makesRoom short (Ne.symm free)
      have cage : u.cage c = { s.cage c with
          state := .manualHold, timers := noTimers, cause := .none, linkFails := 0,
          wantedTx := none, requests := [], visit := (s.cage c).visit + 1 } := moveCage_cage c .manualHold .none _
      have took : tookSource .forced (s.line c) (u.line c) := moveCage_took (new := .manualHold) rfl .none _
      have penalty : u.penalty c = s.penalty c := penalty_congr (moveCage_frame c _ _ _).2.2.2.1 c
      have made : recorded s u c .manual n none (s.penalty c).value :=
        (recorded_handRecord c .manual n none s).congr (moveCage_frame c _ _ _).2.2.2.2.2.1
      have served := cageServed kept room ends
      clear_value u
      have reply := served.reply
      rw [cage] at reply
      refine ⟨served.only, reply, (served.emptied (by rw [cage])).trans cage, ?_, ?_, served.penalty.trans penalty,
        made.congr served.events⟩
      · rw [served.line]; exact took
      · exact outputs_forced (s := t) (by rw [served.line]; exact took)
    · rw [holdCage_unmoved.1 held] at ends
      have unmoved := answerCage_unmoved serves.room ends
      rwa [show (s.cage c).state = .manualHold from held] at unmoved
    · rw [holdCage_unmoved.2 wrong] at ends
      exact answerCage_unmoved serves.room ends
  · obtain ⟨t, next, ends⟩ := carriesOut (i := .unhold c) (q := unhold) serves rfl
      (judge_bare c (code := 5) (by omega) heard)
    rw [show unhold = ⟨cageCode c 5, []⟩ from rfl, carryOut_unhold, ← show unhold = ⟨cageCode c 5, []⟩ from rfl] at ends
    refine ⟨t, next, fun held => ?_, fun other => ?_⟩
    · have kept := unholdCage_onlyCage c s
      have named : ∀ {u : State} {l : CageLines}, t.line c = u.line c → tookSource .sequencer l (u.line c) →
          (t.line c).named = some .sequencer := fun same took => by rw [same]; exact took.1
      cases present : (s.line c).present with
      | true =>
        rw [unholdCage_present held present] at ends kept
        have record := enterIdentify_record c (freed c .manualHold s)
        have took := enterIdentify_took c (freed c .manualHold s)
        have room : (enterIdentify c (freed c .manualHold s)).bus.makesRoom :=
          enterIdentify_makesRoom short (by rw [freed_cage]; exact fun h => nomatch h.symm.trans held)
        have penalty : (enterIdentify c (freed c .manualHold s)).penalty c = s.penalty c :=
          penalty_congr (by simp [freed, zeroRetries]) c
        have made : recorded s (enterIdentify c (freed c .manualHold s)) c .manual .manualHold none (s.penalty c).value :=
          (recorded_freed c .manualHold s).congr (by simp)
        have served := cageServed kept room ends
        generalize enterIdentify c (freed c .manualHold s) = u at *
        have reply := served.reply
        have is : t.recordIs c _ := ends.recordIs (k := (freed c .manualHold s).identifyRecord c) record
        rw [record.state] at reply
        rw [State.recordIs, State.identifyRecord, freed_cage] at is
        refine ⟨served.only, served.penalty.trans penalty, by rw [is], by rw [is], by rw [is], named served.line took,
          made.congr served.events, fun _ => ⟨by rw [is], by rw [is], reply, fun released => ?_⟩, nofun⟩
        rw [is]
        exact if_neg released
      | false =>
        rw [unholdCage_absent held present] at ends kept
        let moved := moveCage c .vacant .none (freed c .manualHold s)
        let u := moved.updCage c (fun k => { k with identity := none })
        have cage : u.cage c = { s.cage c with
            state := .vacant, timers := noTimers, cause := .none, trainRetries := 0, linkFails := 0, identity := none,
            wantedTx := none, requests := [], visit := (s.cage c).visit + 1 } := by
          rw [cage_updCage, moveCage_cage, freed_cage]
          rfl
        have took : tookSource .sequencer (s.line c) (u.line c) := moveCage_took (new := .vacant) rfl .none _
        have room : u.bus.makesRoom := moveCage_makesRoom (s := freed c .manualHold s) short
          (by rw [freed_cage]; exact fun h => nomatch h.trans held)
        have penalty : u.penalty c = s.penalty c := penalty_congr (moveCage_frame c _ _ _).2.2.2.1 c
        have made : recorded s u c .manual .manualHold none (s.penalty c).value :=
          (recorded_freed c .manualHold s).congr (moveCage_frame c _ _ _).2.2.2.2.2.1
        have served := cageServed (u := u) kept room ends
        clear_value u
        have reply := served.reply
        rw [cage] at reply
        have is := served.cage
        rw [cage] at is
        exact ⟨served.only, served.penalty.trans penalty, by rw [is], by rw [is], by rw [is], named served.line took,
          made.congr served.events, nofun, fun _ => ⟨by rw [is], by rw [is], reply⟩⟩
    · rw [unholdCage_unmoved other] at ends
      exact answerCage_unmoved serves.room ends
  · obtain ⟨t, next, ends⟩ := carriesOut (i := .retry c) (q := retry) serves rfl
      (judge_bare c (code := 6) (by omega) heard)
    rw [show retry = ⟨cageCode c 6, []⟩ from rfl, carryOut_retry, ← show retry = ⟨cageCode c 6, []⟩ from rfl] at ends
    refine ⟨t, next, fun faulted => ?_, fun other => ?_⟩
    · have kept := retryCage_onlyCage c s
      rw [retryCage_moves faulted] at ends kept
      have record := enterIdentify_record c (freed c .faulted s)
      have room : (enterIdentify c (freed c .faulted s)).bus.makesRoom :=
        enterIdentify_makesRoom short (by rw [freed_cage]; exact fun h => nomatch h.symm.trans faulted)
      have penalty : (enterIdentify c (freed c .faulted s)).penalty c = s.penalty c := penalty_congr (by simp [freed, zeroRetries]) c
      have made : recorded s (enterIdentify c (freed c .faulted s)) c .manual .faulted none (s.penalty c).value :=
        (recorded_freed c .faulted s).congr (by simp)
      have served := cageServed kept room ends
      generalize enterIdentify c (freed c .faulted s) = u at *
      have reply := served.reply
      have is : t.recordIs c _ := ends.recordIs (k := (freed c .faulted s).identifyRecord c) record
      rw [record.state] at reply
      rw [State.recordIs, State.identifyRecord, freed_cage] at is
      refine ⟨served.only, reply, by rw [is], by rw [is], by rw [is], by rw [is], by rw [is], by rw [is],
        served.penalty.trans penalty, made.congr served.events⟩
    · rw [retryCage_unmoved other] at ends
      exact answerCage_unmoved serves.room ends

end Sys2Proof.Machine
end

section
/-! PROOF. A request is served without a look at the service unit's phase and at the request it held before
(R162 to R171). -/

namespace Sys2Proof.Machine

/-- The state with another service unit. -/
def State.withService (u : ServiceUnit) (s : State) : State := { s with service := u }

section
variable {u : ServiceUnit} {s : State} {c : Cage}

@[simp] theorem withService_claim : (s.withService u).claim c = s.claim c := rfl
@[simp] theorem withService_cage : (s.withService u).cage c = s.cage c := rfl
@[simp] theorem withService_line : (s.withService u).line c = s.line c := rfl
@[simp] theorem withService_penalty : (s.withService u).penalty c = s.penalty c := rfl
@[simp] theorem withService_crsSlot : (s.withService u).crsSlot c = s.crsSlot c := rfl
@[simp] theorem withService_underScan : (s.withService u).underScan c = s.underScan c := rfl

/-! ### The operations of a cage's move, which do not see the service unit -/

theorem abandonIntent_withService (e : OwnIntent) :
    abandonIntent e (s.withService u) = (abandonIntent e s).withService u := by
  unfold abandonIntent
  rw [apply_ite (State.withService u)]
  rfl

theorem releaseClaim_withService : releaseClaim c (s.withService u) = (releaseClaim c s).withService u := rfl

theorem disposeClaim_withService : disposeClaim c (s.withService u) = (disposeClaim c s).withService u := by
  have table : (s.withService u).claims = s.claims := rfl
  cases held : (s.claim c).state
  case none | confirmed => simp only [disposeClaim, withService_claim, held, releaseClaim_withService]
  all_goals
    simp only [disposeClaim, withService_claim, held, table]
    cases s.claims.intents.find? (fun e => decide (e.cage = c)) with
    | none => rfl
    | some e => exact abandonIntent_withService e

theorem claimHandOff_withService (old new : CageState) :
    claimHandOff c old new (s.withService u) = (claimHandOff c old new s).withService u := by
  have leave : disposeClaim c (leaveList c (s.withService u)) = (disposeClaim c (leaveList c s)).withService u :=
    disposeClaim_withService (s := leaveList c s)
  unfold claimHandOff
  split
  case h_1 | h_2 | h_4 | h_5 => rfl
  case h_3 => exact leave
  case h_6 | h_7 => exact disposeClaim_withService
  case h_8 =>
    simp only [withService_cage]
    cases (s.cage c).identity <;> rfl
  case h_9 => rfl

theorem discardScan_withService (g : Seg) : discardScan g (s.withService u) = (discardScan g s).withService u := by
  have slot : (s.withService u).link g = s.link g := rfl
  simp only [discardScan, slot]
  cases (s.link g).scanner with
  | none => rfl
  | some r =>
    simp only [apply_ite (State.withService u)]
    rfl

theorem dropScanOf_withService : dropScanOf c (s.withService u) = (dropScanOf c s).withService u := by
  simp only [dropScanOf, withService_underScan, discardScan_withService]
  exact (apply_ite (State.withService u) _ _ _).symm

theorem emptyRequests_withService : emptyRequests c (s.withService u) = (emptyRequests c s).withService u := by
  have slot : ∀ f : CageRecord → CageRecord, (s.updCage c f).crsSlot c = s.crsSlot c := fun _ => rfl
  have same : (s.withService u).updCage c (fun k => { k with requests := [] }) =
    (s.updCage c (fun k => { k with requests := [] })).withService u := rfl
  simp only [emptyRequests, withdrawCrs, same, withService_crsSlot, slot]
  cases s.crsSlot c with
  | none => rfl
  | some r =>
    simp only [apply_ite (State.withService u)]
    rfl

theorem nameSource_withService (st : CageState) :
    nameSource c st (s.withService u) = (nameSource c st s).withService u := by
  unfold nameSource
  cases st.names <;> rfl

theorem moveCage_withService (new : CageState) (cause : FaultCause) :
    moveCage c new cause (s.withService u) = (moveCage c new cause s).withService u := by
  have record : ∀ (v : State), (v.withService u).updCage c (CageRecord.move new cause
      (entryTimers (v.withService u).conf ((v.withService u).underSequencer c) (v.withService u).openChoices new)) =
      (v.updCage c (CageRecord.move new cause
        (entryTimers v.conf (v.underSequencer c) v.openChoices new))).withService u := fun _ => rfl
  have sample : ∀ (v : State), (v.withService u).updScan c CageScan.vacated =
      (v.updScan c CageScan.vacated).withService u := fun _ => rfl
  have report : ∀ (v : State), handReport c (v.withService u) = (handReport c v).withService u := fun _ => rfl
  simp only [moveCage, withService_cage, claimHandOff_withService, dropScanOf_withService, emptyRequests_withService,
    nameSource_withService, record, sample, report, ← apply_ite (State.withService u)]

/-! ### The requests against a cage (R33 to R36) -/

theorem enterIdentify_withService : enterIdentify c (s.withService u) = (enterIdentify c s).withService u :=
  congrArg (fun v : State => v.updCage c (fun k => { k with identity := none, identReads := 0 }))
    (moveCage_withService .identify .none)

theorem enterRelight_withService : enterRelight c (s.withService u) = (enterRelight c s).withService u := by
  have windows : ∀ v : State, clearWindows c (wantTx c 0 (v.withService u)) =
      (clearWindows c (wantTx c 0 v)).withService u := fun v =>
    dropScanOf_withService (s := (wantTx c 0 v).updScan c CageScan.clearWindows)
  rw [enterRelight, startSettling, moveCage_withService, windows]
  rfl

theorem holdCage_withService : holdCage c (s.withService u) = ((holdCage c s).1, (holdCage c s).2.withService u) := by
  have record : ∀ old, handRecord c .manual old none (s.withService u) =
      (handRecord c .manual old none s).withService u := fun _ => rfl
  unfold holdCage
  rw [withService_cage]
  split
  case h_1 | h_2 | h_3 => rfl
  case h_4 => rw [record, moveCage_withService]

theorem unholdCage_withService : unholdCage c (s.withService u) = ((unholdCage c s).1, (unholdCage c s).2.withService u) := by
  have begun : zeroRetries c (handRecord c .manual .manualHold none (s.withService u)) =
      (zeroRetries c (handRecord c .manual .manualHold none s)).withService u := rfl
  unfold unholdCage
  rw [withService_cage]
  split
  · simp only [begun, withService_line, enterIdentify_withService, moveCage_withService]
    split <;> rfl
  · rfl

theorem retryCage_withService : retryCage c (s.withService u) = ((retryCage c s).1, (retryCage c s).2.withService u) := by
  have begun : zeroRetries c (handRecord c .manual .faulted none (s.withService u)) =
      (zeroRetries c (handRecord c .manual .faulted none s)).withService u := rfl
  unfold retryCage
  rw [withService_cage]
  split
  · rw [begun, enterIdentify_withService]
  · rfl

theorem clearPenaltyOf_withService : clearPenaltyOf c (s.withService u) = (clearPenaltyOf c s).withService u := by
  have begun : zeroPenalty c (s.withService u) = (zeroPenalty c s).withService u := rfl
  simp only [clearPenaltyOf, begun, withService_cage, enterRelight_withService]
  exact (apply_ite (State.withService u) _ _ _).symm

/-! ### A request served (R162 to R171) -/

theorem setService_withService {phase : ServicePhase} {request : Option Request}
    (timer : u.restartTimer = s.service.restartTimer) :
    setService phase request (s.withService u) = setService phase request s := by
  simp only [setService, State.withService, timer]

theorem answer_withService {r : Request} {result : Result} {data : List Byte}
    (timer : u.restartTimer = s.service.restartTimer) :
    answer r result data (s.withService u) = answer r result data s :=
  setService_withService (s := queueFrame 16 (.reply r.code (byteOf result.code) data) s) timer

theorem answerCage_withService {r : Request} {outcome : Result × State}
    (timer : u.restartTimer = outcome.2.service.restartTimer) :
    answerCage r c (outcome.1, outcome.2.withService u) = answerCage r c outcome := answer_withService timer

end

theorem presentPassThrough_withService {u : ServiceUnit} {s : State} {r : Request} {t : LinkRequest}
    (timer : u.restartTimer = s.service.restartTimer) :
    presentPassThrough r t (s.withService u) = presentPassThrough r t s := by
  unfold presentPassThrough
  rw [withService_line, answer_withService timer]
  split
  · exact setService_withService (s := putRequest (segOf t.cage) .passThrough t s) timer
  · rfl

theorem serveWrite_withService {u : ServiceUnit} {s : State} {r : Request}
    (timer : u.restartTimer = s.service.restartTimer) :
    serveWrite r (s.withService u) = serveWrite r s := by
  have refused : ∀ d a l, (s.withService u).refusesWrite d a l = s.refusesWrite d a l := fun _ _ _ => rfl
  have choices : (s.withService u).openChoices = s.openChoices := rfl
  simp only [serveWrite, refused, choices, withService_line, answer_withService timer,
    presentPassThrough_withService timer]

/-- The service of a request does not depend on the phase in which the service unit takes it. -/
theorem serveRequest_withService {u : ServiceUnit} {s : State} (r : Request)
    (timer : u.restartTimer = s.service.restartTimer) : serveRequest r (s.withService u) = serveRequest r s := by
  have run : (s.withService u).startup.runState = s.startup.runState := rfl
  unfold serveRequest
  rw [run]
  split
  · exact answer_withService timer
  unfold carryOut
  split
  case h_1 | h_2 | h_3 => exact answer_withService timer
  case h_4 => 
    unfold serveHealth
    split
    · exact answer_withService (s := s.updBus (BusUnit.noteError .none)) timer
    · exact answer_withService timer
  case h_5 => rw [holdCage_withService, answerCage_withService (by rw [holdCage_service, timer])]
  case h_6 => rw [unholdCage_withService, answerCage_withService (by rw [unholdCage_service, timer])]
  case h_7 => rw [retryCage_withService, answerCage_withService (by rw [retryCage_service, timer])]
  case h_8 =>
    rw [clearPenaltyOf_withService]
    exact answerCage_withService (outcome := (_, clearPenaltyOf r.cage s)) (by rw [clearPenaltyOf_service, timer])
  case h_9 =>
    exact answer_withService (s := dueTest (s.updClaims (fun k => { k with ceiling := min 32 (r.arg 0) }))) timer
  case h_10 => exact presentPassThrough_withService timer
  case h_11 => exact serveWrite_withService timer
  case h_12 =>
    unfold serveRestart
    rw [answer_withService timer]

end Sys2Proof.Machine
end

section
/-! PROOF. The good receipt of a frame (R41, R54, R74, R78, R87, R93, R96, R97, R162). -/

namespace Sys2Proof.Machine

/-! ### The counts after a good receipt -/

theorem txGood_drives {b : BusUnit} (h : b.health = .active ∨ b.health = .cautious) :
    b.txGood = { b with txErrors := b.txErrors - 1 } := if_pos (counts_of_drives h)

/-- The health after a good receipt (R97). -/
def State.healthSent (s : State) : BusHealth :=
  if 64 ≤ s.bus.txErrors - 1 ∨ 64 ≤ s.bus.rxErrors then .cautious else .active

theorem healthSent_drives (s : State) : s.healthSent = .active ∨ s.healthSent = .cautious := by
  unfold State.healthSent
  split
  · exact .inr rfl
  · exact .inl rfl

/-- The bus after a frame has left with a good receipt (R78, R96, R97). -/
def State.afterSent (s : State) (i : Nat) (f : TxFrame) : State :=
  s.updBus (fun b => { b with
    txErrors := b.txErrors - 1, health := s.healthSent,
    txQueue := b.txQueue.eraseIdx i ++ renewal b.statusRenew f,
    statusRenew := if f.body.isStatus then false else b.statusRenew,
    afterRestart := if f.body.isStatus then false else b.afterRestart })

theorem judgeHealth_sent {s : State} {i : Nat} {f : TxFrame} (drives : s.bus.health = .active ∨ s.bus.health = .cautious)
    (bounded : s.bus.txErrors ≤ 160) : judgeHealth (s.updBus (fun b => (b.sent i f).txGood)) =
      (s.afterSent i f).afterHealth s.bus.health s.healthSent := by
  have good : (s.bus.sent i f).txGood = { s.bus.sent i f with txErrors := s.bus.txErrors - 1 } := txGood_drives drives
  have counted : s.updBus (fun b => (b.sent i f).txGood) =
      s.updBus (fun b => { b.sent i f with txErrors := b.txErrors - 1 }) := updBus_congr good
  have after : healthAfterCounts s.bus.health (s.bus.txErrors - 1) s.bus.rxErrors = s.healthSent := by
    rw [healthAfterCounts_drives drives, if_neg (by omega)]
    rfl
  rw [counted, judgeHealth_tested (s := s.updBus (fun b => { b.sent i f with txErrors := b.txErrors - 1 }))
    after drives (healthSent_drives s)]
  rfl

theorem afterHealth_dueTest (was health : BusHealth) (u : State) : dueTest (u.afterHealth was health) = dueTest u := by
  unfold State.afterHealth
  split <;> rfl

/-! ### The tags after the queue-time test (R41, R42) -/

theorem openTags_queueIntent_subset (c : Cage) (s : State) {tag : Tag} (mem : tag ∈ (queueIntent c s).openTags) :
    tag ∈ s.openTags ∨ tag = s.claims.lastTag + 1 := by
  unfold State.openTags at mem ⊢
  rw [answerTags_queueIntent, (queueIntent_units c s).1, List.map_append, List.append_assoc] at mem
  rcases List.mem_append.1 mem with old | mem
  · exact .inl (List.mem_append_left _ old)
  · rcases List.mem_append.1 mem with new | old
    · exact .inr (List.mem_singleton.1 new)
    · exact .inl (List.mem_append_right _ old)

theorem tags_lt_of_passes {s : State} {c : Cage} (h : s.testPasses c = true) : s.openTags.length < 2 :=
  (openTags_lt_iff s).2 ((testPasses_iff s c).1 h).tag

/-- Where two tags are open no cage passes the queue-time test. -/
theorem Tested.stays_of_tags {v w : State} (h : Tested v w) (open_ : 2 ≤ v.openTags.length) : w = v := by
  cases h with
  | stops => rfl
  | queues c s t _ passes _ => exact absurd (tags_lt_of_passes passes) (Nat.not_lt.2 open_)

/-- Where a tag is open at most one INTENT is queued, with the next tag. -/
theorem Tested.tags_of_open {v w : State} (h : Tested v w) (open_ : 1 ≤ v.openTags.length) {tag : Tag}
    (mem : tag ∈ w.openTags) : tag ∈ v.openTags ∨ tag = v.claims.lastTag + 1 := by
  cases h with
  | stops => exact .inl mem
  | queues c s t _ passes rest =>
    rw [rest.stays_of_tags (by rw [openTags_queueIntent]; omega)] at mem
    exact openTags_queueIntent_subset c v mem

/-- At most two INTENTs are queued at an event, with the next two tags. -/
theorem Tested.tags {v w : State} (h : Tested v w) {tag : Tag} (mem : tag ∈ w.openTags) :
    tag ∈ v.openTags ∨ tag = v.claims.lastTag + 1 ∨ tag = v.claims.lastTag + 2 := by
  cases h with
  | stops => exact .inl mem
  | queues c s t _ passes rest =>
    have last : (queueIntent c v).claims.lastTag = v.claims.lastTag + 1 := rfl
    rcases rest.tags_of_open (by rw [openTags_queueIntent]; omega) mem with old | next
    · exact (openTags_queueIntent_subset c v old).imp_right .inl
    · rw [last, add_assoc] at next
      exact .inr (.inr next)

theorem openTags_congr {s t : State} (claims : t.claims.intents = s.claims.intents) (bus : t.bus.txQueue = s.bus.txQueue) :
    t.openTags = s.openTags := by
  rw [State.openTags, State.openTags, answerTags_eq, answerTags_eq, claims, bus]

theorem EndsAs.tags {u t : State} (h : EndsAs u t) {tag : Tag} (closed : tag ∉ u.openTags)
    (next : u.claims.lastTag + 1 ≠ tag) (after : u.claims.lastTag + 2 ≠ tag) : tag ∉ t.openTags := by
  cases due : u.claims.testDue with
  | false =>
    obtain ⟨claims, bus⟩ := h.untested due
    rwa [openTags_congr (congrArg _ claims) (congrArg _ bus)]
  | true =>
    obtain ⟨v, w, _, claims, bus, run, claims', bus'⟩ := h.tested due
    have begun : v.openTags = u.openTags := openTags_congr (by rw [claims]) (by rw [bus])
    have last : v.claims.lastTag = u.claims.lastTag := by rw [claims]
    rw [openTags_congr (congrArg _ claims') (congrArg _ bus')]
    intro mem
    rcases run.tags mem with old | rfl | rfl
    · exact closed (begun ▸ old)
    · exact next (by rw [last])
    · exact after (by rw [last])

/-- Where a tag is open at the test, the frames of any other than the next tag are as they were. -/
theorem EndsAs.noIntentOf {u t : State} (h : EndsAs u t) {tag : Tag} (open_ : 1 ≤ u.openTags.length)
    (none : ∀ x ∈ u.bus.txQueue, x.body.isIntentOf tag = false) (next : u.claims.lastTag + 1 ≠ tag) :
    ∀ x ∈ t.bus.txQueue, x.body.isIntentOf tag = false := by
  cases due : u.claims.testDue with
  | false => rw [(h.untested due).2]; exact none
  | true =>
    obtain ⟨v, w, _, claims, bus, run, _, bus'⟩ := h.tested due
    have begun : v.openTags = u.openTags := openTags_congr (by rw [claims]) (by rw [bus])
    have last : v.claims.lastTag = u.claims.lastTag := by rw [claims]
    rw [bus']
    cases run with
    | stops => rw [bus]; exact none
    | queues c _ _ _ passes rest =>
      rw [rest.stays_of_tags (by rw [openTags_queueIntent, begun]; omega), (queueIntent_units c v).2.2, bus, last]
      intro x mem
      rcases mem_of_mem_place mem with old | rfl
      · exact none x old
      · exact decide_eq_false next

/-! ### The own intent whose INTENT has been sent (R54) -/

theorem Tested.keepsFound {v w : State} (h : Tested v w) {tag : Tag} {e : OwnIntent} (found : v.intentOf tag = some e) :
    w.intentOf tag = some e := by
  induction h with
  | stops => exact found
  | queues c s t _ _ _ ih =>
    refine ih ?_
    unfold State.intentOf at found ⊢
    rw [(queueIntent_units c s).1, List.find?_append, found]
    rfl

theorem EndsAs.keepsFound {u t : State} (h : EndsAs u t) {tag : Tag} {e : OwnIntent} (found : u.intentOf tag = some e) :
    t.intentOf tag = some e := by
  have congr : ∀ {s s' : State}, s'.claims.intents = s.claims.intents → s'.intentOf tag = s.intentOf tag :=
    fun same => by rw [State.intentOf, State.intentOf, same]
  cases due : u.claims.testDue with
  | false => rw [congr (congrArg ClaimUnit.intents (h.untested due).1)]; exact found
  | true =>
    obtain ⟨v, w, _, claims, _, run, same, _⟩ := h.tested due
    rw [congr (congrArg ClaimUnit.intents same)]
    exact run.keepsFound (by rw [congr (s := u) (by rw [claims])]; exact found)

/-! ### The frame that has left (R78, R87, R93) -/

/-- The bus with the frame gone and the counts judged, before any renewal. -/
def State.leftSent (s : State) (i : Nat) : State :=
  s.updBus (fun b => { b with
    txErrors := b.txErrors - 1, health := s.healthSent, txQueue := b.txQueue.eraseIdx i })

theorem afterHealth_congr {was health : BusHealth} {s t : State} (h : s = t) :
    s.afterHealth was health = t.afterHealth was health := congrArg _ h

theorem afterHealth_service (was health : BusHealth) (u : State) : (u.afterHealth was health).service = u.service := by
  unfold State.afterHealth
  split <;> rfl

theorem afterHealth_intents (was health : BusHealth) (u : State) :
    (u.afterHealth was health).claims.intents = u.claims.intents := by
  unfold State.afterHealth
  split <;> rfl

/-- A frame that is no STATUS and no CAGE-REPORT leaves nothing behind. -/
theorem afterSent_plain {s : State} {i : Nat} {f : TxFrame} (status : f.body.isStatus = false)
    (report : f.body.isReport = false) : s.afterSent i f = s.leftSent i := by
  have none : renewal s.bus.statusRenew f = [] := by
    obtain ⟨level, body, mark, follow⟩ := f
    cases body
    case status => cases status
    case cageReport => cases report
    all_goals rfl
  unfold State.afterSent State.leftSent
  exact updBus_congr (s := s) (by simp only [none, status, List.append_nil]; rfl)

theorem goodReceipt_sent {clocks : ClockHold} {s : State} {i : Nat} {f : TxFrame}
    (free : s.startup.resetHeld = false) (loaded : s.startup.runState ≠ .loading)
    (attempt : s.underAttempt = some (i, f)) (own : f.mark = .attempting)
    (drives : s.bus.health = .active ∨ s.bus.health = .cautious) (bounded : s.bus.txErrors ≤ 160) :
    ∃ t, exec (.goodReceipt clocks) s = .next t ∧
      EndsAs (reportSent clocks f.body ((s.afterSent i f).afterHealth s.bus.health s.healthSent)) t := by
  obtain ⟨t, answer, ends⟩ := goodReceipt_occurs (clocks := clocks) free loaded attempt
  rw [attemptSent_eq attempt (by rw [own]; nofun), judgeHealth_sent drives bounded] at ends
  exact ⟨t, answer, ends⟩

/-! ### The REPLY and the next request (R162) -/

/-- The state with the oldest request taken, of which the rest stays. -/
def State.withRequests (rest : List Request) (s : State) : State := s.updBus (fun b => { b with serviceQueue := rest })

theorem replySent_replying {clocks : ClockHold} {u : State} (phase : u.service.phase = .replying) :
    replySent clocks u = serveNext u := by
  rw [replySent, phase]

theorem serveNext_empty {u : State} (empty : u.bus.serviceQueue = []) : serveNext u = setService .idle none u := by
  rw [serveNext, empty]

theorem serveNext_oldest {u : State} {r : Request} {rest : List Request} (queue : u.bus.serviceQueue = r :: rest) :
    serveNext u = serveRequest r (u.withRequests rest) := by
  rw [serveNext, queue]
  rfl

theorem afterHealth_queue (was health : BusHealth) (s : State) (i : Nat) :
    ((s.leftSent i).afterHealth was health).bus.serviceQueue = s.bus.serviceQueue := by
  rw [afterHealth_bus]
  rfl

/-- A request that waits as the REPLY leaves is served as one that reaches the service unit in IDLE (R162). -/
theorem serveNext_row {clocks : ClockHold} {s : State} {i : Nat} {f : TxFrame} {j : Instr} {r : Request}
    (free : s.startup.resetHeld = false) (loaded : s.startup.runState ≠ .loading)
    (attempt : s.underAttempt = some (i, f)) (effect : attemptSent clocks s =
      serveNext ((s.leftSent i).afterHealth s.bus.health s.healthSent))
    (row : rowRequest j = some r) (queue : s.bus.serviceQueue = [r]) :
    exec (.goodReceipt clocks) s = exec j (((((s.leftSent i).afterHealth s.bus.health s.healthSent).withRequests []).withService
      { s.service with phase := .idle, request := none })) := by
  have receipt : exec (.goodReceipt clocks) s = .next (finish (attemptSent clocks s)).nextChoice :=
    eventNext_finish (effect := attemptSent clocks) free (by rw [onBus_of loaded, attempt]; rfl)
  rw [receipt, effect, serveNext_oldest ((afterHealth_queue _ _ s i).trans queue), exec_row row, requestArrives]
  have startup : (((s.leftSent i).afterHealth s.bus.health s.healthSent)).startup = s.startup := by
    unfold State.afterHealth
    split <;> rfl
  have service : (((s.leftSent i).afterHealth s.bus.health s.healthSent)).service = s.service := afterHealth_service _ _ _
  generalize (s.leftSent i).afterHealth s.bus.health s.healthSent = u at *
  have served := serveRequest_withService (u := { s.service with phase := .idle, request := none })
    (s := u.withRequests []) r (by rw [← service]; rfl)
  rw [eventNext_finish (s := (u.withRequests []).withService _) ((congrArg Startup.resetHeld startup).trans free)
    (onBus_of (s := (u.withRequests []).withService _) (by
      show u.startup.runState ≠ .loading
      rwa [startup])),
    acceptRequest_idle (s := (u.withRequests []).withService _) rfl rfl, served]

/-- A request taken as the REPLY leaves: the rest of the queue stays (R162). -/
theorem serveNext_takes {u t : State} {r : Request} {rest : List Request} (queue : u.bus.serviceQueue = r :: rest)
    (ends : EndsAs (serveNext u) t) : t.bus.serviceQueue = rest ∧ t.service.request = some r ∧
      t.service.phase ≠ .idle ∧ t.bus.txErrors = u.bus.txErrors ∧ t.bus.health = u.bus.health := by
  rw [serveNext_oldest queue] at ends
  have taken := serveRequest_takes r (u.withRequests rest)
  generalize serveRequest r (u.withRequests rest) = v at *
  have bus := ends.same.bus
  rw [taken.bus] at bus
  rw [ends.same.service, bus]
  exact ⟨rfl, taken.request, taken.busy, rfl, rfl⟩

/-! ### The answer of a judgement (R41, R52) -/

theorem openTags_closed {s : State} {i : Nat} {tag : Tag} (own : ∀ x ∈ s.claims.intents, x.tag ≠ tag)
    (others : ∀ j e, s.bus.txQueue[j]? = some e → j ≠ i → e.body.answerTag ≠ some tag) :
    tag ∉ (s.leftSent i).openTags := by
  intro mem
  unfold State.openTags at mem
  rcases List.mem_append.1 mem with entry | answer
  · obtain ⟨x, held, rfl⟩ := List.mem_map.1 entry
    exact own x held rfl
  · obtain ⟨e, held, tagged⟩ := List.mem_filterMap.1 answer
    refine eraseIdx_of_others (P := fun e => e.body.answerTag ≠ some tag) others e held ?_
    split at tagged
    · cases tagged
    · exact tagged

/-! ### The window of an own intent (R54) -/

theorem EndsAs.keepsClaim {u t : State} (h : EndsAs u t) {c : Cage} (held : (u.claim c).state ≠ .none) :
    t.claim c = u.claim c := by
  cases due : u.claims.testDue with
  | false => rw [State.claim, (h.untested due).1]; rfl
  | true =>
    obtain ⟨v, w, _, claims, _, run, claims', _⟩ := h.tested due
    have begun : v.claim c = u.claim c := by rw [State.claim, claims]; rfl
    have kept := run.keepsClaim (k := c) (by rwa [begun])
    have same : t.claim c = w.claim c := by rw [State.claim, claims']; rfl
    rw [same, kept, begun]

/-- The entry whose window has just opened is the one that its tag finds. -/
theorem find_opened {l : List OwnIntent} {e : OwnIntent} {tag : Tag} (own : e.tag = tag) :
    (l.filter (fun x => decide (x.tag ≠ tag)) ++ [e]).find? (fun x => decide (x.tag = tag)) = some e := by
  have gone : (l.filter (fun x => decide (x.tag ≠ tag))).find? (fun x => decide (x.tag = tag)) = none :=
    List.find?_eq_none.2 fun x mem found => of_decide_eq_true (List.mem_filter.1 mem).2 (of_decide_eq_true found)
  rw [List.find?_append, gone]
  exact List.find?_cons_of_pos (p := fun x : OwnIntent => decide (x.tag = tag)) (l := []) (decide_eq_true own)

/-- The claim unit as a window opens. -/
def State.windowOpen (e : OwnIntent) (tag : Tag) (s : State) : State :=
  setClaim e.cage .pending (s.updClaims (fun u => { u with
    intents := u.intents.filter (fun x => decide (x.tag ≠ tag)) ++ [{ e with deadline := some s.conf.window }] }))

theorem openWindow_afterHealth {e : OwnIntent} {tag : Tag} (own : e.tag = tag) (was health : BusHealth) (u : State) :
    openWindow e (u.afterHealth was health) = dueTest (u.windowOpen e tag) := by
  subst own
  unfold State.afterHealth
  split <;> rfl

theorem windowOpen_found {e : OwnIntent} {tag : Tag} (own : e.tag = tag) (s : State) :
    (s.windowOpen e tag).intentOf tag = some { e with deadline := some s.conf.window } :=
  find_opened (e := { e with deadline := some s.conf.window }) own

theorem windowOpen_pending (e : OwnIntent) (tag : Tag) (s : State) : ((s.windowOpen e tag).claim e.cage).state = .pending := by
  rw [State.windowOpen, claim_setClaim]

theorem windowOpen_open (e : OwnIntent) (tag : Tag) (s : State) : 1 ≤ (s.windowOpen e tag).openTags.length := by
  have table : (s.windowOpen e tag).claims.intents =
    s.claims.intents.filter (fun x => decide (x.tag ≠ tag)) ++ [{ e with deadline := some s.conf.window }] := rfl
  simp only [State.openTags, table, List.length_append, List.length_map, List.length_cons]
  omega

theorem windowOpen_noIntent {s : State} {e : OwnIntent} {tag : Tag} {i : Nat}
    (others : ∀ j x, s.bus.txQueue[j]? = some x → j ≠ i → x.body.isIntentOf tag = false) :
    ∀ x ∈ ((s.leftSent i).windowOpen e tag).bus.txQueue, x.body.isIntentOf tag = false :=
  eraseIdx_of_others (P := fun x : TxFrame => x.body.isIntentOf tag = false) others

/-! ### The frames that leave something behind (R87, R93) -/

/-- What a STATUS or a CAGE-REPORT leaves behind. -/
theorem afterSent_renewed {s : State} {i : Nat} {f : TxFrame} (kind : f.body.isStatus = true ∨ f.body.isReport = true) :
    s.afterSent i f = (s.leftSent i).updBus (fun b => { b with
      statusRenew := if f.body.isStatus then false else b.statusRenew,
      afterRestart := if f.body.isStatus then false else b.afterRestart,
      txQueue := b.txQueue ++
        (if f.body.isStatus then (if b.statusRenew then [newFrame 31 blankStatus] else [])
         else match f.followOn with
           | some k => [newFrame k.level (.cageReport k.report)]
           | none => []) }) := by
  obtain ⟨level, body, mark, follow⟩ := f
  cases body
  case status => rfl
  case cageReport => cases follow <;> rfl
  all_goals exact absurd kind (by simp [FrameBody.isStatus, FrameBody.isReport])

theorem reportSent_renewed {clocks : ClockHold} {body : FrameBody} {u : State}
    (kind : body.isStatus = true ∨ body.isReport = true) : reportSent clocks body u = u := by
  cases body
  case status | cageReport => rfl
  all_goals exact absurd kind (by simp [FrameBody.isStatus, FrameBody.isReport])

/-- A CONFIRM or a WITHDRAW that has left closes its tag, and has the queue-time test run (R52). -/
theorem reportSent_answer {body : FrameBody} {tag : Tag} (tagged : body.answerTag = some tag) (clocks : ClockHold) :
    body.isStatus = false ∧ body.isReport = false ∧ ∀ u, reportSent clocks body u = dueTest u := by
  cases body
  case confirm | withdraw => exact ⟨rfl, rfl, fun _ => rfl⟩
  all_goals cases tagged

theorem setIdle_afterHealth (was health : BusHealth) (u : State) : setService .idle none (u.afterHealth was health) =
    (u.withService { u.service with phase := .idle, request := none }).afterHealth was health := by
  unfold State.afterHealth
  split <;> rfl

theorem withRequests_afterHealth (was health : BusHealth) (rest : List Request) (x : ServiceUnit) (u : State) :
    (((u.afterHealth was health).withRequests rest).withService x) =
      ((u.withRequests rest).withService x).afterHealth was health := by
  unfold State.afterHealth
  split <;> rfl

/-- Settles O31, by the kind of the frame that has left. -/
theorem frameSent : Obligations.FrameSent := by
  intro clocks i f s free loaded attempt
  refine ⟨fun detached => ?_, fun own drives bounded => ?_⟩
  · obtain ⟨t, answer, ends⟩ := goodReceipt_occurs (clocks := clocks) free loaded attempt
    rw [attemptSent_detached attempt detached] at ends
    exact ⟨t, answer, ends⟩
  obtain ⟨t, answer, ends⟩ := goodReceipt_sent (clocks := clocks) free loaded attempt own drives bounded
  have effect : attemptSent clocks s =
      reportSent clocks f.body ((s.afterSent i f).afterHealth s.bus.health s.healthSent) := by
    rw [attemptSent_eq attempt (by rw [own]; nofun), judgeHealth_sent drives bounded]
  intro health tested sent
  refine ⟨fun kind => ⟨t, answer, ?_⟩, fun code result data body phase => ?_, fun tag tagged => ⟨t, answer, ?_⟩,
    fun c tag d e body found cage => ⟨t, answer, ?_⟩⟩
  · rw [afterSent_renewed kind, reportSent_renewed kind] at ends
    exact ends
  · have plain := afterSent_plain (s := s) (i := i) (f := f) (by rw [body]; rfl) (by rw [body]; rfl)
    have next : attemptSent clocks s = serveNext ((s.leftSent i).afterHealth s.bus.health s.healthSent) := by
      rw [effect, plain, body]
      exact replySent_replying ((congrArg ServiceUnit.phase (afterHealth_service _ _ (s.leftSent i))).trans phase)
    have queue := afterHealth_queue s.bus.health s.healthSent s i
    rw [← effect, next] at ends
    refine ⟨fun empty => ⟨t, answer, ?_⟩, fun r rest held => ⟨t, answer, ?_⟩, fun j r row held => ?_⟩
    · rw [serveNext_empty (queue.trans empty), setIdle_afterHealth] at ends
      exact ends
    · obtain ⟨left, request, busy, errors, judged⟩ := serveNext_takes (queue.trans held) ends
      rw [afterHealth_bus] at errors judged
      exact ⟨left, request, busy, errors, judged⟩
    · rw [serveNext_row free loaded attempt next row held, withRequests_afterHealth]
      rfl
  · obtain ⟨status, report, judged⟩ := reportSent_answer tagged clocks
    rw [afterSent_plain status report, judged, afterHealth_dueTest] at ends
    refine ⟨ends, fun intents others => ?_, fun stopped => ?_⟩
    · have closed := openTags_closed (i := i) intents others
      exact ⟨closed, fun next after => ends.tags (u := dueTest (s.leftSent i)) closed next after⟩
    · obtain ⟨claims, bus⟩ := ends.unpassed (.inr (.inr stopped))
      exact ⟨by rw [claims]; rfl, by rw [bus]; rfl⟩
  · have plain := afterSent_plain (s := s) (i := i) (f := f) (by rw [body]; rfl) (by rw [body]; rfl)
    have tag_eq := intentOf_tag found
    have held : ((s.leftSent i).afterHealth s.bus.health s.healthSent).intentOf tag = some e :=
      (congrArg (List.find? _) (afterHealth_intents _ _ (s.leftSent i))).trans found
    rw [plain, body] at ends
    simp only [reportSent, held] at ends
    rw [openWindow_afterHealth tag_eq] at ends
    subst cage
    have opened : t.intentOf tag = some { e with deadline := some s.conf.window } :=
      ends.keepsFound (windowOpen_found tag_eq (s.leftSent i))
    refine ⟨ends, ?_, ?_, ?_, fun others next => ?_⟩
    · exact (congrArg Claim.state (ends.keepsClaim (c := e.cage) (by
        rw [show ((dueTest ((s.leftSent i).windowOpen e tag)).claim e.cage).state = .pending from
          windowOpen_pending e tag (s.leftSent i)]
        nofun))).trans (windowOpen_pending e tag (s.leftSent i))
    · rw [State.openIntent, opened]
      rfl
    · rw [ends.same.bus]
      rfl
    · exact ends.noIntentOf (windowOpen_open e tag (s.leftSent i)) (windowOpen_noIntent (e := e) others) next

end Sys2Proof.Machine
end

section
/-! PROOF. The start of an attempt (R65, R87, R91). -/

namespace Sys2Proof.Machine

/-! ### The most urgent frame (R91) -/

/-- The frame at an index is eligible, of the lowest value of the eligible frames of a list, and the oldest of
that value. -/
def MostUrgentAt (station : Station) (health : BusHealth) (q : List TxFrame) (i : Nat) (v : Nat) : Prop :=
  ∃ f, q[i]? = some f ∧ f.eligible health = true ∧ f.value station = v ∧
    ∀ j e, q[j]? = some e → e.eligible health = true → v ≤ e.value station ∧ (j < i → v < e.value station)

/-- What the scan of R91 knows after the frames of a list. -/
def ScannedBest (station : Station) (health : BusHealth) (q : List TxFrame) : Option (Nat × Nat) → Prop
  | some (i, v) => MostUrgentAt station health q i v
  | none => ∀ e ∈ q, e.eligible health = false

variable {station : Station} {health : BusHealth}

theorem getElem?_concat {q : List TxFrame} {f e : TxFrame} {j : Nat} (at_ : (q ++ [f])[j]? = some e) :
    (q[j]? = some e ∧ j < q.length) ∨ (j = q.length ∧ e = f) := by
  rcases Nat.lt_or_ge j q.length with lt | ge
  · rw [List.getElem?_append_left lt] at at_
    exact .inl ⟨at_, lt⟩
  · rw [List.getElem?_append_right ge] at at_
    obtain ⟨lt, rfl⟩ := List.getElem?_eq_some_iff.1 at_
    have zero : j - q.length = 0 := Nat.lt_one_iff.1 lt
    exact .inr ⟨by omega, by simp [zero]⟩

theorem MostUrgentAt.concat {q : List TxFrame} {i v : Nat} {f : TxFrame} (h : MostUrgentAt station health q i v)
    (later : f.eligible health = true → v ≤ f.value station) : MostUrgentAt station health (q ++ [f]) i v := by
  obtain ⟨g, at_, eligible, value, best⟩ := h
  have lt := (List.getElem?_eq_some_iff.1 at_).1
  refine ⟨g, (List.getElem?_append_left lt).trans at_, eligible, value, fun j e here able => ?_⟩
  rcases getElem?_concat here with ⟨old, _⟩ | ⟨rfl, rfl⟩
  · exact best j e old able
  · exact ⟨later able, fun before => absurd before (by omega)⟩

/-- A frame more urgent than all before it. -/
theorem mostUrgentAt_new {q : List TxFrame} {f : TxFrame} (eligible : f.eligible health = true)
    (first : ∀ e ∈ q, e.eligible health = true → f.value station < e.value station) :
    MostUrgentAt station health (q ++ [f]) q.length (f.value station) := by
  refine ⟨f, by simp, eligible, rfl, fun j e here able => ?_⟩
  rcases getElem?_concat here with ⟨old, _⟩ | ⟨rfl, rfl⟩
  · have less := first e (List.mem_of_getElem? old) able
    exact ⟨less.le, fun _ => less⟩
  · exact ⟨le_rfl, fun before => absurd before (by omega)⟩

theorem ScannedBest.concat {q : List TxFrame} {best : Option (Nat × Nat)} (h : ScannedBest station health q best)
    (f : TxFrame) : ScannedBest station health (q ++ [f])
      (if f.eligible health then
        match best with
        | some (i, v) => if f.value station < v then some (q.length, f.value station) else some (i, v)
        | none => some (q.length, f.value station)
      else best) := by
  split
  next eligible =>
    rcases best with _ | ⟨i, v⟩
    · exact mostUrgentAt_new eligible fun e mem able => absurd able (by rw [h e mem]; nofun)
    · by_cases less : f.value station < v
      · obtain ⟨_, _, _, _, best⟩ := h
        have first := mostUrgentAt_new eligible fun e mem able => by
          obtain ⟨j, at_⟩ := List.getElem?_of_mem mem
          exact less.trans_le (best j e at_ able).1
        simp only [if_pos less]
        exact first
      · have still : MostUrgentAt station health (q ++ [f]) i v := MostUrgentAt.concat h fun _ => not_lt.1 less
        simp only [if_neg less]
        exact still
  next out =>
    have out : f.eligible health = false := Bool.eq_false_iff.2 out
    rcases best with _ | ⟨i, v⟩
    · intro e mem
      rcases List.mem_append.1 mem with old | new
      · exact h e old
      · rwa [List.mem_singleton.1 new]
    · exact MostUrgentAt.concat h fun able => absurd able (by rw [out]; nofun)

theorem bestFrame_spec (fs : List TxFrame) {q : List TxFrame} {best : Option (Nat × Nat)}
    (h : ScannedBest station health q best) :
    ∃ found, bestFrame station health q.length best fs = found.map Prod.fst ∧
      ScannedBest station health (q ++ fs) found := by
  induction fs generalizing q best with
  | nil => exact ⟨best, rfl, by rwa [List.append_nil]⟩
  | cons f fs ih =>
    obtain ⟨found, result, scanned⟩ := ih (h.concat f)
    rw [List.append_assoc, List.singleton_append] at scanned
    refine ⟨found, ?_, scanned⟩
    rw [← result, List.length_append, List.length_singleton]
    conv_lhs => unfold bestFrame
    split
    · rcases best with _ | ⟨i, v⟩
      · rfl
      · dsimp only
        split <;> rfl
    · rfl

/-- Where a frame is eligible and none is under attempt, the next frame is the most urgent one (R91). -/
theorem nextFrame_mostUrgent {s : State} (waiting : ∀ f ∈ s.bus.txQueue, f.mark = .waiting)
    (some_ : ∃ f ∈ s.bus.txQueue, f.eligible s.bus.health = true) :
    ∃ i v, s.nextFrame = some i ∧ MostUrgentAt s.startup.station s.bus.health s.bus.txQueue i v := by
  have free : attemptIx s.bus.txQueue = none := by
    rw [attemptIx, List.findIdx?_eq_none_iff]
    intro f mem
    exact decide_eq_false (not_not.2 (waiting f mem))
  obtain ⟨found, result, scanned⟩ := bestFrame_spec (station := s.startup.station) (health := s.bus.health)
    s.bus.txQueue (q := []) (best := none) (by intro e mem; cases mem)
  rw [State.nextFrame, free]
  rcases found with _ | ⟨i, v⟩
  · obtain ⟨f, mem, eligible⟩ := some_
    exact absurd (scanned f mem) (by rw [eligible]; nofun)
  · exact ⟨i, v, result, scanned⟩

/-! ### The content of a STATUS (R65) -/

theorem statusContent_describes {s : State} (own : ∀ f ∈ s.bus.txQueue, f.mark ≠ .detached) :
    s.statusContent.describes s where
  total := by
    show s.claims.committed - s.waitingConfirms = _
    rw [State.waitingConfirms]
    congr 2
    refine List.map_congr_left fun f mem => ?_
    cases f.body
    case confirm => exact if_neg (own f mem)
    all_goals rfl
  tags := by
    refine (sortByKey_perm _ _).trans (.of_eq ?_)
    rw [State.sentTags, State.answerTags]
    refine congrArg₂ _ rfl (List.filterMap_congr fun f mem => if_neg (own f mem))
  runState := by
    show s.statusRunState = _ ∨ _ ∧ s.statusRunState = _
    rw [State.statusRunState]
    split
    next h => exact .inr ⟨(Bool.and_eq_true_iff.1 h).1, rfl⟩
    next => exact .inl rfl
  health := rfl
  inService := rfl

/-- Settles O30: the scan of the queue keeps the most urgent frame so far. -/
theorem attemptTakesMostUrgent : Obligations.AttemptTakesMostUrgent := by
  intro s free loaded waiting able
  obtain ⟨i, v, next, f, at_, eligible, rfl, best⟩ := nextFrame_mostUrgent waiting able
  obtain ⟨t, answer, ends⟩ := eventNext_occurs (effect := beginAttempt) free
    (by rw [onBus_of loaded, next]; rfl : (s.onBus && s.nextFrame.isSome) = true)
  have begun : beginAttempt s = s.updBus (fun b => { b with txQueue := b.txQueue.set i { f with
      mark := .attempting, body := if f.body.isStatus then .status s.statusContent else f.body } }) := by
    rw [beginAttempt, next]
    exact updBus_congr (s := s) (f := BusUnit.updFrame i (TxFrame.begin s.statusContent))
      (by rw [BusUnit.updFrame, modify_eq_set (TxFrame.begin s.statusContent) at_]; rfl)
  rw [begun] at ends
  refine ⟨t, i, f, s.statusContent, answer, at_, eligible, fun j e here can => ?_,
    statusContent_describes fun g mem => by rw [waiting g mem]; nofun, ends⟩
  obtain ⟨le, lt⟩ := best j e here can
  exact ⟨Nat.le_of_add_le_add_right le, fun before => Nat.lt_of_add_lt_add_right (lt before)⟩

end Sys2Proof.Machine
end

section
/-! PROOF. The announce tick and the end of the listen interval (R72, R86, R156, R159, R186, R187). -/

namespace Sys2Proof.Machine

theorem nextChoice_startup (s : State) : s.nextChoice.startup = s.startup := rfl

/-- An event that leaves the part in no ADOPTING keeps the start-up block as its effect leaves it. -/
theorem eventNext_startup {occurs : Bool} {effect : State → State} {s : State} (free : s.startup.resetHeld = false)
    (now : occurs = true) : ∃ t, eventNext occurs effect s = .next t ∧ EndsAs (effect s) t ∧
      ((effect s).startup.runState ≠ .adopting → t.startup = (effect s).startup) :=
  ⟨(finish (effect s)).nextChoice, eventNext_finish free now, finish_endsAs (effect s),
    fun settled => (nextChoice_startup _).trans (finish_startup settled)⟩

/-! ### HELD lifted (R156, R159) -/

/-- The lines of a cage with HELD lifted: the named source comes into force. -/
def liftedLine (s : State) (c : Cage) : CageLines :=
  match (s.line c).source, (s.line c).named with
  | .held, some n => { s.line c with source := n.source }
  | _, _ => s.line c

/-- The record of a cage whose HELD is lifted: the init wait starts where the source becomes SEQUENCER. -/
def liftedCage (s : State) (c : Cage) : CageRecord :=
  { s.cage c with
    timers := (if (s.line c).source = .held ∧ (s.line c).named = some .sequencer ∧
        (s.cage c).state = .identify ∧ (s.cage c).timers.initWait = none ∧ (s.cage c).identReads = 0
      then { (s.cage c).timers with initWait := some 2000, initStart := s.openChoices }
      else (s.cage c).timers) }

theorem lift_line (s : State) (c : Cage) : (s.line c).lift = liftedLine s c := rfl

theorem sequencerReport_cage (s : State) (c : Cage) : (sequencerReport c s).cage c =
    { s.cage c with timers := if (s.cage c).state = .identify ∧ (s.cage c).timers.initWait = none ∧
      (s.cage c).identReads = 0 then (s.cage c).timers.startInit s.openChoices else (s.cage c).timers } := by
  simp only [sequencerReport]
  split
  · rw [cage_updCage]
  · rfl

theorem sequencerReport_cage_other {s : State} {c k : Cage} (other : k ≠ c) : (sequencerReport c s).cage k = s.cage k := by
  simp only [sequencerReport]
  split
  · exact cage_updCage_other s c k _ other
  · rfl

/-- The lift of one cage's HELD leaves every unit but the lines and the cages. -/
theorem liftHeld_frame (c : Cage) (s : State) :
    (liftHeld s c).startup = s.startup ∧ (liftHeld s c).penalties = s.penalties ∧
    (liftHeld s c).scan = s.scan ∧ (liftHeld s c).events = s.events ∧ (liftHeld s c).openChoices = s.openChoices := by
  unfold liftHeld
  split
  · dsimp only
    split <;> simp
  · exact ⟨rfl, rfl, rfl, rfl, rfl⟩

theorem liftHeld_other {s : State} {c k : Cage} (other : k ≠ c) :
    (liftHeld s c).line k = s.line k ∧ (liftHeld s c).cage k = s.cage k := by
  unfold liftHeld
  split
  · have line := line_updLines_other s c k CageLines.lift other
    dsimp only
    split
    · exact ⟨(line_congr (sequencerReport_frame c _).2.2.1 k).trans line, sequencerReport_cage_other other⟩
    · exact ⟨line, rfl⟩
  · exact ⟨rfl, rfl⟩

theorem liftHeld_same (s : State) (c : Cage) :
    (liftHeld s c).line c = liftedLine s c ∧ (liftHeld s c).cage c = liftedCage s c := by
  by_cases held : (s.line c).source = .held
  case neg =>
    have line : liftedLine s c = s.line c := by
      unfold liftedLine
      split
      next h _ => exact absurd h held
      next => rfl
    have cage : liftedCage s c = s.cage c := by rw [liftedCage, if_neg fun h => held h.1]
    rw [liftHeld, if_neg held, line, cage]
    exact ⟨rfl, rfl⟩
  case pos =>
    have line : (s.updLines c CageLines.lift).line c = liftedLine s c := line_updLines s c _
    have under : (s.updLines c CageLines.lift).underSequencer c = true ↔ (s.line c).named = some .sequencer := by
      rw [State.underSequencer, line, decide_eq_true_iff]
      unfold liftedLine
      rw [held]
      cases (s.line c).named with
      | none => simp [held]
      | some n => cases n <;> simp [NamedSource.source]
    rw [liftHeld, if_pos held]
    dsimp only
    split
    next named =>
      refine ⟨(line_congr (sequencerReport_frame c _).2.2.1 c).trans line, ?_⟩
      rw [sequencerReport_cage, liftedCage]
      simp only [held, under.1 named, true_and]
      rfl
    next other =>
      refine ⟨line, ?_⟩
      rw [liftedCage, if_neg fun h => other (under.2 h.2.1)]
      rfl

theorem liftAll (s : State) (c : Cage) :
    (allCages.foldl liftHeld s).line c = liftedLine s c ∧ (allCages.foldl liftHeld s).cage c = liftedCage s c := by
  refine foldl_reaches_once
    (Q := fun u : State => u.line c = s.line c ∧ u.cage c = s.cage c ∧ u.openChoices = s.openChoices)
    (P := fun u : State => u.line c = liftedLine s c ∧ u.cage c = liftedCage s c)
    (fun u d other h => ?_) (fun u h => ?_) (fun u d other h => ?_) (List.nodup_finRange 16) (List.mem_finRange c)
    ⟨rfl, rfl, rfl⟩
  · obtain ⟨line, cage⟩ := liftHeld_other (s := u) (Ne.symm other)
    obtain ⟨_, _, _, _, choices⟩ := liftHeld_frame d u
    rw [line, cage, choices]
    exact h
  · obtain ⟨line, cage, choices⟩ := h
    obtain ⟨lifted, waits⟩ := liftHeld_same u c
    rw [lifted, waits, liftedLine, liftedCage, line, cage, choices]
    exact ⟨rfl, rfl⟩
  · obtain ⟨line, cage⟩ := liftHeld_other (s := u) (Ne.symm other)
    rw [line, cage]
    exact h

/-! ### The end of the listen interval (R187) -/

/-- What the end of the listen interval leaves at its own event. -/
structure ListeningEnded (s u : State) : Prop where
  startup   : u.startup = { s.startup with runState := .running, listenTicks := 2 }
  lines     : ∀ c, u.line c = liftedLine s c
  cages     : ∀ c, u.cage c = liftedCage s c
  units     : u.penalties = s.penalties ∧ u.events = s.events ∧ u.scan = s.scan

theorem endListening_ended (s : State) : ListeningEnded s (endListening s) := by
  have effect : endListening s = dueTest (allCages.foldl liftHeld
    (s.updStartup (fun u => { u with runState := .running, listenTicks := 2 }))) := rfl
  have begun : liftedLine (s.updStartup (fun u => { u with runState := .running, listenTicks := 2 })) = liftedLine s ∧
    liftedCage (s.updStartup (fun u => { u with runState := .running, listenTicks := 2 })) = liftedCage s := ⟨rfl, rfl⟩
  have startup : (s.updStartup (fun u => { u with runState := .running, listenTicks := 2 })).startup =
    { s.startup with runState := .running, listenTicks := 2 } := rfl
  have units : (s.updStartup (fun u => { u with runState := .running, listenTicks := 2 })).penalties = s.penalties ∧
    (s.updStartup (fun u => { u with runState := .running, listenTicks := 2 })).events = s.events ∧
    (s.updStartup (fun u => { u with runState := .running, listenTicks := 2 })).scan = s.scan := ⟨rfl, rfl, rfl⟩
  rw [effect]
  generalize s.updStartup (fun u => { u with runState := .running, listenTicks := 2 }) = run at *
  obtain ⟨penalties, events, scan⟩ := units
  have lifted := liftAll run
  have startup' := foldl_keeps State.startup liftHeld (fun u c => (liftHeld_frame c u).1) allCages run
  have penalties' := foldl_keeps State.penalties liftHeld (fun u c => (liftHeld_frame c u).2.1) allCages run
  have scan' := foldl_keeps State.scan liftHeld (fun u c => (liftHeld_frame c u).2.2.1) allCages run
  have events' := foldl_keeps State.events liftHeld (fun u c => (liftHeld_frame c u).2.2.2.1) allCages run
  generalize allCages.foldl liftHeld run = v at *
  rw [begun.1, begun.2] at lifted
  exact ⟨startup'.trans startup, fun c => (lifted c).1, fun c => (lifted c).2,
    penalties'.trans penalties, events'.trans events, scan'.trans scan⟩

theorem listenTick_second {u : State} (listening : u.startup.runState = .listening) (ticks : u.startup.listenTicks = 1) :
    listenTick u = endListening u := by
  rw [listenTick, if_pos listening, if_pos (Nat.le_of_eq ticks.symm)]

/-- The second tick taken in LISTENING ends the interval as its own row does. -/
theorem announce_ended {s : State} (listening : s.startup.runState = .listening) (ticks : s.startup.listenTicks = 1) :
    ListeningEnded s (announce s) := by
  have tick : announce s = endListening (dueTest (tickPeers
      (s.updBus (fun b => { b.tickStatus with announce := some s.conf.announce })))) := by
    exact listenTick_second listening ticks
  rw [tick]
  have h := endListening_ended (dueTest (tickPeers
    (s.updBus (fun b => { b.tickStatus with announce := some s.conf.announce }))))
  exact ⟨h.startup, h.lines, h.cages, h.units⟩

/-- Settles O40: both rows of the event end the listen interval. -/
theorem listenIntervalEnds : Obligations.ListenIntervalEnds := by
  intro i s free listening ticks row
  obtain ⟨u, ended, t, answer, ends, startup⟩ : ∃ u, ListeningEnded s u ∧
      ∃ t, exec i s = .next t ∧ EndsAs u t ∧ (u.startup.runState ≠ .adopting → t.startup = u.startup) := by
    rcases row with rfl | ⟨rfl, announced⟩
    · refine ⟨_, endListening_ended s, eventNext_startup (effect := endListening) free ?_⟩
      rw [listening, ticks]
      rfl
    · exact ⟨_, announce_ended listening ticks, eventNext_startup (effect := announce) free announced⟩
  obtain ⟨penalties, events, scan⟩ := ended.units
  refine ⟨t, answer, (startup (by rw [ended.startup]; nofun)).trans ended.startup, fun c => ⟨(ends.line c).trans (ended.lines c), ?_⟩, ends.testDue,
    ends.same.penalties.trans penalties, ends.same.events.trans events, ?_⟩
  · have cage := ends.cage c
    rw [ended.cages c] at cage
    exact cage
  · rw [ends.same.scan, scan]

/-! ### The announce tick (R72, R86, R186) -/

/-- A tick leaves a STATUS in the queue: the one waiting, the one under attempt, or a new one. -/
theorem tickStatus_status {b : BusUnit} (room : b.txQueue.length < 8) :
    ∃ f ∈ b.tickStatus.txQueue, f.body.isStatus = true := by
  have held : ∀ {mark}, holds b.txQueue mark FrameBody.isStatus = true → ∃ f ∈ b.txQueue, f.body.isStatus = true :=
    fun h => by
      obtain ⟨f, mem, kind⟩ := List.any_eq_true.1 h
      exact ⟨f, mem, (Bool.and_eq_true_iff.1 kind).2⟩
  unfold BusUnit.tickStatus
  split
  next waits => exact held waits
  split
  next runs => exact held runs
  next =>
    rw [BusUnit.place, if_pos room]
    exact ⟨_, List.mem_append_right _ List.mem_cons_self, rfl⟩

theorem tickStatus_renews {b : BusUnit} (running : ∀ f ∈ b.txQueue, f.body.isStatus = true → f.mark = .attempting)
    (held : ∃ f ∈ b.txQueue, f.body.isStatus = true) : b.tickStatus.statusRenew = true := by
  have idle : holds b.txQueue .waiting FrameBody.isStatus = false := by
    refine List.any_eq_false.2 fun f mem kind => ?_
    obtain ⟨mark, status⟩ := Bool.and_eq_true_iff.1 kind
    rw [running f mem status] at mark
    cases mark
  have attempt : holds b.txQueue .attempting FrameBody.isStatus = true := by
    obtain ⟨f, mem, status⟩ := held
    exact List.any_eq_true.2 ⟨f, mem, by rw [running f mem status, status]; rfl⟩
  rw [BusUnit.tickStatus, idle, attempt]
  rfl

/-- The state of a tick before the start-up block takes it. -/
def State.ticked (s : State) : State :=
  dueTest (tickPeers (s.updBus (fun b => { b.tickStatus with announce := some s.conf.announce })))

theorem announce_eq (s : State) : announce s = listenTick s.ticked := rfl

/-- The start-up block counts the first tick taken in LISTENING (R186). -/
theorem listenTick_first {u : State} (first : u.startup.runState = .listening → u.startup.listenTicks = 0) :
    listenTick u = u.updStartup (fun k => { k with
      listenTicks := if u.startup.runState = .listening then 1 else k.listenTicks }) := by
  unfold listenTick
  split
  next listening =>
    rw [if_neg (by rw [first listening]; nofun)]
    simp only [State.updStartup, first listening]
  next => rfl

theorem tickPeers_peer (s : State) (n : Station) : (tickPeers s).peer n = (s.peer n).tick := by
  simp [tickPeers, State.peer]

/-- Settles O39: the tick's effect, of which the end of the event keeps the STATUS. -/
theorem announceTick : Obligations.AnnounceTick := by
  intro s free announced first room _
  obtain ⟨t, answer, ends, begun⟩ := eventNext_startup (effect := announce) free announced
  have ticked : announce s = s.ticked.updStartup (fun k => { k with
      listenTicks := if s.startup.runState = .listening then 1 else k.listenTicks }) :=
    (announce_eq s).trans (listenTick_first (u := s.ticked) first)
  have status := tickStatus_status room
  rw [ticked] at ends begun
  have bus := ends.same.bus
  refine ⟨t, answer, ?_, fun n => ?_, ?_, fun running held => ?_, fun listening => ?_, ends.testDue, ends.same.lines,
    ends.same.penalties, ends.same.events, ?_, fun c => ends.cage c⟩
  · rw [bus]; rfl
  · rw [State.peer, ends.same.peers]
    exact tickPeers_peer _ n
  · obtain ⟨f, mem, kind⟩ := status
    exact ⟨f, ends.keepsFrame (by revert kind; cases f.body <;> simp [FrameBody.isStatus, FrameBody.isReport]) mem, kind⟩
  · rw [bus]
    exact tickStatus_renews running held
  · rw [begun (by show s.startup.runState ≠ _; rw [listening]; nofun)]
    exact ⟨listening, if_pos listening⟩
  · rw [ends.same.scan]; rfl

end Sys2Proof.Machine
end

section
/-! PROOF. A conversion of the current-sense converter (R22, R28, R61, R145, R147, R148). -/

namespace Sys2Proof.Machine

/-! ### The claim of a cage that leaves LIGHT-SETTLE or faults (R22, R61) -/

theorem enterFaulted_released {c : Cage} {cause : FaultCause} {s : State}
    (old : (s.cage c).state = .powerUp ∨ (s.cage c).state = .lightSettle) (confirmed : (s.claim c).state = .confirmed) :
    (enterFaulted c cause s).claims = (releaseClaim c s).claims := by
  rw [enterFaulted_claims, claimHandOff_faulted old, disposeClaim_confirmed (s := handRecord c .fault (s.cage c).state (some cause) s) confirmed]
  rfl

/-- The claim goes with the move to TRAIN, and TRAIN hands the claim unit nothing more (R5, R22). -/
theorem enterTrainAfresh_released {c : Cage} {s : State} (settling : (s.cage c).state = .lightSettle) :
    (enterTrainAfresh c s).claims = (releaseClaim c s).claims := by
  have trains : (inTrainOf c false (zeroRetries c s)).claims = (releaseClaim c s).claims := by
    show (moveCage c .train .none (zeroRetries c s)).claims = _
    have state : ((zeroRetries c s).cage c).state = .lightSettle := by rw [zeroRetries, cage_updCage]; exact settling
    rw [moveCage_claimUnit, state]
    rfl
  have state : ((inTrainOf c false (zeroRetries c s)).cage c).state = .train :=
    (inTrainOf_goes c false (zeroRetries c s)).record.state
  rw [enterTrainAfresh, enterTrain_eq]
  split
  · rw [moveCage_claimUnit, state]
    exact trains
  · exact trains

theorem releaseClaim_claims (c : Cage) (s : State) :
    (releaseClaim c s).claims.releasePending = s.claims.releasePending + (s.claim c).draw ∧
    (releaseClaim c s).claim c = { s.claim c with state := .none } :=
  ⟨rfl, claim_setClaim c .none s⟩

/-- After a released claim no INTENT is queued for an unlisted cage. -/
theorem EndsAs.released {u t s : State} {c : Cage} (ends : EndsAs u t) (claims : u.claims = (releaseClaim c s).claims) :
    t.claims.releasePending = s.claims.releasePending + (s.claim c).draw ∧
    ((s.claim c).listed = false → (t.claim c).state = .none) := by
  obtain ⟨pending, claim⟩ := releaseClaim_claims c s
  have left : u.claim c = { s.claim c with state := .none } := (claim_congr claims c).trans claim
  refine ⟨by rw [ends.totals.2, claims, pending], fun unlisted => ?_⟩
  rw [ends.claim_unlisted (by rw [left]; exact unlisted), left]

/-! ### The verdicts of a conversion (R147, R148) -/

theorem overdrawLimit_eq (st : CageState) (id : Identity) : overdrawLimit st id =
    if st = .powerUp ∨ st = .lightSettle then id.draw else id.pm + id.pm / 8 := by
  cases st <;> rfl

theorem drawSettled_eq (pm : Nat) (history : List Draw) : drawSettled pm history =
    (decide (history.length = 4) && history.all (fun e => !e.saturated && decide (e.value ≤ pm))) := by
  rw [drawSettled]
  congr 2
  funext e
  rw [Draw.above, Bool.not_or, ← decide_not]
  simp only [Nat.not_lt]

/-- The conversion of a channel, with its run count and its history written out. -/
theorem convertChannel_eq (c : Cage) (code : BitVec 10) (s : State) (d : Draw)
    (entry : d = ⟨code.toNat * s.conf.currentScale / 256, code.toNat = 1023⟩) :
    convertChannel c code s = ({ s with scan := { s.scan with channel := c + 1 } } : State).updScan c (fun k =>
      { k with
        history := historyAdd (s.cageScan c).history d
        overRun := nextRun (s.cage c).state (s.cage c).identity d (s.cageScan c).overRun }) := by
  subst entry
  exact updScan_congr (s := { s with scan := { s.scan with channel := c + 1 } }) rfl

theorem takeSettledVerdict_unpowered {c : Cage} {s : State} (off : (s.cage c).state.powered = false) (verdict : Bool) :
    takeSettledVerdict c verdict s = s := by
  rw [takeSettledVerdict, off]
  rfl

theorem takeSettledVerdict_stays {c : Cage} {s : State} {verdict : Bool} (powered : (s.cage c).state.powered = true)
    (stays : ¬ ((s.cage c).state = .lightSettle ∧ (s.cage c).laneStable = true ∧ verdict = true)) :
    takeSettledVerdict c verdict s = s.updCage c (fun k => { k with drawSettled := verdict }) := by
  rw [takeSettledVerdict, if_pos powered]
  exact if_neg (by rw [cage_updCage]; exact stays)

theorem takeSettledVerdict_trains {c : Cage} {s : State} (settling : (s.cage c).state = .lightSettle)
    (stable : (s.cage c).laneStable = true) : takeSettledVerdict c true s =
      enterTrainAfresh c (s.updCage c (fun k => { k with drawSettled := true })) := by
  rw [takeSettledVerdict, if_pos (by rw [settling]; rfl)]
  exact if_pos (by rw [cage_updCage]; exact ⟨settling, stable, rfl⟩)

/-- The verdicts of a conversion, overdraw first (log entry 14). -/
def takeVerdicts (c : Cage) (s : State) : State :=
  let judged := if s.overdrawn c then takeOverdraw c s else s
  takeSettledVerdict c (judged.settledVerdict c) judged

theorem takeConversion_eq (code : BitVec 10) (s : State) :
    takeConversion code s = takeVerdicts s.scan.channel (convertChannel s.scan.channel code s) := rfl

theorem takeVerdicts_overdrawn {c : Cage} {s : State} (drawn : s.overdrawn c = true) :
    takeVerdicts c s = enterFaulted c .overdraw s := by
  have powered : (s.cage c).state.powered = true := (Bool.and_eq_true_iff.1 drawn).1
  rw [takeVerdicts, if_pos drawn, takeOverdraw, if_pos powered]
  exact takeSettledVerdict_unpowered (by rw [enterFaulted_cage]; rfl) _

theorem takeVerdicts_settles {c : Cage} {s : State} (not : s.overdrawn c = false) :
    takeVerdicts c s = takeSettledVerdict c (s.settledVerdict c) s := by
  rw [takeVerdicts, not]
  rfl

theorem enterFaulted_cageScan (c : Cage) (cause : FaultCause) (s : State) :
    (enterFaulted c cause s).cageScan c = s.cageScan c := by
  rw [enterFaulted, moveCage_cageScan]
  rfl

theorem takeSettledVerdict_leaves (c : Cage) (verdict : Bool) (s : State) :
    OnlyCage c s (takeSettledVerdict c verdict s) ∧ (takeSettledVerdict c verdict s).scan = s.scan ∧
    (takeSettledVerdict c verdict s).penalties = s.penalties := by
  by_cases powered : (s.cage c).state.powered = true
  case neg =>
    rw [takeSettledVerdict_unpowered (Bool.eq_false_iff.2 powered)]
    exact ⟨.refl c s, rfl, rfl⟩
  by_cases trains : (s.cage c).state = .lightSettle ∧ (s.cage c).laneStable = true ∧ verdict = true
  · obtain ⟨settling, stable, rfl⟩ := trains
    rw [takeSettledVerdict_trains settling stable]
    have went := (updCage_goes c (fun k => { k with drawSettled := true }) s).trans
      (enterTrainAfresh_goes c (s.updCage c (fun k => { k with drawSettled := true })))
    exact ⟨went.only, went.scan, went.penalties⟩
  · rw [takeSettledVerdict_stays powered trains]
    exact ⟨updCage_onlyCage c _ s, rfl, rfl⟩

theorem takeVerdicts_leaves (c : Cage) (s : State) : OnlyCage c s (takeVerdicts c s) ∧
    (takeVerdicts c s).cageScan c = s.cageScan c ∧ (takeVerdicts c s).penalties = s.penalties := by
  cases drawn : s.overdrawn c with
  | true =>
    rw [takeVerdicts_overdrawn drawn]
    exact ⟨enterFaulted_onlyCage c _ s, enterFaulted_cageScan c _ s, (enterFaulted_frame _ _ _).2.2.2.1⟩
  | false =>
    rw [takeVerdicts_settles drawn]
    obtain ⟨only, scan, penalties⟩ := takeSettledVerdict_leaves c (s.settledVerdict c) s
    exact ⟨only, cageScan_congr (by rw [scan]) c, penalties⟩

theorem recorded.of_sample {s s' t : State} {c : Cage} {kind : EventKind} {before : CageState}
    {cause : Option FaultCause} {penalty : Nat} (h : recorded s' t c kind before cause penalty)
    (startup : s'.startup = s.startup) (sample : (s'.cageScan c).sample = (s.cageScan c).sample)
    (events : s'.events = s.events) : recorded s t c kind before cause penalty := by
  have made : ∀ number, madeRecord s' c number kind before cause penalty = madeRecord s c number kind before cause penalty :=
    fun number => by
      have conf : s'.conf = s.conf := by rw [State.conf, State.conf, startup]
      simp only [madeRecord, snapshotFor, startup, sample, conf]
  unfold recorded at h ⊢
  rwa [made, events] at h

/-- What the conversion of a channel leaves as its verdicts are handed on: the cage as it was, with its new history and
run count. -/
structure Noted (c : Cage) (run : Nat) (history : List Draw) (s u : State) : Prop where
  only     : OnlyCage c { s with scan := { s.scan with channel := c + 1 } } u
  scan     : u.cageScan c = { s.cageScan c with history := history, overRun := run }
  cage     : u.cage c = s.cage c
  claims   : u.claims = s.claims
  lines    : u.lines = s.lines
  units    : u.startup = s.startup ∧ u.events = s.events ∧ u.penalties = s.penalties

theorem noted_updScan (c : Cage) (run : Nat) (history : List Draw) (s : State) : Noted c run history s
    (({ s with scan := { s.scan with channel := c + 1 } } : State).updScan c (fun k =>
      { k with history := history, overRun := run })) where
  only := updScan_onlyCage c _ _
  scan := cageScan_updScan _ _ _
  cage := rfl
  claims := rfl
  lines := rfl
  units := ⟨rfl, rfl, rfl⟩

/-- Settles O15, by the run count, and where it is not 3 by whether the cage goes on to TRAIN. -/
theorem conversionTaken : Obligations.ConversionTaken := by
  intro code s free converting c d high run history verdict moved noted trains
  obtain ⟨t, answer, ends⟩ := eventNext_occurs (effect := takeConversion code) free converting
  have runs : nextRun (s.cage c).state (s.cage c).identity d (s.cageScan c).overRun = run := by
    show nextRun _ _ _ _ = if high then _ else _
    have known : high = match (s.cage c).identity with
      | some id => (s.cage c).state.powered && d.above (overdrawLimit (s.cage c).state id)
      | none => false := by
      simp only [overdrawLimit_eq]
      rfl
    rw [known]
    unfold nextRun
    cases (s.cage c).identity with
    | none => rfl
    | some id => rfl
  have effect : takeConversion code s = takeVerdicts c noted := by
    rw [takeConversion_eq, convertChannel_eq _ code s d rfl]
    exact congrArg (fun r => takeVerdicts c (moved.updScan c (fun k => { k with history := history, overRun := r }))) runs
  have judged : noted.settledVerdict c = verdict := by
    have held : (noted.cageScan c).history = history := congrArg CageScan.history (cageScan_updScan _ _ _)
    show (match (s.cage c).identity with | some id => _ | none => _) = (match (s.cage c).identity with | some id => _ | none => _)
    cases (s.cage c).identity with
    | none => rfl
    | some id => exact (congrArg (drawSettled id.pm) held).trans (drawSettled_eq id.pm history)
  have low : (s.cage c).state.powered = false → run = 0 := fun off => by
    have quiet : high = false := by
      show (match (s.cage c).identity with | some id => _ | none => _) = _
      cases (s.cage c).identity with
      | none => rfl
      | some id => rw [off]; rfl
    show (if high then _ else _) = _
    rw [quiet]
    rfl
  have facts : Noted c run history s noted := noted_updScan c run history s
  have drawn : noted.overdrawn c = ((s.cage c).state.powered && decide (run = 3)) := by
    rw [State.overdrawn, facts.scan, facts.cage]
  rw [effect] at ends
  clear_value noted run verdict history
  obtain ⟨startup, events, penalties⟩ := facts.units
  have conf : noted.conf = s.conf := by rw [State.conf, State.conf, startup]
  obtain ⟨u, effect, only, scan, kept⟩ : ∃ u, takeVerdicts c noted = u ∧ OnlyCage c moved u ∧
      u.cageScan c = noted.cageScan c ∧ u.penalties = noted.penalties := by
    obtain ⟨only, scan, kept⟩ := takeVerdicts_leaves c noted
    exact ⟨_, rfl, facts.only.trans only, scan, kept⟩
  rw [effect] at ends
  have after := ends.onlyCage only
  refine ⟨t, answer, after, after.converter.1.trans converting, ?_, (ends.cageScan c).trans (scan.trans facts.scan),
    (ends.penalty c).trans (penalty_congr (kept.trans penalties) c), fun off => ⟨low off, ?_⟩,
    fun powered three => ?_, fun powered other stays => ?_, fun other goes => ?_⟩
  · rw [after.converter.2]
    exact Fin.val_add c 1
  · have quiet : noted.overdrawn c = false := by rw [drawn, off]; rfl
    have none : takeVerdicts c noted = noted := (takeVerdicts_settles quiet).trans
      (takeSettledVerdict_unpowered (by rw [facts.cage]; exact off) _)
    rwa [← effect, none] at ends
  · rw [← effect, takeVerdicts_overdrawn (by rw [drawn, powered, three]; rfl)] at ends
    have record := (enterFaulted_cage c .overdraw noted).trans (congrArg _ facts.cage)
    refine ⟨(ends.cage_eq (by rw [record]; rfl)).trans record, ?_, ?_, fun old confirmed unlisted => ?_⟩
    · rw [ends.line, ← line_congr facts.lines c]
      exact enterFaulted_took c .overdraw noted
    · have made := (recorded_enterFaulted c .overdraw noted).congr ends.same.events
      rw [facts.cage, penalty_congr penalties c] at made
      exact made.of_sample startup (by rw [facts.scan]) events
    · have claims := enterFaulted_released (s := noted) (cause := .overdraw) (by rwa [facts.cage])
        (by rwa [claim_congr facts.claims c])
      obtain ⟨pending, left⟩ := ends.released claims
      rw [claim_congr facts.claims c] at pending left
      rw [facts.claims] at pending
      exact ⟨left unlisted, pending⟩
  · have quiet : noted.overdrawn c = false := by rw [drawn, decide_eq_false other, Bool.and_false]
    rw [← effect, takeVerdicts_settles quiet, judged, takeSettledVerdict_stays (by rwa [facts.cage])
      (by rw [facts.cage]; exact stays)] at ends
    refine ⟨ends.recordIs ?_, ends⟩
    have record := (updCage_goes c (fun k => { k with drawSettled := verdict }) noted).record
    rwa [facts.cage] at record
  · obtain ⟨settling, stable, yes⟩ := goes
    have quiet : noted.overdrawn c = false := by rw [drawn, decide_eq_false other, Bool.and_false]
    rw [← effect, takeVerdicts_settles quiet, judged, yes, takeSettledVerdict_trains (by rwa [facts.cage])
      (by rw [facts.cage]; exact stable)] at ends
    have went := (updCage_goes c (fun k => { k with drawSettled := true }) noted).trans
      (enterTrainAfresh_goes c (noted.updCage c (fun k => { k with drawSettled := true })))
    have record := ends.recordIs went.record
    obtain ⟨pending, left⟩ := ends.released
      (enterTrainAfresh_released (s := noted.updCage c (fun k => { k with drawSettled := true }))
        (by rw [cage_updCage, facts.cage]; exact settling))
    have claim : (noted.updCage c (fun k => { k with drawSettled := true })).claim c = s.claim c :=
      claim_congr (s := s) facts.claims c
    have total : (noted.updCage c (fun k => { k with drawSettled := true })).claims = s.claims := facts.claims
    have source : tookSource .sequencer (s.line c) ((enterTrainAfresh c (noted.updCage c
        (fun k => { k with drawSettled := true }))).line c) := by
      rw [← line_congr facts.lines c]
      exact enterTrainAfresh_took c (noted.updCage c (fun k => { k with drawSettled := true }))
    rw [claim] at pending left
    rw [total] at pending
    rw [cage_updCage, facts.cage, line_updCage, line_congr facts.lines c] at record
    refine ⟨record.congr ?_, ?_, ends.same.events.trans (went.events.trans events), pending, left⟩
    · rw [show (noted.updCage c (fun k => { k with drawSettled := true })).conf = s.conf from conf]
    · rw [ends.line]
      exact source

end Sys2Proof.Machine
end

section
/-! PROOF. The end of the chunk that ends its request, and the outcome on its way to the requester (R117, R118, R123,
R124). -/

namespace Sys2Proof.Machine

/-- The state in which the outcome of a request is handed on: its chunk is over, and it has left its slot. -/
def State.chunkOver (g : Seg) (k : Chunk) (state : LinkState) (s : State) : State :=
  s.updLink g (fun l => Link.setSlot k.slot none
    { l with state := state, chunk := none, stretch := none, retryTimer := none })

section
variable {g : Seg} {k : Chunk} {r : LinkRequest} {s : State}

theorem inProgress_of_going (going : k.ending = .none) (held : (s.link g).inSlot k.slot = some r) :
    (s.link g).inProgress k = some r := by
  rw [Link.inProgress, going]
  exact held

theorem endRequest_going (going : k.ending = .none) (held : (s.link g).inSlot k.slot = some r) (state : LinkState)
    (outcome : LinkOutcome) : endRequest g k state false outcome s = (s.chunkOver g k state, [⟨r, outcome⟩]) := by
  simp only [endRequest, inProgress_of_going going held]
  rfl

/-- The last chunk of a request ends DONE: the request ends with its bytes (R118). -/
theorem chunkDone_ends {data : List Byte} (free : s.startup.resetHeld = false) (trying : (s.link g).state = .chunk)
    (chunk : (s.link g).chunk = some k) (going : k.ending = .none) (fits : k.isWrite = true ∨ data.length = k.length)
    (held : (s.link g).inSlot k.slot = some r) (last : r.length ≤ 8 * r.nextChunk) :
    ∃ t, exec (.chunkDone g data) s = .next t ∧ EndsAs (deliver (s.chunkOver g k .idle)
      ⟨r, .done (r.bytes ++ if k.isWrite then [] else data)⟩) t := by
  have ended : tryCompletes g data s =
      (s.chunkOver g k .idle, [⟨r, .done (r.bytes ++ if k.isWrite then [] else data)⟩]) := by
    have last : (r.addBytes (k.brings data)).lastChunk = true := decide_eq_true last
    simp only [tryCompletes, trying, chunk, going, if_true, chunkCompletes, inProgress_of_going going held, last]
    exact endRequest_going going held .idle _
  have effect : deliverAll (tryCompletes g data s) = deliver (s.chunkOver g k .idle)
      ⟨r, .done (r.bytes ++ if k.isWrite then [] else data)⟩ := by
    rw [ended]
    rfl
  have := eventNext_occurs (effect := fun s => deliverAll (tryCompletes g data s)) free
    (show s.canComplete g data = true by
      rw [State.canComplete, chunk]
      simp only [trying, Chunk.fits, going, Bool.or_eq_true, Bool.and_eq_true, decide_eq_true_eq]
      exact ⟨trivial, .inl fits⟩)
  rwa [effect] at this

/-- A try that fails for good ends its request: with NO-RESPONSE at a NAK on try 3, and by a stretch timeout, which takes
the segment to RECOVERY (R123, R124). -/
theorem tryLost_ends {i : Instr} (free : s.startup.resetHeld = false) (trying : (s.link g).state = .chunk)
    (chunk : (s.link g).chunk = some k) (going : k.ending = .none) (held : (s.link g).inSlot k.slot = some r)
    (lost : tryLost i s g k) : ∃ t state outcome, exec i s = .next t ∧
      EndsAs (deliver (s.chunkOver g k state) ⟨r, outcome⟩) t ∧
      (outcome = .noResponse ∨ outcome = .stretchTimeout) ∧ (i = .stretchTimeout g → state = .recovery) := by
  have runs : s.trying g = true := by rw [State.trying, trying, chunk]; rfl
  rcases lost with ⟨rfl, third⟩ | ⟨rfl, stretched⟩
  · have effect : deliverAll (tryFails g s) = deliver (s.chunkOver g k .idle) ⟨r, .noResponse⟩ := by
      simp only [tryFails, trying, chunk, going, ne_eq, not_true_eq_false, if_false, if_neg (Nat.not_lt.2 third)]
      rw [endRequest_going going held]
      rfl
    obtain ⟨t, answer, ends⟩ := eventNext_occurs (effect := fun s => deliverAll (tryFails g s)) free runs
    rw [effect] at ends
    exact ⟨t, _, _, answer, ends, .inl rfl, nofun⟩
  · have effect : deliverAll (stretchEnds g s) = deliver (s.chunkOver g k .recovery) ⟨r, .stretchTimeout⟩ := by
      simp only [stretchEnds, trying, chunk, going, if_true]
      rw [endRequest_going going held]
      rfl
    obtain ⟨t, answer, ends⟩ := eventNext_occurs (effect := fun s => deliverAll (stretchEnds g s)) free
      (show (s.trying g && (s.link g).stretch.isSome) = true by rw [runs, stretched]; rfl)
    rw [effect] at ends
    exact ⟨t, _, _, answer, ends, .inr rfl, fun _ => rfl⟩

/-! ### The state in which the outcome is handed on -/

variable {state : LinkState}

theorem chunkOver_onlyCage (c : Cage) (g : Seg) (k : Chunk) (state : LinkState) (s : State) :
    OnlyCage c s (s.chunkOver g k state) := updLink_onlyCage c g _ s

theorem chunkOver_link (g : Seg) (k : Chunk) (state : LinkState) (s : State) :
    ((s.chunkOver g k state).link g).state = state ∧ ((s.chunkOver g k state).link g).chunk = none ∧
    ((s.chunkOver g k state).link g).inSlot k.slot = none := by
  rw [State.chunkOver, link_updLink]
  refine ⟨?_, ?_, inSlot_setSlot_same _ _ _⟩
  all_goals cases k.slot <;> rfl

theorem chunkOver_crsSlot {c : Cage} (slot : k.slot = .crs c) (segment : segOf c = g) :
    (s.chunkOver g k state).crsSlot c = none := by
  subst segment
  rw [State.crsSlot, ← slot]
  exact (chunkOver_link (segOf c) k state s).2.2

end
end Sys2Proof.Machine
end

section
/-! PROOF. The identity reads (R15 to R18, R38, R39, R45, R46, R111). -/

namespace Sys2Proof.Machine

variable {c : Cage} {s u t : State}

/-! ### LIGHT-SETTLE entered (R22) -/

theorem startSettling_asks (c : Cage) (u : State) :
    ⟨.txDisable, 0, ((startSettling c u).cage c).visit⟩ ∈ ((startSettling c u).cage c).requests := by
  have cleared : (clearWindows c (wantTx c 0 u)).cage c = (wantTx c 0 u).cage c := cage_congr (by simp) c
  rw [startSettling, cage_updCage, cleared, wantTx_cage]
  exact mem_addRequest _ _

theorem enterLightSettle_onlyCage (c : Cage) (s : State) : OnlyCage c s (enterLightSettle c s) :=
  (moveCage_onlyCage c .lightSettle .none s).trans (startSettling_onlyCage c _)

theorem enterLightSettle_record (c : Cage) (s : State) :
    (enterLightSettle c s).recordIs c ((s.cage c).inSettle s.conf .lightSettle) := by
  have record : (moveCage c .lightSettle .none s).cage c = { s.cage c with
      state := .lightSettle, timers := { noTimers with settle := some s.conf.settleTimeout },
      visit := (s.cage c).visit + 1, cause := .none } := by
    rw [moveCage_cage]
    rfl
  have settling := (startSettling_shows c (moveCage c .lightSettle .none s)).1
  rw [State.recordIs, record] at settling
  exact settling

theorem enterLightSettle_windows (c : Cage) (s : State) :
    ((enterLightSettle c s).cageScan c) = (s.cageScan c).clearWindows := by
  have scan := congrArg ScanUnit.cages (moveCage_scan_of_powered (new := .lightSettle) c .none s rfl)
  rw [enterLightSettle, (startSettling_shows c (moveCage c .lightSettle .none s)).2, cageScan_congr scan c]

/-- The units that LIGHT-SETTLE leaves alone, and the claim hand-off before it (R5). -/
theorem enterLightSettle_units (c : Cage) (s : State) : (enterLightSettle c s).events = s.events ∧
    (enterLightSettle c s).penalties = s.penalties ∧ ((enterLightSettle c s).line c).present = (s.line c).present ∧
    (enterLightSettle c s).claims = (claimHandOff c (s.cage c).state .lightSettle s).claims := by
  have lines : (enterLightSettle c s).lines = (moveCage c .lightSettle .none s).lines := by simp [enterLightSettle]
  have went := moveCage_goes (c := c) (new := .lightSettle) s rfl
  refine ⟨?_, ?_, ?_, ?_⟩
  · rw [← went.events]; simp [enterLightSettle]
  · rw [← went.penalties]; simp [enterLightSettle]
  · rw [line_congr lines c]; exact went.present
  · rw [← moveCage_claimUnit c .lightSettle .none s]; simp [enterLightSettle]

/-! ### An identity read asked for again (R15, R39) -/

theorem identityRead_transaction (c : Cage) (value : Byte) (visit : Nat) :
    crsTransaction c ⟨.identityRead, value, visit⟩ = readRequest (.crs ⟨.identityRead, value, visit⟩ false) c 0 32 := rfl

theorem readIdentity_cage (c : Cage) (s : State) : (readIdentity c s).cage c = { s.cage c with
    identReads := (s.cage c).identReads + 1,
    requests := addRequest ⟨.identityRead, 0, (s.cage c).visit⟩ (s.cage c).requests } := by
  rw [readIdentity, ask, cage_updCage, cage_updCage]

/-- What another identity read leaves of its cage at the end of the event (R15, R39). -/
structure ReadAgain (c : Cage) (s t : State) : Prop where
  record : t.recordIs c { s.cage c with identReads := (s.cage c).identReads + 1 }
  events : t.events = s.events
  asks   : (s.line c).present = true → t.asksIdentity c
  alone  : (s.line c).present = true → s.crsSlot c = none → (s.cage c).requests = [] →
    (t.cage c).requests = [] ∧ t.carries c ⟨.identityRead, 0, (s.cage c).visit⟩ 0 32 none

theorem readIdentity_again (ends : EndsAs (readIdentity c s) t) : ReadAgain c s t where
  record := by
    have record := ends.cage c
    rw [readIdentity_cage] at record
    exact record
  events := ends.same.events
  asks present := by
    have visit : (t.cage c).visit = (s.cage c).visit := by rw [ends.cage c, readIdentity_cage]
    rw [State.asksIdentity, visit]
    exact ends.asks (by rw [readIdentity_cage]; exact mem_addRequest _ _) present (identityRead_transaction c 0 _)
  alone present free none :=
    ends.handsOver free (by rw [readIdentity_cage, none]; rfl) present (identityRead_transaction c 0 _)

/-- What a fault leaves of its cage at the end of the event (R11). -/
theorem enterFaulted_ends {cause : FaultCause} (ends : EndsAs (enterFaulted c cause s) t) :
    t.cage c = (s.cage c).inFault cause ∧ t.penalty c = s.penalty c ∧
    recorded s t c .fault (s.cage c).state (some cause) (s.penalty c).value := by
  have record := enterFaulted_cage c cause s
  exact ⟨(ends.cage_eq (by rw [record]; rfl)).trans record,
    (ends.penalty c).trans (penalty_congr (enterFaulted_frame _ _ _).2.2.2.1 c),
    (recorded_enterFaulted c cause s).congr ends.same.events⟩

/-- What an identity read that failed in IDENTIFY leaves at the end of the event (R15). -/
structure IdentityFailed (c : Cage) (cause : FaultCause) (s t : State) : Prop where
  only    : OnlyCage c s t
  penalty : t.penalty c = s.penalty c
  again   : (s.cage c).identReads < 3 → ReadAgain c s t
  third   : 3 ≤ (s.cage c).identReads → t.cage c = (s.cage c).inFault cause ∧
    recorded s t c .fault (s.cage c).state (some cause) (s.penalty c).value

theorem identityFailed_ends {cause : FaultCause} (ends : EndsAs (identityFailed c cause s) t) :
    IdentityFailed c cause s t := by
  unfold identityFailed at ends
  split at ends
  next few => exact ⟨ends.onlyCage (readIdentity_onlyCage c s), ends.penalty c, fun _ => readIdentity_again ends,
    fun three => absurd few (Nat.not_lt.2 three)⟩
  next three =>
    obtain ⟨record, penalty, made⟩ := enterFaulted_ends ends
    exact ⟨ends.onlyCage (enterFaulted_onlyCage c cause s), penalty, fun few => absurd few three,
      fun _ => ⟨record, made⟩⟩

/-- What an adoption read that failed leaves at the end of the event (R39). -/
structure AdoptionFailed (c : Cage) (s t : State) : Prop where
  only    : OnlyCage c s t
  penalty : t.penalty c = s.penalty c
  again   : (s.cage c).identReads < 3 → ReadAgain c s t
  third   : 3 ≤ (s.cage c).identReads → t.cage c = (s.cage c).inFault .linkError ∧
    t.events.histories[c] = (madeRecord s c ((s.events.nextSequence + 1) % 65536) .fault (s.cage c).state
        (some .linkError) (s.penalty c).value ::
      madeRecord s c s.events.nextSequence .adopted .adopt none (s.penalty c).value ::
      s.events.histories[c]).take 4

theorem adoptionFailed_ends (ends : EndsAs (adoptionFailed c s) t) : AdoptionFailed c s t := by
  unfold adoptionFailed at ends
  split at ends
  next few => exact ⟨ends.onlyCage (readIdentity_onlyCage c s), ends.penalty c, fun _ => readIdentity_again ends,
    fun three => absurd few (Nat.not_lt.2 three)⟩
  next three =>
    have events : (enterFaulted c .linkError (handAdopted c s)).events =
        (handRecord c .fault (s.cage c).state (some .linkError) (handRecord c .adopted .adopt none s)).events := by
      simp only [enterFaulted, moveCage_frame, handAdopted]
      rfl
    refine ⟨ends.onlyCage ((handRecord_onlyCage c _ _ _ s).trans (enterFaulted_onlyCage c _ (handAdopted c s))),
      (enterFaulted_ends ends).2.1, fun few => absurd few three, fun _ => ⟨(enterFaulted_ends ends).1, ?_⟩⟩
    rw [ends.same.events, events, history_handRecord_twice]

/-! ### An adoption read that succeeded (R39, R45) -/

/-- The identity record that a block makes (R17, R131). -/
theorem identityOf_eq (k : Settings) (block : List Byte) : identityOf k block =
    ⟨(byteAt block 2).toNat, (byteAt block 3).toNat * 256 + (byteAt block 4).toNat, (block.drop 5).take 16,
      max 1 (min 4095 ((((byteAt block 3).toNat * 256 + (byteAt block 4).toNat) * k.surgeFactor + 15) / 16))⟩ := rfl

theorem contentPossible_iff (block : List Byte) : contentPossible block = true ↔ declaresPossible block :=
  decide_eq_true_iff

/-- The cage with its identity record and the ADOPTED record made. -/
def identified (c : Cage) (id : Identity) (s : State) : State := handAdopted c (keepIdentity c id s)

theorem identified_cage (c : Cage) (id : Identity) (s : State) :
    (identified c id s).cage c = { s.cage c with identity := some id } := cage_updCage _ _ _

theorem identified_onlyCage (c : Cage) (id : Identity) (s : State) : OnlyCage c s (identified c id s) :=
  (updCage_onlyCage c _ s).trans (handRecord_onlyCage c _ _ _ _)

theorem recorded_identified (c : Cage) (id : Identity) (s : State) :
    recorded s (identified c id s) c .adopted .adopt none (s.penalty c).value :=
  recorded_handRecord c .adopted .adopt none (keepIdentity c id s)

/-- What a good adoption read leaves of its cage at the end of the event (R39, R45). -/
structure AdoptionPlaced (c : Cage) (id : Identity) (s t : State) : Prop where
  only    : OnlyCage c s t
  penalty : t.penalty c = s.penalty c
  made    : recorded s t c .adopted .adopt none (s.penalty c).value
  service : s.latchedAdmit c = true → (s.line c).link = true →
    t.recordIs c { s.cage c with
      state := .inService, timers := noTimers, cause := .none, identity := some id, visit := (s.cage c).visit + 1 } ∧
    (s.claims.testDue = false → t.claims = s.claims)
  settles : s.latchedAdmit c = false ∨ (s.line c).link = false →
    t.recordIs c (({ s.cage c with identity := some id } : CageRecord).inSettle s.conf .lightSettle) ∧
    ((s.line c).present = true → t.asksTx c 0) ∧
    t.claim c = { s.claim c with state := .confirmed, draw := id.draw } ∧
    t.claims.committed = s.claims.committed + id.draw

theorem placed_inService {id : Identity} (adopt : (s.cage c).state = .adopt) (asserted : s.latchedAdmit c = true)
    (link : (s.line c).link = true) (ends : EndsAs (moveCage c .inService .none (identified c id s)) t) :
    AdoptionPlaced c id s t := by
  have went := moveCage_goes (c := c) (new := .inService) (identified c id s) rfl
  have record := went.record
  rw [identified_cage] at record
  have claims : (moveCage c .inService .none (identified c id s)).claims = s.claims := by
    have state : ((identified c id s).cage c).state = .adopt := by rw [identified_cage]; exact adopt
    rw [moveCage_claimUnit, state]
    rfl
  exact {
    only := ends.onlyCage ((identified_onlyCage c id s).trans went.only)
    penalty := (ends.penalty c).trans (penalty_congr went.penalties c)
    made := (recorded_identified c id s).congr (ends.same.events.trans went.events)
    service := fun _ _ => ⟨(ends.recordIs record).congr rfl, fun untested => by
      rw [← claims]
      exact (ends.untested (by rw [claims]; exact untested)).1⟩
    settles := fun off => by rcases off with off | off <;> simp_all }

theorem adoptClaim_claim (c : Cage) (draw : Nat) (s : State) :
    (adoptClaim c draw s).claim c = { s.claim c with state := .confirmed, draw := draw } :=
  claim_updClaim s c _

theorem placed_lightSettle {id : Identity} (adopt : (s.cage c).state = .adopt)
    (off : ¬ (s.latchedAdmit c = true ∧ (s.line c).link = true))
    (ends : EndsAs (enterLightSettle c (adoptClaim c id.draw (identified c id s))) t) : AdoptionPlaced c id s t := by
  obtain ⟨events, penalties, present, claims⟩ := enterLightSettle_units c (adoptClaim c id.draw (identified c id s))
  have record := ends.recordIs (enterLightSettle_record c (adoptClaim c id.draw (identified c id s)))
  have cage : (adoptClaim c id.draw (identified c id s)).cage c = { s.cage c with identity := some id } :=
    identified_cage c id s
  rw [cage] at record claims
  rw [adopt] at claims
  have adopted : (enterLightSettle c (adoptClaim c id.draw (identified c id s))).claim c =
      { s.claim c with state := .confirmed, draw := id.draw } :=
    (claim_congr claims c).trans (adoptClaim_claim c id.draw (identified c id s))
  have only : OnlyCage c (identified c id s) (adoptClaim c id.draw (identified c id s)) :=
    (updClaim_onlyCage c _ _).trans (updClaims_onlyCage c _ _ ⟨rfl, rfl, rfl, rfl⟩)
  exact {
    only := ends.onlyCage (((identified_onlyCage c id s).trans only).trans (enterLightSettle_onlyCage c _))
    penalty := (ends.penalty c).trans (penalty_congr penalties c)
    made := (recorded_identified c id s).congr (ends.same.events.trans events)
    service := fun asserted link => absurd ⟨asserted, link⟩ off
    settles := fun _ => ⟨record, fun here => ends.asksTx (startSettling_asks c _) (present.trans here),
      (ends.keepsClaim (by rw [adopted]; nofun)).trans adopted,
      ends.totals.1.trans (congrArg ClaimUnit.committed claims)⟩ }

theorem placeAdopted_ends {block : List Byte} (adopt : (s.cage c).state = .adopt)
    (ends : EndsAs (placeAdopted c block s) t) : AdoptionPlaced c (identityOf s.conf block) s t := by
  have admits : (identified c (identityOf s.conf block) s).latchedAdmit c = s.latchedAdmit c := rfl
  have effect : placeAdopted c block s =
      if s.latchedAdmit c && (s.line c).link then moveCage c .inService .none (identified c (identityOf s.conf block) s)
      else enterLightSettle c (adoptClaim c (identityOf s.conf block).draw (identified c (identityOf s.conf block) s)) := rfl
  rw [effect] at ends
  split at ends
  next on =>
    obtain ⟨asserted, link⟩ := Bool.and_eq_true_iff.1 on
    exact placed_inService adopt asserted link ends
  next off => exact placed_lightSettle adopt (fun h => off (Bool.and_eq_true_iff.2 h)) ends

/-! ### The outcome of an identity read in its visit (R4, R9) -/

theorem crsTry_delivers {r : LinkRequest} {q : CrsRequest} {discard : Bool}
    (origin : r.origin = .crs q discard) (cage : r.cage = c) (outcome : LinkOutcome) (v : State) :
    deliver v ⟨r, outcome⟩ = crsOutcome c q discard outcome v := by
  simp only [deliver, origin, cage]

/-- Where the cage is not powered no link failure is counted (R9). -/
theorem crsOutcome_unpowered {q : CrsRequest} {outcome : LinkOutcome} (off : (s.cage c).state.powered = false)
    (other : outcome ≠ .absent) : crsOutcome c q false outcome s = actOnOutcome c q outcome s := by
  rw [crsOutcome, if_neg other]
  simp only [countFailure, off]
  rfl

theorem identityRead_taken {q : CrsRequest} {outcome : LinkOutcome} (kind : q.kind = .identityRead)
    (visit : (s.cage c).visit = q.visit) (off : (s.cage c).state.powered = false) (other : outcome ≠ .absent) :
    crsOutcome c q false outcome s = actOnIdentity c outcome s := by
  rw [crsOutcome_unpowered off other]
  simp only [actOnOutcome, kind, visit, decide_true, if_true]

theorem identifyRead_taken {q : CrsRequest} {outcome : LinkOutcome} (kind : q.kind = .identityRead)
    (visit : (s.cage c).visit = q.visit) (identify : (s.cage c).state = .identify) (other : outcome ≠ .absent) :
    crsOutcome c q false outcome s = identityEnds c outcome s := by
  rw [identityRead_taken kind visit (by rw [identify]; rfl) other]
  simp only [actOnIdentity, identify]

theorem adoptionRead_taken {q : CrsRequest} {outcome : LinkOutcome} (kind : q.kind = .identityRead)
    (visit : (s.cage c).visit = q.visit) (adopt : (s.cage c).state = .adopt) (other : outcome ≠ .absent) :
    crsOutcome c q false outcome s = adoptionEnds c outcome s := by
  rw [identityRead_taken kind visit (by rw [adopt]; rfl) other]
  simp only [actOnIdentity, adopt]

end Sys2Proof.Machine
end

section
/-! PROOF. The ends of an identity read in IDENTIFY and in ADOPT (R15 to R18, R39, R46, R111, R123, R124). -/

namespace Sys2Proof.Machine

section
variable {i : Instr} {g : Seg} {k : Chunk} {r : LinkRequest} {q : CrsRequest} {c : Cage} {s : State}

/-! ### The outcome on its way to the sequencer -/

/-- A lost try of a CRS transaction hands its failure to the sequencer. -/
theorem crsTry_lost {discard : Bool} (try_ : CrsTry s g k r q discard c) (lost : tryLost i s g k) :
    ∃ t state outcome, exec i s = .next t ∧ EndsAs (crsOutcome c q discard outcome (s.chunkOver g k state)) t ∧
      (outcome = .noResponse ∨ outcome = .stretchTimeout) ∧ (i = .stretchTimeout g → state = .recovery) := by
  have held : (s.link g).inSlot k.slot = some r := by
    rw [try_.slot, ← try_.segment]
    exact try_.held
  obtain ⟨t, state, outcome, answer, ends, failure, recovery⟩ :=
    tryLost_ends try_.free try_.trying try_.chunk try_.going held lost
  rw [crsTry_delivers try_.origin try_.cage] at ends
  exact ⟨t, state, outcome, answer, ends, failure, recovery⟩

theorem CrsTry.inSlot {discard : Bool} (try_ : CrsTry s g k r q discard c) : (s.link g).inSlot k.slot = some r := by
  rw [try_.slot, ← try_.segment]
  exact try_.held

/-- The last chunk of a read hands the bytes of the request to the sequencer. -/
theorem crsTry_readEnded {discard : Bool} {data : List Byte} (try_ : CrsTry s g k r q discard c)
    (ended : readEnded k r data) : ∃ t, exec (.chunkDone g data) s = .next t ∧
      EndsAs (crsOutcome c q discard (.done (r.bytes ++ data)) (s.chunkOver g k .idle)) t := by
  obtain ⟨read, fits, last⟩ := ended
  obtain ⟨t, answer, ends⟩ := chunkDone_ends try_.free try_.trying try_.chunk try_.going (.inr fits) try_.inSlot last
  rw [read, crsTry_delivers try_.origin try_.cage] at ends
  exact ⟨t, answer, ends⟩

/-! ### A failure in IDENTIFY (R15) -/

theorem identityRead_fails {cause : FaultCause} (try_ : CrsTry s g k r q false c) (kind : q.kind = .identityRead)
    (identify : (s.cage c).state = .identify) (visit : (s.cage c).visit = q.visit)
    (failure : (cause = .identUnreadable ∧ tryLost i s g k) ∨
      (cause = .identInvalid ∧ ∃ data, i = .chunkDone g data ∧ readEnded k r data ∧
        identityCheckGood (r.bytes ++ data) = false)) :
    ∃ t state, exec i s = .next t ∧ EndsAs (identityFailed c cause (s.chunkOver g k state)) t ∧
      (i = .stretchTimeout g → state = .recovery) := by
  rcases failure with ⟨rfl, lost⟩ | ⟨rfl, data, rfl, ended, bad⟩
  · obtain ⟨t, state, outcome, answer, ends, failure, recovery⟩ := crsTry_lost try_ lost
    refine ⟨t, state, answer, ?_, recovery⟩
    rw [identifyRead_taken (s := s.chunkOver g k state) kind visit identify
      (by rcases failure with rfl | rfl <;> nofun)] at ends
    rcases failure with rfl | rfl
    · exact ends
    · exact ends
  · obtain ⟨t, answer, ends⟩ := crsTry_readEnded try_ ended
    rw [identifyRead_taken (s := s.chunkOver g k .idle) kind visit identify (outcome := .done (r.bytes ++ data)) nofun] at ends
    simp only [identityEnds, bad] at ends
    exact ⟨t, .idle, answer, ends, nofun⟩

/-! ### A segment that goes its way while a cage moves -/

/-- What the requests of the cages and of the scanner do not touch of a segment. -/
def Link.course (l : Link) : LinkState × Option Chunk × Option Cage × Timer × Timer × Option LinkRequest :=
  (l.state, l.chunk, l.selected, l.stretch, l.retryTimer, l.passThrough)

theorem setSlot_course (slot : Slot) (r : Option LinkRequest) (l : Link) (other : slot ≠ .passThrough) :
    (l.setSlot slot r).course = l.course := by
  cases slot
  case passThrough => exact absurd rfl other
  all_goals rfl

theorem course_congr {v w : State} (links : w.links = v.links) (h : Seg) : (w.link h).course = (v.link h).course := by
  rw [State.link, State.link, links]

theorem updLink_course {f : Link → Link} (kept : ∀ l, (f l).course = l.course) (g h : Seg) (s : State) :
    ((s.updLink g f).link h).course = (s.link h).course := by
  by_cases same : h = g
  · subst same
    rw [link_updLink, kept]
  · rw [link_updLink_other s g h f same]

theorem withdrawCrs_course (c : Cage) (h : Seg) (s : State) : ((withdrawCrs c s).link h).course = (s.link h).course := by
  unfold withdrawCrs
  split
  · split
    all_goals exact updLink_course (fun l => setSlot_course (.crs c) _ l nofun) _ h s
  · rfl

theorem dropScanOf_course (c : Cage) (h : Seg) (s : State) : ((dropScanOf c s).link h).course = (s.link h).course := by
  unfold dropScanOf discardScan
  split
  · split
    · split
      · rfl
      · exact updLink_course (fun l => setSlot_course .scanner _ l nofun) _ h
          (s.updScanner (segOf c) (Scanner.ended .idle))
    · rfl
  · rfl

/-- What the move of a cage does at its arbiter and its scanner: it discards the scan of a cage that leaves the rota, and
empties the list of one whose new state empties it (R7, R135, R139). -/
def leaveArbiter (c : Cage) (new : CageState) (v : State) : State :=
  let dropped := if new.powered then v else dropScanOf c v
  if new.emptiesList then emptyRequests c dropped else dropped

theorem moveCage_links (c : Cage) (new : CageState) (cause : FaultCause) (s : State) :
    (moveCage c new cause s).links = (leaveArbiter c new (claimHandOff c (s.cage c).state new s)).links := by
  unfold moveCage
  dsimp only
  split <;> split <;> simp <;> rfl

theorem leaveArbiter_course (c : Cage) (new : CageState) (h : Seg) (v : State) :
    ((leaveArbiter c new v).link h).course = (v.link h).course := by
  have dropped : ((if new.powered then v else dropScanOf c v : State).link h).course = (v.link h).course := by
    split
    · rfl
    · exact dropScanOf_course c h v
  unfold leaveArbiter
  dsimp only
  generalize (if new.powered then v else dropScanOf c v : State) = w at *
  split
  · exact (withdrawCrs_course c h (w.updCage c (fun k => { k with requests := [] }))).trans dropped
  · exact dropped

theorem moveCage_course (c : Cage) (new : CageState) (cause : FaultCause) (h : Seg) (s : State) :
    ((moveCage c new cause s).link h).course = (s.link h).course :=
  (course_congr (moveCage_links c new cause s) h).trans ((leaveArbiter_course c new h _).trans
    (course_congr (by simp) h))

theorem identityFailed_course (c : Cage) (cause : FaultCause) (h : Seg) (s : State) :
    ((identityFailed c cause s).link h).course = (s.link h).course := by
  unfold identityFailed
  split
  · rfl
  · exact moveCage_course c .faulted cause h (handRecord c .fault (s.cage c).state (some cause) s)

theorem recovery_stays {t v : State} (ends : EndsAs v t) (state : (v.link g).state = .recovery)
    (chunk : (v.link g).chunk = none) : (t.link g).state = .recovery ∧ (t.link g).chunk = none := by
  have same := ends.busy (g := g) (by rw [state]; nofun)
  exact ⟨(congrArg Link.state same).trans state, (congrArg Link.chunk same).trans chunk⟩

/-! ### A failure in ADOPT, and a good read there (R39) -/

/-- A block that an adoption read takes: its check byte is good, and its lane count and Pm are possible (R39). -/
theorem goodBlock_iff (block : List Byte) : (identityCheckGood block && contentPossible block) = true ↔
    identityCheckGood block = true ∧ declaresPossible block := by
  rw [Bool.and_eq_true, contentPossible_iff]

theorem adoptionRead_fails (try_ : CrsTry s g k r q false c) (kind : q.kind = .identityRead)
    (adopt : (s.cage c).state = .adopt) (visit : (s.cage c).visit = q.visit)
    (failure : tryLost i s g k ∨ ∃ data, i = .chunkDone g data ∧ readEnded k r data ∧
      ¬ (identityCheckGood (r.bytes ++ data) = true ∧ declaresPossible (r.bytes ++ data))) :
    ∃ t state, exec i s = .next t ∧ EndsAs (adoptionFailed c (s.chunkOver g k state)) t := by
  rcases failure with lost | ⟨data, rfl, ended, bad⟩
  · obtain ⟨t, state, outcome, answer, ends, failure, _⟩ := crsTry_lost try_ lost
    refine ⟨t, state, answer, ?_⟩
    rw [adoptionRead_taken (s := s.chunkOver g k state) kind visit adopt
      (by rcases failure with rfl | rfl <;> nofun)] at ends
    rcases failure with rfl | rfl
    · exact ends
    · exact ends
  · obtain ⟨t, answer, ends⟩ := crsTry_readEnded try_ ended
    rw [adoptionRead_taken (s := s.chunkOver g k .idle) kind visit adopt (outcome := .done (r.bytes ++ data)) nofun] at ends
    simp only [adoptionEnds, if_neg (mt (goodBlock_iff _).1 bad)] at ends
    exact ⟨t, .idle, answer, ends⟩

theorem adoptionRead_places {data : List Byte} (try_ : CrsTry s g k r q false c) (kind : q.kind = .identityRead)
    (adopt : (s.cage c).state = .adopt) (visit : (s.cage c).visit = q.visit) (ended : readEnded k r data)
    (good : identityCheckGood (r.bytes ++ data) = true ∧ declaresPossible (r.bytes ++ data)) :
    ∃ t, exec (.chunkDone g data) s = .next t ∧
      AdoptionPlaced c (identityOf s.conf (r.bytes ++ data)) (s.chunkOver g k .idle) t := by
  obtain ⟨t, answer, ends⟩ := crsTry_readEnded try_ ended
  rw [adoptionRead_taken (s := s.chunkOver g k .idle) kind visit adopt (outcome := .done (r.bytes ++ data)) nofun] at ends
  simp only [adoptionEnds, if_pos ((goodBlock_iff _).2 good)] at ends
  have placed := placeAdopted_ends (s := s.chunkOver g k .idle) adopt ends
  have conf : (s.chunkOver g k .idle).conf = s.conf := rfl
  rw [conf] at placed
  exact ⟨t, answer, placed⟩

theorem latchedAdmit_iff (s : State) (c : Cage) :
    s.latchedAdmit c = true ↔ ∃ l, (s.line c).latched = some l ∧ l.portAdmit = true := by
  unfold State.latchedAdmit
  cases (s.line c).latched <;> simp

theorem latchedAdmit_off {s : State} {c : Cage} (off : ∀ l, (s.line c).latched = some l → l.portAdmit = false) :
    s.latchedAdmit c = false := by
  unfold State.latchedAdmit
  cases latched : (s.line c).latched with
  | none => rfl
  | some l => exact off l latched

end

/-- Settles O25: the two failures in IDENTIFY, and the failures and the success in ADOPT, each by what its outcome
leaves. -/
theorem identityReadFails : Obligations.IdentityReadFails := by
  refine ⟨fun i g k r q c s cause try_ kind identify visit failure => ?_, fun i g k r q c s try_ kind adopt visit => ?_⟩
  · obtain ⟨t, state, answer, ends, recovery⟩ := identityRead_fails try_ kind identify visit failure
    obtain ⟨only, penalty, again, third⟩ := identityFailed_ends ends
    obtain ⟨state_, gone, _⟩ := chunkOver_link g k state s
    refine ⟨t, answer, (chunkOver_onlyCage c g k state s).trans only, penalty, fun timeout => ?_, fun few => ?_,
      fun three => ?_⟩
    · have course := identityFailed_course c cause g (s.chunkOver g k state)
      exact recovery_stays ends ((congrArg Prod.fst course).trans (state_.trans (recovery timeout)))
        ((congrArg (fun l => l.2.1) course).trans gone)
    · obtain ⟨record, events, asks, alone⟩ := again few
      exact ⟨record, events, asks, fun present none =>
        alone present (chunkOver_crsSlot try_.slot try_.segment) none⟩
    · obtain ⟨record, made⟩ := third three
      rw [show ((s.chunkOver g k state).cage c).state = .identify from identify] at made
      exact ⟨record, made⟩
  · intro lanes pm good id
    refine ⟨fun failure => ?_, fun data row ended fine => ?_⟩
    · obtain ⟨t, state, answer, ends⟩ := adoptionRead_fails try_ kind adopt visit failure
      obtain ⟨only, penalty, again, third⟩ := adoptionFailed_ends ends
      refine ⟨t, answer, (chunkOver_onlyCage c g k state s).trans only, penalty, fun few => ?_, fun three => ?_⟩
      · obtain ⟨record, events, asks, _⟩ := again few
        exact ⟨record, events, asks⟩
      · obtain ⟨record, made⟩ := third three
        rw [show ((s.chunkOver g k state).cage c).state = .adopt from adopt] at made
        exact ⟨record, made⟩
    · subst row
      obtain ⟨t, answer, only, penalty, made, service, settles⟩ := adoptionRead_places try_ kind adopt visit ended fine
      refine ⟨t, answer, (chunkOver_onlyCage c g k .idle s).trans only, penalty, made, fun asserted link => ?_,
        fun off => ?_⟩
      · exact service ((latchedAdmit_iff s c).2 asserted) link
      · exact settles (off.imp_left latchedAdmit_off)

end Sys2Proof.Machine
end

section
/-! PROOF. The identity block judged (R15 to R18, R46, R111). -/

namespace Sys2Proof.Machine

section
variable {c : Cage} {s t : State} {block : List Byte}

/-! ### The content checks (R16) -/

theorem judgeContent_impossible (impossible : ¬ declaresPossible block) :
    judgeContent c block s = enterFaulted c .identInvalid s := by
  have bad : contentPossible block = false := Bool.eq_false_iff.2 (mt (contentPossible_iff block).1 impossible)
  simp only [judgeContent, bad]
  rfl

theorem judgeContent_overClass (possible : declaresPossible block)
    (heavy : 10 * (s.cageConf c).maxWatts < (identityOf s.conf block).pm) :
    judgeContent c block s = enterFaulted c .overClass (keepIdentity c (identityOf s.conf block) s) := by
  simp only [judgeContent, (contentPossible_iff block).2 possible, Bool.not_true, Bool.false_eq_true, if_false,
    if_pos heavy]

/-- The cage with its identity record, and its penalty by the reseat memory (R111). -/
def reseated (c : Cage) (id : Identity) (s : State) : State := applyReseat c id.serial (keepIdentity c id s)

theorem judgeContent_admits (possible : declaresPossible block)
    (light : (identityOf s.conf block).pm ≤ 10 * (s.cageConf c).maxWatts) :
    judgeContent c block s = moveCage c .admitWait .none (reseated c (identityOf s.conf block) s) := by
  simp only [judgeContent, (contentPossible_iff block).2 possible, Bool.not_true, Bool.false_eq_true, if_false,
    if_neg (Nat.not_lt.2 light)]
  rfl

theorem reseated_onlyCage (c : Cage) (id : Identity) (s : State) : OnlyCage c s (reseated c id s) :=
  (updCage_onlyCage c _ s).trans (updPenalty_onlyCage c _ _)

theorem reseated_cage (c : Cage) (id : Identity) (s : State) :
    (reseated c id s).cage c = { s.cage c with identity := some id } := cage_updCage s c _

theorem reseated_penalty (c : Cage) (id : Identity) (s : State) : (reseated c id s).penalty c =
    ⟨reseatPenalty s.startup.stationTime s.reseatLimit id.serial (s.penalty c), none⟩ := penalty_updPenalty _ c _

theorem reseatPenalty_none {now : StationTime} {limit : Nat} {serial : List Byte} {p : CagePenalty}
    (none : p.lastModule = none) : reseatPenalty now limit serial p = p.value := by
  rw [reseatPenalty, none]

theorem reseatPenalty_some {now : StationTime} {limit : Nat} {serial : List Byte} {p : CagePenalty} {m : LastModule}
    (known : p.lastModule = some m) : reseatPenalty now limit serial p =
      if m.stale = false ∧ m.serial = serial ∧ (now - m.removed).toNat ≤ limit then m.stored / 2 else 0 := by
  simp only [reseatPenalty, known]
  cases m.stale with
  | true => rfl
  | false =>
    rw [if_neg nofun]
    exact if_congr ⟨fun h => ⟨rfl, h⟩, fun h => h.2⟩ rfl rfl

/-- A cage that enters ADMIT-WAIT joins the admission list with its d (R46). -/
theorem admitted_claim {id : Identity} (identify : (s.cage c).state = .identify) :
    (moveCage c .admitWait .none (reseated c id s)).claim c = { s.claim c with
      draw := id.draw, level := (s.cageConf c).level, withdraws := 0, listTime := s.startup.stationTime,
      listed := true } := by
  have state : ((reseated c id s).cage c).state = .identify := by rw [reseated_cage]; exact identify
  have identity : ((reseated c id s).cage c).identity = some id := by rw [reseated_cage]
  have claims : (moveCage c .admitWait .none (reseated c id s)).claims = (joinList c id.draw (reseated c id s)).claims := by
    rw [moveCage_claimUnit, state]
    simp only [claimHandOff, identity]
  exact (claim_congr claims c).trans (claim_updClaim (reseated c id s) c _)

/-- What a judged block leaves of a cage that is admitted, at the end of the event (R17, R18, R46, R111). -/
structure Admitted (c : Cage) (id : Identity) (s t : State) : Prop where
  only    : OnlyCage c s t
  record  : t.recordIs c { s.cage c with
    state := .admitWait, timers := noTimers, cause := .none, identity := some id, linkFails := 0,
    visit := (s.cage c).visit + 1 }
  events  : t.events = s.events
  claim   : t.claim c = { s.claim c with
    draw := id.draw, level := (s.cageConf c).level, withdraws := 0, listTime := s.startup.stationTime,
    listed := true, state := (t.claim c).state }
  penalty : t.penalty c = ⟨reseatPenalty s.startup.stationTime s.reseatLimit id.serial (s.penalty c), none⟩

theorem admitted_ends {id : Identity} (identify : (s.cage c).state = .identify)
    (ends : EndsAs (moveCage c .admitWait .none (reseated c id s)) t) : Admitted c id s t where
  only := ends.onlyCage ((reseated_onlyCage c id s).trans (moveCage_onlyCage c .admitWait .none _))
  record := by
    have record := moveCage_record c .admitWait .none (reseated c id s)
    rw [reseated_cage] at record
    exact (ends.recordIs record).congr rfl
  events := ends.same.events.trans (moveCage_frame c .admitWait .none _).2.2.2.2.2.1
  claim := by
    have claim := ends.same.claims c
    rw [admitted_claim identify] at claim
    exact claim
  penalty := by
    rw [ends.penalty c, ← reseated_penalty]
    exact penalty_congr (moveCage_frame c .admitWait .none _).2.2.2.1 c

theorem overClass_ends {id : Identity} {cause : FaultCause}
    (ends : EndsAs (enterFaulted c cause (keepIdentity c id s)) t) : OnlyCage c s t ∧
      t.cage c = ({ s.cage c with identity := some id } : CageRecord).inFault cause ∧ t.penalty c = s.penalty c ∧
      recorded s t c .fault (s.cage c).state (some cause) (s.penalty c).value := by
  obtain ⟨record, penalty, made⟩ := enterFaulted_ends ends
  have cage : (keepIdentity c id s).cage c = { s.cage c with identity := some id } := cage_updCage s c _
  rw [cage] at record made
  exact ⟨ends.onlyCage ((updCage_onlyCage c _ s).trans (enterFaulted_onlyCage c cause _)), record, penalty, made⟩

end

/-- Settles O26, by the check byte, the declared lane count and power, and the cage's maximum. -/
theorem identityJudged : Obligations.IdentityJudged := by
  intro g data k r q c s free trying chunk going read fits held last origin cage kind identify visit block lanes pm
    possible id
  obtain ⟨t, answer, ends⟩ := chunkDone_ends free trying chunk going (.inr fits) held last
  rw [read, crsTry_delivers origin cage] at ends
  change EndsAs (crsOutcome c q false (.done block) (s.chunkOver g k .idle)) t at ends
  rw [identifyRead_taken (s := s.chunkOver g k .idle) kind visit identify (outcome := .done block) nofun] at ends
  have over_ := chunkOver_onlyCage c g k .idle s
  have ident : identityOf s.conf block = id := identityOf_eq s.conf block
  have watts : (identityOf s.conf block).pm = pm := rfl
  clear_value block
  by_cases good : identityCheckGood block = true
  case neg =>
    have bad : identityCheckGood block = false := Bool.eq_false_iff.2 good
    simp only [identityEnds, bad] at ends
    obtain ⟨only, penalty, again, third⟩ := identityFailed_ends ends
    refine ⟨t, answer, over_.trans only, fun yes => absurd yes good, fun _ => ⟨penalty, fun few => ?_, fun three => ?_⟩,
      fun yes => absurd yes good, fun yes => absurd yes good⟩
    · obtain ⟨record, events, asks, _⟩ := again few
      exact ⟨record, events, asks⟩
    · obtain ⟨record, made⟩ := third three
      rw [show ((s.chunkOver g k .idle).cage c).state = .identify from identify] at made
      exact ⟨congrArg CageRecord.state record, congrArg CageRecord.cause record, made⟩
  case pos =>
    simp only [identityEnds, good, if_true] at ends
    by_cases allowed : declaresPossible block
    case neg =>
      rw [judgeContent_impossible allowed] at ends
      obtain ⟨record, penalty, made⟩ := enterFaulted_ends ends
      rw [show ((s.chunkOver g k .idle).cage c).state = .identify from identify] at made
      exact ⟨t, answer, ends.onlyCage (over_.trans (enterFaulted_onlyCage c _ _)),
        fun _ _ => ⟨congrArg CageRecord.state record, congrArg CageRecord.cause record, penalty, made⟩,
        fun no => absurd no (by rw [good]; nofun), fun _ yes => absurd yes allowed, fun _ yes => absurd yes allowed⟩
    by_cases heavy : 10 * (s.cageConf c).maxWatts < pm
    case pos =>
      rw [judgeContent_overClass (s := s.chunkOver g k .idle) allowed heavy] at ends
      obtain ⟨only, record, penalty, made⟩ := overClass_ends ends
      rw [show ((s.chunkOver g k .idle).cage c).state = .identify from identify] at made
      exact ⟨t, answer, over_.trans only, fun _ no => absurd allowed no, fun no => absurd no (by rw [good]; nofun),
        fun _ _ _ => ⟨congrArg CageRecord.state record, congrArg CageRecord.cause record,
          (congrArg CageRecord.identity record).trans (congrArg some ident), penalty, made⟩,
        fun _ _ light => absurd heavy (Nat.not_lt.2 light)⟩
    case neg =>
      rw [judgeContent_admits (s := s.chunkOver g k .idle) allowed (Nat.not_lt.1 heavy)] at ends
      obtain ⟨only, record, events, claim, penalty⟩ := admitted_ends (s := s.chunkOver g k .idle) identify ends
      have value := congrArg CagePenalty.value penalty
      refine ⟨t, answer, over_.trans only, fun _ no => absurd allowed no, fun no => absurd no (by rw [good]; nofun),
        fun _ _ yes => absurd yes heavy, fun _ _ _ => ⟨congrArg CageRecord.state record,
          congrArg CageRecord.cause record, (congrArg CageRecord.identity record).trans (congrArg some ident),
          congrArg CageRecord.timers record, events, congrArg Claim.listed claim,
          (congrArg Claim.draw claim).trans (congrArg Identity.draw ident), congrArg Claim.level claim,
          congrArg Claim.withdraws claim, congrArg Claim.listTime claim, congrArg CagePenalty.lastModule penalty,
          fun none => value.trans (reseatPenalty_none none), fun m known => ?_⟩⟩
      rw [← ident]
      exact value.trans (reseatPenalty_some known)

end Sys2Proof.Machine
end

section
/-! PROOF. The next grant of a segment, and the outcomes of the writes and of the reads that fail (R8, R9, R24, R117, R118,
R121). -/

namespace Sys2Proof.Machine

/-! ### The grant that the end of an event makes (R121) -/

/-- Each slot of a segment is the slot of a cage of the segment. -/
theorem slot_owner : ∀ (g : Seg) (c : Cage), ∃ d : Cage, segOf d = g ∧ slotIx d = slotIx c := by decide

theorem inSlot_of_owner {l : Link} {c d : Cage} (same : slotIx d = slotIx c) : l.inSlot (.crs c) = l.inSlot (.crs d) := by
  simp only [Link.inSlot, same]

theorem chooseSlot_of_full {s : State} {g : Seg} {slot : Slot} (full : ((s.link g).inSlot slot).isSome = true) :
    ∃ slot', s.chooseSlot g = some slot' := by
  cases slot with
  | crs c =>
    obtain ⟨d, rfl, same⟩ := slot_owner g c
    rw [inSlot_of_owner same] at full
    obtain ⟨e, choice, _⟩ := chooseSlot_of_waiting (s := s) (d := d) full
    exact ⟨_, choice⟩
  | passThrough =>
    have full : (s.link g).passThrough.isSome = true := full
    unfold State.chooseSlot
    split
    · exact ⟨_, rfl⟩
    · exact ⟨_, if_pos full⟩
  | scanner =>
    have full : (s.link g).scanner.isSome = true := full
    unfold State.chooseSlot
    split
    · exact ⟨_, rfl⟩
    · rw [if_pos full]
      split
      · exact ⟨_, rfl⟩
      · exact ⟨_, rfl⟩

/-- The scanner is granted only where no pass-through request waits. -/
theorem passThrough_of_scannerChosen {s : State} {g : Seg} (choice : s.chooseSlot g = some .scanner) :
    (s.link g).passThrough = none := by
  unfold State.chooseSlot at choice
  split at choice
  · cases choice
  · split at choice
    · cases choice
    next none => exact Option.not_isSome_iff_eq_none.1 none

/-- A segment that has come to IDLE with a full slot carries out the next chunk of the request that R121 chooses. -/
structure Granted (t : State) (g : Seg) (slot : Slot) (n : LinkRequest) (l : Link) : Prop where
  link    : t.link g = l.grant slot n
  urgent  : ∀ d : Cage, segOf d = g → (t.crsSlot d).isSome → ∃ e : Cage, slot = .crs e ∧ segOf e = g ∧
    ((t.claim e).level < (t.claim d).level ∨ ((t.claim e).level = (t.claim d).level ∧ e ≤ d))
  scanner : slot = .scanner → (t.link g).passThrough = none

theorem finish_grants_full {u : State} {g : Seg} (idle : (u.link g).state = .idle) {full : Slot}
    (held : (((finish u).link g).inSlot full).isSome = true) : ∃ slot n l, Granted (finish u) g slot n l := by
  obtain ⟨v, levels, link, granted⟩ := finish_choice u g
  generalize finish u = t at *
  have idle' : (v.link g).state = .idle := by rw [link]; exact idle
  obtain ⟨slot, choice⟩ : ∃ slot, v.chooseSlot g = some slot := by
    cases choice : v.chooseSlot g with
    | some slot => exact ⟨slot, rfl⟩
    | none =>
      rcases grantSegment_links g v with same | ⟨_, slot, _, some, _⟩
      · rw [granted, same] at held
        obtain ⟨slot, some⟩ := chooseSlot_of_full held
        rw [choice] at some
        cases some
      · rw [choice] at some
        cases some
  obtain ⟨n, at_, grant⟩ := grantSegment_of_choice idle' choice
  refine ⟨slot, n, v.link g, granted.trans grant, fun d seg waits => ?_, fun scanner => ?_⟩
  · subst seg
    have before : (v.crsSlot d).isSome = true := by
      rw [State.crsSlot, granted, grant, isSome_inSlot_grant at_] at waits
      exact waits
    obtain ⟨e, chosen, seg, first⟩ := chooseSlot_of_waiting before
    rw [choice] at chosen
    rw [levels, levels] at first
    exact ⟨e, Option.some.inj chosen, seg, first⟩
  · subst scanner
    rw [granted, grant]
    exact passThrough_of_scannerChosen choice

/-- A try of a granted chunk sends the bytes that R117 gives. -/
theorem Granted.tries {t : State} {g : Seg} {slot : Slot} {n : LinkRequest} {l : Link} (h : Granted t g slot n l) :
    Tries t g n := by
  have wire : t.segmentTry g = some (n.chunk slot).wire := by
    rw [State.segmentTry, h.link]
    rfl
  constructor
  · intro data write bytes items
    have sends : (n.chunk slot).wire = items := by
      simp only [Chunk.wire, LinkRequest.chunk, write]
      rfl
    refine ⟨wire.trans (congrArg some sends), ?_⟩
    simp [items, tryClocks, WireItem.clocks, Function.comp_def, List.map_const']
    omega
  · intro m read length items
    have sends : (n.chunk slot).wire = items := by
      simp only [Chunk.wire, LinkRequest.chunk, read, length, readTry, takenBytes_succ]
      simp [items, deviceByte]
    refine ⟨wire.trans (congrArg some sends), ?_⟩
    simp [items, tryClocks, WireItem.clocks]
    omega

theorem nextChoice_link (v : State) (g : Seg) : v.nextChoice.link g = v.link g := rfl

theorem Granted.nextChoice {v : State} {g : Seg} {slot : Slot} {n : LinkRequest} {l : Link} (h : Granted v g slot n l) :
    Granted v.nextChoice g slot n l := ⟨h.link, h.urgent, h.scanner⟩

theorem grant_inSlot (slot : Slot) (n : LinkRequest) (l : Link) : (l.grant slot n).inSlot slot = some n.grant := by
  have same : (l.grant slot n).inSlot slot = (l.setSlot slot (some n.grant)).inSlot slot := by cases slot <;> rfl
  rw [same, inSlot_setSlot_same]

/-! ### A chunk that is not the last of its request (R118) -/

/-- The state in which the end of the event finds a request whose chunk has ended with more to come. -/
def State.chunkAdded (g : Seg) (k : Chunk) (r : LinkRequest) (s : State) : State :=
  s.updLink g (fun l => Link.setSlot k.slot (some r)
    { l with state := .idle, chunk := none, stretch := none, retryTimer := none })

theorem chunkAdded_link (g : Seg) (k : Chunk) (r : LinkRequest) (s : State) :
    ((s.chunkAdded g k r).link g).state = .idle ∧ ((s.chunkAdded g k r).link g).inSlot k.slot = some r := by
  rw [State.chunkAdded, link_updLink]
  refine ⟨?_, inSlot_setSlot_same _ _ _⟩
  cases k.slot <;> rfl

/-- A request whose chunk is not its last keeps its slot with the bytes of the chunk (R118). -/
theorem chunkDone_adds {g : Seg} {k : Chunk} {r : LinkRequest} {s : State} {data : List Byte}
    (free : s.startup.resetHeld = false) (trying : (s.link g).state = .chunk)
    (chunk : (s.link g).chunk = some k) (going : k.ending = .none) (fits : k.isWrite = true ∨ data.length = k.length)
    (held : (s.link g).inSlot k.slot = some r) (more : 8 * r.nextChunk < r.length) :
    exec (.chunkDone g data) s = .next (finish (s.chunkAdded g k
      { r with bytes := r.bytes ++ (if k.isWrite then [] else data) })).nextChoice := by
  have effect : deliverAll (tryCompletes g data s) =
      s.chunkAdded g k { r with bytes := r.bytes ++ (if k.isWrite then [] else data) } := by
    have last : (r.addBytes (k.brings data)).lastChunk = false := decide_eq_false (Nat.not_le.2 more)
    simp only [tryCompletes, trying, chunk, going, if_true, chunkCompletes, inProgress_of_going going held, last]
    rfl
  exact (eventNext_finish (effect := fun s => deliverAll (tryCompletes g data s)) free (by
    rw [State.canComplete, chunk]
    simp only [trying, Chunk.fits, going, Bool.or_eq_true, Bool.and_eq_true, decide_eq_true_eq]
    exact ⟨trivial, .inl fits⟩)).trans (congrArg (fun u => Host.Outcome.next (finish u).nextChoice) effect)

/-- A request in a slot keeps it to the end of the event, but for a chunk of the scanner's that a new slot replaces. -/
theorem EndsAs.keepsSlot {u t : State} (h : EndsAs u t) {g : Seg} {slot : Slot} {r : LinkRequest}
    (held : (u.link g).inSlot slot = some r) (scanning : slot ≠ .scanner ∨ (u.scanner g).phase ≠ .idle) :
    (t.link g).inSlot slot = some r ∨ (t.link g).inSlot slot = some r.grant := by
  have work := h.segments g
  cases slot with
  | crs c =>
    obtain ⟨d, rfl, same⟩ := slot_owner g c
    rw [inSlot_of_owner same] at held ⊢
    exact ((h.requests d).full r held).2
  | passThrough =>
    have held : (u.link g).passThrough = some r := held
    rcases work.pass with kept | ⟨_, granted⟩
    · exact .inl (kept.trans held)
    · exact .inr (granted.trans (congrArg _ held))
  | scanner =>
    have held : (u.link g).scanner = some r := held
    have begun : t.scanner g = u.scanner g := work.scanner.resolve_right fun h =>
      scanning.elim (fun no => no rfl) (fun busy => busy h.1)
    rcases work.scan begun with kept | ⟨_, granted⟩
    · exact .inl (kept.trans held)
    · exact .inr (granted.trans (congrArg _ held))

theorem presentScan_full {g h : Seg} {cur : Cursor} {s : State} (full : (s.link h).scanner.isSome = true) :
    ((presentScan g cur s).link h).scanner.isSome = true := by
  unfold presentScan
  split
  · split
    · by_cases same : h = g
      · subst same
        rw [putRequest, link_updLink]
        rfl
      · rw [putRequest, link_updLink_other _ _ _ _ same]
        exact full
    · exact full
  · exact full

theorem startSlot_full {g h : Seg} {s : State} (full : (s.link h).scanner.isSome = true) :
    ((startSlot g s).link h).scanner.isSome = true := by
  unfold startSlot
  dsimp only
  split
  · split
    next turn c _ =>
      exact presentScan_full (s := s.updScanner g (fun n => { n.visited turn c with slotTimer := some 10, sampleBytes := [] })) full
    next => exact full
  · exact full

theorem grantSegment_full {g h : Seg} {s : State} (full : (s.link h).scanner.isSome = true) :
    ((grantSegment g s).link h).scanner.isSome = true := by
  rcases grantSegment_links g s with same | ⟨_, slot, r, _, _, grant⟩
  · rwa [same]
  · rw [grant]
    by_cases same : h = g
    · subst same
      rw [link_updLink]
      cases slot
      case scanner => rfl
      all_goals exact full
    · rwa [link_updLink_other _ _ _ _ same]

/-- A scanner's slot that is full stays full to the end of the event. -/
theorem finish_scanner_full {u : State} {g : Seg} (full : (u.link g).scanner.isSome = true) :
    ((finish u).link g).scanner.isSome = true := by
  have pumped : ((allCages.foldl pumpCage (endAdopting u)).link g).scanner.isSome = true := by
    have links : (endAdopting u).links = u.links := by simp
    rw [pumpAll_link, State.link, links]
    exact full
  have tested := (runDueTest_frame (beforeTest u)).1
  rw [finish_eq, State.link, tested]
  exact grantSegment_full (grantSegment_full (startSlot_full (startSlot_full pumped)))

/-! ### A CRS transaction that failed, and a write that is DONE (R8, R9, R24) -/

section
variable {c : Cage} {q : CrsRequest} {outcome : LinkOutcome} {s t : State}

theorem failure_notDone (failure : outcome = .noResponse ∨ outcome = .stretchTimeout) :
    outcome.isDone = false ∧ outcome ≠ .absent := by
  rcases failure with rfl | rfl
  · exact ⟨rfl, nofun⟩
  · exact ⟨rfl, nofun⟩

/-- The cage with its link failure count raised (R9). -/
def failed (c : Cage) (s : State) : State := s.updCage c (fun k => { k with linkFails := k.linkFails + 1 })

theorem failed_cage (c : Cage) (s : State) : (failed c s).cage c = { s.cage c with linkFails := (s.cage c).linkFails + 1 } :=
  cage_updCage s c _

theorem countFailure_few (powered : (s.cage c).state.powered = true) (few : (s.cage c).linkFails < 2) :
    countFailure c false s = failed c s := by
  simp only [countFailure, powered, Bool.not_true, Bool.false_eq_true, if_false]
  exact if_neg (by omega)

theorem countFailure_third (powered : (s.cage c).state.powered = true) (third : 2 ≤ (s.cage c).linkFails) :
    countFailure c false s = enterFaulted c .linkError (failed c s) := by
  simp only [countFailure, powered, Bool.not_true, Bool.false_eq_true, if_false]
  exact if_pos (by omega)

theorem countFailure_good (powered : (s.cage c).state.powered = true) :
    countFailure c true s = s.updCage c (fun k => { k with linkFails := 0 }) := by
  simp only [countFailure, powered, Bool.not_true, Bool.false_eq_true, if_false, if_true]

/-- An identity read and a status read that fail in a state other than IDENTIFY and ADOPT have no effect of their own. -/
theorem actOnOutcome_read (failure : outcome = .noResponse ∨ outcome = .stretchTimeout)
    (identify : (s.cage c).state ≠ .identify) (adopt : (s.cage c).state ≠ .adopt)
    (read : q.kind = .identityRead ∨ q.kind = .readyPoll ∨ q.kind = .alertRead) : actOnOutcome c q outcome s = s := by
  have identity : actOnIdentity c outcome s = s := by
    unfold actOnIdentity
    split
    next h => exact absurd h identify
    next h => exact absurd h adopt
    next => rfl
  have status : actOnStatus c outcome s = s := by rcases failure with rfl | rfl <;> rfl
  rcases read with kind | kind | kind
  all_goals simp only [actOnOutcome, kind, identity, status, ite_self]

theorem actOnOutcome_tx (failure : outcome = .noResponse ∨ outcome = .stretchTimeout) (kind : q.kind = .txDisable) :
    actOnOutcome c q outcome s =
      if (s.cage c).state.powered ∧ (s.cage c).wantedTx = some q.value then ask c .txDisable q.value s else s := by
  simp only [actOnOutcome, kind, (failure_notDone failure).1]
  rfl

theorem actOnOutcome_restart (failure : outcome = .noResponse ∨ outcome = .stretchTimeout) (kind : q.kind = .laneRestart) :
    actOnOutcome c q outcome s =
      if (s.cage c).state = .train ∧ (s.cage c).visit = q.visit then ask c .laneRestart q.value s else s := by
  simp only [actOnOutcome, kind, (failure_notDone failure).1]
  rfl

/-- Outside the powered states, and outside IDENTIFY and ADOPT, a failure has no effect of its own. -/
theorem actOnOutcome_idle (failure : outcome = .noResponse ∨ outcome = .stretchTimeout)
    (faulted : (s.cage c).state = .faulted) : actOnOutcome c q outcome s = s := by
  cases kind : q.kind
  case txDisable =>
    rw [actOnOutcome_tx failure kind, faulted]
    exact if_neg fun h => nomatch h.1
  case laneRestart =>
    rw [actOnOutcome_restart failure kind, faulted]
    exact if_neg fun h => nomatch h.1
  all_goals exact actOnOutcome_read failure (by rw [faulted]; nofun) (by rw [faulted]; nofun) (by simp [kind])

/-- The third failure in a row faults the cage, whatever the request was (R9). -/
theorem crsOutcome_third {discard : Bool} (failure : outcome = .noResponse ∨ outcome = .stretchTimeout)
    (powered : (s.cage c).state.powered = true) (third : 2 ≤ (s.cage c).linkFails) :
    crsOutcome c q discard outcome s = enterFaulted c .linkError (failed c s) := by
  obtain ⟨notDone, other⟩ := failure_notDone failure
  rw [crsOutcome, if_neg other]
  simp only [notDone, countFailure_third powered third]
  rw [actOnOutcome_idle failure (by rw [enterFaulted_cage]; rfl), ite_self]

/-- A failure before the third has the request asked for again where R8 and R24 have it so. -/
theorem crsOutcome_few {discard : Bool} (failure : outcome = .noResponse ∨ outcome = .stretchTimeout)
    (powered : (s.cage c).state.powered = true) (few : (s.cage c).linkFails < 2) :
    crsOutcome c q discard outcome s = if discard then failed c s else actOnOutcome c q outcome (failed c s) := by
  obtain ⟨notDone, other⟩ := failure_notDone failure
  rw [crsOutcome, if_neg other]
  simp only [notDone, countFailure_few powered few]

theorem failed_powered (powered : (s.cage c).state.powered = true) : ((failed c s).cage c).state.powered = true := by
  rw [failed_cage]
  exact powered

/-- What a failure before the third leaves of its cage, at its own event. -/
theorem actOnOutcome_goes {k : CageRecord} {u : State} (goes : Goes c k u s)
    (failure : outcome = .noResponse ∨ outcome = .stretchTimeout) (powered : (s.cage c).state.powered = true) :
    Goes c k u (actOnOutcome c q outcome s) := by
  have asked : ∀ kind value, Goes c k u (ask c kind value s) := fun kind value =>
    (goes.trans (ask_goes c kind value s)).congr (by rw [goes.record])
  have read : q.kind = .identityRead ∨ q.kind = .readyPoll ∨ q.kind = .alertRead →
      Goes c k u (actOnOutcome c q outcome s) := fun read => by
    rw [actOnOutcome_read failure (fun h => by rw [h] at powered; cases powered)
      (fun h => by rw [h] at powered; cases powered) read]
    exact goes
  cases kind : q.kind
  case txDisable =>
    rw [actOnOutcome_tx failure kind]
    split
    · exact asked _ _
    · exact goes
  case laneRestart =>
    rw [actOnOutcome_restart failure kind]
    split
    · exact asked _ _
    · exact goes
  all_goals exact read (by simp [kind])

/-- A tx-disable write that failed is asked for again while its value is wanted (R8). -/
theorem actOnOutcome_asksTx (failure : outcome = .noResponse ∨ outcome = .stretchTimeout)
    (powered : (s.cage c).state.powered = true) (kind : q.kind = .txDisable) (wanted : (s.cage c).wantedTx = some q.value)
    (present : (s.line c).present = true) (ends : EndsAs (actOnOutcome c q outcome s) t) : t.asksTx c q.value := by
  rw [actOnOutcome_tx failure kind, if_pos ⟨powered, wanted⟩] at ends
  exact ends.asksTx (by rw [ask, cage_updCage]; exact mem_addRequest _ _) present

/-- A lane restart write that failed is asked for again in the visit to TRAIN that asked for it (R24). -/
theorem actOnOutcome_asksRestart (failure : outcome = .noResponse ∨ outcome = .stretchTimeout)
    (kind : q.kind = .laneRestart) (train : (s.cage c).state = .train) (visit : (s.cage c).visit = q.visit)
    (present : (s.line c).present = true) (ends : EndsAs (actOnOutcome c q outcome s) t) :
    t.asks c q 120 1 (some [q.value]) := by
  rw [actOnOutcome_restart failure kind, if_pos ⟨train, visit⟩] at ends
  have same : (⟨.laneRestart, q.value, (s.cage c).visit⟩ : CrsRequest) = q := by rw [← kind, visit]
  refine ends.asks (by rw [ask, cage_updCage, same]; exact mem_addRequest _ _) present ?_
  rw [crsTransaction, kind]
  rfl

/-- A status read, a discarded outcome, and a tx-disable value no longer wanted ask for nothing more. -/
theorem actOnOutcome_none (failure : outcome = .noResponse ∨ outcome = .stretchTimeout)
    (powered : (s.cage c).state.powered = true)
    (over_ : q.kind = .readyPoll ∨ q.kind = .alertRead ∨ (q.kind = .txDisable ∧ (s.cage c).wantedTx ≠ some q.value)) :
    actOnOutcome c q outcome s = s := by
  have read : q.kind = .identityRead ∨ q.kind = .readyPoll ∨ q.kind = .alertRead → actOnOutcome c q outcome s = s :=
    actOnOutcome_read failure (fun h => by rw [h] at powered; cases powered) (fun h => by rw [h] at powered; cases powered)
  rcases over_ with kind | kind | ⟨kind, other⟩
  · exact read (.inr (.inl kind))
  · exact read (.inr (.inr kind))
  · rw [actOnOutcome_tx failure kind, if_neg fun h => other h.2]

/-- What a failure before the third leaves of its cage at the end of the event (R8, R9, R24). -/
theorem crsOutcome_few_ends {discard : Bool} (failure : outcome = .noResponse ∨ outcome = .stretchTimeout)
    (powered : (s.cage c).state.powered = true) (few : (s.cage c).linkFails < 2) (free : s.crsSlot c = none)
    (ends : EndsAs (crsOutcome c q discard outcome s) t) :
    Goes c { s.cage c with linkFails := (s.cage c).linkFails + 1 } s (crsOutcome c q discard outcome s) ∧
    (discard = false → (s.line c).present = true →
      (q.kind = .txDisable → (s.cage c).wantedTx = some q.value → t.asksTx c q.value) ∧
      (q.kind = .laneRestart → (s.cage c).state = .train → (s.cage c).visit = q.visit →
        t.asks c q 120 1 (some [q.value]))) ∧
    ((s.cage c).requests = [] →
      (q.kind = .readyPoll ∨ q.kind = .alertRead ∨ discard = true ∨
        (q.kind = .txDisable ∧ (s.cage c).wantedTx ≠ some q.value)) →
      t.crsSlot c = none ∧ (t.cage c).requests = []) := by
  have goes : Goes c { s.cage c with linkFails := (s.cage c).linkFails + 1 } s (failed c s) :=
    updCage_goes c (fun k => { k with linkFails := k.linkFails + 1 }) s
  have powered' := failed_powered powered
  have cage := failed_cage c s
  have empty : (s.cage c).requests = [] → EndsAs (failed c s) t → t.crsSlot c = none ∧ (t.cage c).requests = [] :=
    fun none ends => (And.symm ((ends.requests c).empty free (by rw [cage]; exact none)))
  rw [crsOutcome_few failure powered few] at ends ⊢
  cases discard with
  | true => exact ⟨goes, nofun, fun none _ => empty none ends⟩
  | false =>
    simp only [Bool.false_eq_true, if_false, false_or] at ends ⊢
    refine ⟨actOnOutcome_goes goes failure powered', fun _ present => ⟨fun kind wanted => ?_, fun kind train visit => ?_⟩,
      fun none over_ => ?_⟩
    · exact actOnOutcome_asksTx failure powered' kind (by rw [cage]; exact wanted) present ends
    · exact actOnOutcome_asksRestart (s := failed c s) failure kind (by rw [cage]; exact train) (by rw [cage]; exact visit) present ends
    · refine empty none ?_
      rwa [actOnOutcome_none failure powered' (by rw [cage]; exact over_)] at ends

/-- A write that is DONE sets the link failure count to 0 (R9). -/
theorem crsOutcome_written {discard : Bool} {bytes : List Byte} (powered : (s.cage c).state.powered = true)
    (write : q.kind = .txDisable ∨ q.kind = .laneRestart) :
    crsOutcome c q discard (.done bytes) s = s.updCage c (fun k => { k with linkFails := 0 }) := by
  rw [crsOutcome, if_neg nofun]
  simp only [LinkOutcome.isDone, countFailure_good powered]
  have acts : ∀ u, actOnOutcome c q (.done bytes) u = u := fun u => by
    rcases write with kind | kind
    all_goals simp only [actOnOutcome, kind, LinkOutcome.isDone, if_true]
  rw [acts, ite_self]

end

/-- Settles O24: a chunk with more to come, a transaction that failed, and a write that is DONE. -/
theorem chunkEnds : Obligations.ChunkEnds := by
  refine ⟨fun g data k r s free trying chunk going fits held more => ?_,
    fun i g k r q discard c s try_ lost powered => ?_, fun g k r q discard c data s try_ write last kind powered => ?_⟩
  · intro r'
    have answer := chunkDone_adds free trying chunk going fits held more
    change exec (.chunkDone g data) s = .next (finish (s.chunkAdded g k r')).nextChoice at answer
    obtain ⟨idle, slot⟩ := chunkAdded_link g k r' s
    have ends := finish_endsAs (s.chunkAdded g k r')
    have keeps := fun scanning => ends.keepsSlot slot scanning
    have full : (((finish (s.chunkAdded g k r')).link g).inSlot k.slot).isSome = true := by
      by_cases scanner : k.slot = .scanner
      · rw [scanner] at slot ⊢
        exact finish_scanner_full (by rw [show ((s.chunkAdded g k r').link g).scanner = some r' from slot]; rfl)
      · rw [← nextChoice_link]
        rcases keeps (.inl scanner) with kept | kept
        · exact Option.isSome_iff_exists.2 ⟨_, kept⟩
        · exact Option.isSome_iff_exists.2 ⟨_, kept⟩
    obtain ⟨chosen, n, l, grant⟩ := finish_grants_full idle full
    have granted := grant.nextChoice
    generalize (finish (s.chunkAdded g k r')).nextChoice = t at *
    refine ⟨t, answer, ends, fun scanning => keeps scanning, chosen, n, ?_, ?_, ?_, ?_, granted.tries, granted.urgent,
      granted.scanner⟩
    · rw [granted.link]; rfl
    · rw [granted.link]; exact grant_inSlot chosen n l
    · rw [granted.link]; rfl
    · rw [granted.link]; rfl
  · obtain ⟨t, state, outcome, answer, ends, failure, _⟩ := crsTry_lost try_ lost
    have over_ := chunkOver_onlyCage c g k state s
    have free := chunkOver_crsSlot (s := s) (state := state) try_.slot try_.segment
    refine ⟨t, answer, ?_⟩
    by_cases few : (s.cage c).linkFails < 2
    · obtain ⟨goes, asks, empty⟩ := crsOutcome_few_ends (s := s.chunkOver g k state) failure powered few free ends
      refine ⟨ends.onlyCage (over_.trans goes.only), (ends.penalty c).trans (penalty_congr goes.penalties c),
        fun _ => ⟨ends.recordIs goes.record, ends.same.events.trans goes.events, asks, empty⟩, fun third => absurd few (Nat.not_lt.2 third)⟩
    · have third := Nat.not_lt.1 few
      rw [crsOutcome_third (s := s.chunkOver g k state) failure powered third] at ends
      obtain ⟨record, penalty, made⟩ := enterFaulted_ends ends
      have cage := failed_cage c (s.chunkOver g k state)
      rw [cage] at record made
      exact ⟨ends.onlyCage ((over_.trans (updCage_onlyCage c _ _)).trans (enterFaulted_onlyCage c _ _)), penalty,
        fun no => absurd no few, fun _ => ⟨record, made⟩⟩
  · obtain ⟨t, answer, ends⟩ := chunkDone_ends (data := data) try_.free try_.trying try_.chunk try_.going (.inl write)
      try_.inSlot last
    rw [crsTry_delivers try_.origin try_.cage, crsOutcome_written (s := s.chunkOver g k .idle) powered kind] at ends
    rw [State.chunkOver, try_.slot] at ends
    exact ⟨t, answer, by rw [try_.slot]; exact ends⟩

end Sys2Proof.Machine
end

section
/-! PROOF. The lanes of a status byte, and the windows and the stability verdict of a completed scan (R6, R10, R137, R142
to R144). -/

namespace Sys2Proof.Machine

/-! ### The lanes of a status byte (R6, R10, R25) -/

theorem getLsbD_laneMask (lanes : Nat) (i : Fin 8) : (laneMask lanes).getLsbD i.val = decide (i.val < lanes) := by
  have low : i.val < 8 := i.isLt
  rw [laneMask, byteOf, BitVec.getLsbD_ofNat, Nat.testBit_two_pow_sub_one]
  simp only [low, decide_true, Bool.true_and]
  exact decide_eq_decide.2 (by omega)

theorem anyLane_iff (lanes : Nat) (bits : Byte) :
    anyLane lanes bits = true ↔ ∃ i : Fin 8, i.val < lanes ∧ bits.getLsbD i.val = true := by
  rw [anyLane, bne_iff_ne, ne_eq, show (0 : Byte) = 0#8 from rfl, BitVec.zero_iff_eq_false]
  simp only [BitVec.getLsbD_and, not_forall, Bool.not_eq_false, Bool.and_eq_true]
  constructor
  · rintro ⟨i, set, mask⟩
    have low : i < 8 := by
      by_contra high
      rw [BitVec.getLsbD_of_ge bits i (by omega)] at set
      cases set
    rw [getLsbD_laneMask lanes ⟨i, low⟩] at mask
    exact ⟨⟨i, low⟩, of_decide_eq_true mask, set⟩
  · rintro ⟨i, below, set⟩
    exact ⟨i.val, set, (getLsbD_laneMask lanes i).trans (decide_eq_true below)⟩

theorem anyLane_false_iff (lanes : Nat) (bits : Byte) :
    anyLane lanes bits = false ↔ ∀ i : Fin 8, i.val < lanes → bits.getLsbD i.val = false := by
  rw [Bool.eq_false_iff, ne_eq, anyLane_iff, not_exists]
  exact forall_congr' fun i => by rw [not_and, Bool.not_eq_true]

theorem everyLane_false_iff (lanes : Nat) (bits : Byte) :
    everyLane lanes bits = false ↔ ∃ i : Fin 8, i.val < lanes ∧ bits.getLsbD i.val = false := by
  rw [everyLane, beq_eq_false_iff_ne, ne_eq, BitVec.eq_of_getLsbD_eq_iff]
  simp only [BitVec.getLsbD_and, not_forall]
  constructor
  · rintro ⟨i, low, differs⟩
    rw [getLsbD_laneMask lanes ⟨i, low⟩] at differs
    refine ⟨⟨i, low⟩, ?_⟩
    revert differs
    by_cases below : i < lanes <;> simp [below]
  · rintro ⟨i, below, clear⟩
    exact ⟨i.val, i.isLt, by rw [getLsbD_laneMask, clear]; simp [below]⟩

/-! ### The stability of a window (R144) -/

theorem foldl_max_spec (l : List Nat) (a : Nat) :
    a ≤ l.foldl max a ∧ (∀ x ∈ l, x ≤ l.foldl max a) ∧ (l.foldl max a = a ∨ l.foldl max a ∈ l) := by
  induction l generalizing a with
  | nil => exact ⟨le_rfl, by simp, .inl rfl⟩
  | cons y l ih =>
    obtain ⟨start, all, found⟩ := ih (max a y)
    rw [List.foldl_cons]
    refine ⟨by omega, fun x mem => ?_, ?_⟩
    · rcases List.mem_cons.1 mem with rfl | mem
      · omega
      · exact all x mem
    · rcases found with same | mem
      · rcases Nat.le_total y a with le | le
        · exact .inl (same.trans (Nat.max_eq_left le))
        · exact .inr (by rw [same, Nat.max_eq_right le]; exact List.mem_cons_self)
      · exact .inr (List.mem_cons_of_mem _ mem)

theorem foldl_min_spec (l : List Nat) (a : Nat) :
    l.foldl min a ≤ a ∧ (∀ x ∈ l, l.foldl min a ≤ x) ∧ (l.foldl min a = a ∨ l.foldl min a ∈ l) := by
  induction l generalizing a with
  | nil => exact ⟨le_rfl, by simp, .inl rfl⟩
  | cons y l ih =>
    obtain ⟨start, all, found⟩ := ih (min a y)
    rw [List.foldl_cons]
    refine ⟨by omega, fun x mem => ?_, ?_⟩
    · rcases List.mem_cons.1 mem with rfl | mem
      · omega
      · exact all x mem
    · rcases found with same | mem
      · rcases Nat.le_total a y with le | le
        · exact .inl (same.trans (Nat.min_eq_left le))
        · exact .inr (by rw [same, Nat.min_eq_right le]; exact List.mem_cons_self)
      · exact .inr (List.mem_cons_of_mem _ mem)

/-- The spread of a window is the largest difference of two of its values. -/
theorem spread_le_iff {l : List Nat} (full : l ≠ []) (bounded : ∀ x ∈ l, x ≤ 65535) (limit : Nat) :
    (l.foldl max 0 - l.foldl min 65535) * 64 ≤ limit ↔ ∀ x ∈ l, ∀ y ∈ l, (x - y) * 64 ≤ limit := by
  obtain ⟨z, mem⟩ := List.exists_mem_of_ne_nil l full
  obtain ⟨_, high, top⟩ := foldl_max_spec l 0
  obtain ⟨_, low, bottom⟩ := foldl_min_spec l 65535
  have largest : l.foldl max 0 ∈ l := top.elim (fun zero => by
    have := high z mem
    rw [zero] at this ⊢
    rwa [Nat.le_zero.1 this] at mem) id
  have smallest : l.foldl min 65535 ∈ l := bottom.elim (fun all => by
    have := low z mem
    rw [all] at this ⊢
    rwa [Nat.le_antisymm (bounded z mem) this] at mem) id
  constructor
  · intro spread x hx y hy
    have := high x hx
    have := low y hy
    omega
  · exact fun pairs => pairs _ largest _ smallest

/-- A window is stable in the spec's terms (R144). -/
def StableWindow (k : Settings) (window : List Nat) : Prop :=
  window.length = 4 ∧ k.darkFloor ≤ window.sum / 4 ∧
    ∀ x ∈ window, ∀ y ∈ window, (x - y) * 64 ≤ window.sum / 4 * k.tolerance

theorem windowStable_iff {k : Settings} {window : List Nat} (bounded : ∀ x ∈ window, x ≤ 65535) :
    windowStable k.darkFloor k.tolerance window = true ↔ StableWindow k window := by
  simp only [windowStable, Bool.and_eq_true, decide_eq_true_eq, StableWindow]
  refine and_congr_right fun four => ?_
  exact and_congr_right fun _ => spread_le_iff (by rintro rfl; cases four) bounded _

theorem lanesStable_iff {k : Settings} {lanes : Nat} {windows : Vector (List Nat) 8}
    (bounded : ∀ i : Fin 8, ∀ x ∈ windows[i], x ≤ 65535) :
    lanesStable k lanes windows = true ↔ ∀ i : Fin 8, i.val < lanes → StableWindow k windows[i] := by
  have lane : ∀ i : Fin 8, windows.toList.getD i.val [] = windows[i] := fun i => by
    simp [List.getD_eq_getElem?_getD]
  rw [lanesStable, List.all_eq_true]
  constructor
  · intro all i below
    have stable := all i.val (List.mem_range.2 (by omega))
    rw [lane] at stable
    exact (windowStable_iff (bounded i)).1 stable
  · intro all i mem
    have low := List.mem_range.1 mem
    have stable := (windowStable_iff (bounded ⟨i, by omega⟩)).2 (all ⟨i, by omega⟩ (show i < lanes by omega))
    rwa [← lane] at stable

/-! ### The windows after a completed scan (R142, R143) -/

/-- The window of a lane after a completed scan of a number of lanes. -/
def filledWindow (x : CageScan) (lanes : Nat) (bytes : List Byte) (i : Fin 8) : List Nat :=
  if i.val < lanes then
    (if x.windows[i].length < 4 then x.windows[i] else x.windows[i].drop 1) ++
      [(byteAt bytes (9 + 6 * i.val)).toNat * 256 + (byteAt bytes (10 + 6 * i.val)).toNat]
  else x.windows[i]

theorem fill_windows (x : CageScan) (lanes : Nat) (bytes : List Byte) (i : Fin 8) :
    (x.fill ((List.range lanes).map (laneEntry bytes))).windows[i] = filledWindow x lanes bytes i := by
  have entry : ((List.range lanes).map (laneEntry bytes))[i.val]? =
      if i.val < lanes then some (laneEntry bytes i.val) else none := by
    rw [List.getElem?_map]
    split
    next below => rw [List.getElem?_range below]; rfl
    next above => rw [List.getElem?_eq_none (by rw [List.length_range]; omega)]; rfl
  simp only [CageScan.fill, Fin.getElem_fin, Vector.getElem_ofFn, entry, filledWindow]
  by_cases below : i.val < lanes
  · simp only [below, if_true, windowAdd, laneEntry, wordAt, word16]
    rw [show 9 + 6 * i.val + 1 = 10 + 6 * i.val by omega]
  · simp only [below, if_false]

theorem filledWindow_bounded {x : CageScan} {lanes : Nat} {bytes : List Byte} {i : Fin 8}
    (bounded : ∀ v ∈ x.windows[i], v ≤ 65535) : ∀ v ∈ filledWindow x lanes bytes i, v ≤ 65535 := by
  intro v mem
  unfold filledWindow at mem
  split at mem
  · rcases List.mem_append.1 mem with old | new
    · split at old
      · exact bounded v old
      · exact bounded v (List.mem_of_mem_drop old)
    · rw [List.mem_singleton.1 new]
      have := (byteAt bytes (9 + 6 * i.val)).isLt
      have := (byteAt bytes (10 + 6 * i.val)).isLt
      omega
  · exact bounded v mem

end Sys2Proof.Machine
end

section
/-! PROOF. A status observation and what it does to its cage (R10, R22, R24, R25, R27, R29). -/

namespace Sys2Proof.Machine

variable {c : Cage} {o : Observation} {s a v t : State}

/-! ### The effect of an observation, by the state of its cage (R10) -/

theorem observe_fault (heard : ((s.cage c).state.powered = true ∧ o.fault = true) ∨
    ((s.cage c).state = .inService ∧ ∃ i : Fin 8, i.val < s.lanesOf c ∧ o.txFault.getLsbD i.val = true)) :
    observe c o s = enterFaulted c .moduleFault s := by
  rcases heard with ⟨powered, fault⟩ | ⟨service, lane⟩
  · simp only [observe, powered, fault, Bool.not_true, Bool.false_eq_true, if_false, if_true]
  · have lane := (anyLane_iff (s.lanesOf c) o.txFault).2 lane
    simp only [observe, service, lane, if_true, ite_self]
    rfl

theorem observe_ready (fault : o.fault = false) (powerUp : (s.cage c).state = .powerUp) (ready : o.ready = true) :
    observe c o s = enterLightSettle c s := by
  simp only [observe, powerUp, fault, ready]
  rfl

theorem observe_verify (fault : o.fault = false) (verify : (s.cage c).state = .verify)
    (lane : ∃ i : Fin 8, i.val < s.lanesOf c ∧ o.txFault.getLsbD i.val = true) :
    observe c o s = trainingRetry c false s := by
  have lane := (anyLane_iff (s.lanesOf c) o.txFault).2 lane
  simp only [observe, verify, fault, lane]
  rfl

theorem observe_flap (fault : o.fault = false) (service : (s.cage c).state = .inService)
    (clear : ∀ i : Fin 8, i.val < s.lanesOf c → o.txFault.getLsbD i.val = false)
    (lane : ∃ i : Fin 8, i.val < s.lanesOf c ∧ o.rxLost.getLsbD i.val = true) : observe c o s = takeFlap c s := by
  have clear := (anyLane_false_iff (s.lanesOf c) o.txFault).2 clear
  have lane := (anyLane_iff (s.lanesOf c) o.rxLost).2 lane
  simp only [observe, service, fault, clear, lane]
  rfl

theorem observe_dark (fault : o.fault = false) (dark : (s.cage c).state = .darkWait) (sample : o.sample = true)
    (lane : ∃ i : Fin 8, i.val < s.lanesOf c ∧ o.rxLost.getLsbD i.val = false) :
    observe c o s = enterTrainAfresh c s := by
  have lane := (everyLane_false_iff (s.lanesOf c) o.rxLost).2 lane
  simp only [observe, dark, fault, sample, lane]
  rfl

/-- An observation that R10's table gives no line has no effect. -/
theorem observe_unheeded (not : ¬ s.heeds c o) : observe c o s = s := by
  by_cases powered : (s.cage c).state.powered = true
  case neg => simp only [observe, Bool.eq_false_iff.2 powered, Bool.not_false, if_true]
  have fault : o.fault = false := Bool.eq_false_iff.2 fun h => not ⟨powered, .inl h⟩
  have tx : (s.cage c).state = .verify ∨ (s.cage c).state = .inService → anyLane (s.lanesOf c) o.txFault = false :=
    fun state => (anyLane_false_iff _ _).2 fun i below => Bool.eq_false_iff.2 fun h => not ⟨powered, by
      rcases state with state | state
      · exact .inr (.inr (.inl ⟨state, i, below, h⟩))
      · exact .inr (.inr (.inr (.inl ⟨state, i, below, .inl h⟩)))⟩
  simp only [observe, powered, fault, Bool.not_true, Bool.false_eq_true, if_false]
  split
  next verify => rw [tx (.inl verify)]; rfl
  next service =>
    have rx : anyLane (s.lanesOf c) o.rxLost = false := (anyLane_false_iff _ _).2 fun i below =>
      Bool.eq_false_iff.2 fun h => not ⟨powered, .inr (.inr (.inr (.inl ⟨service, i, below, .inr h⟩)))⟩
    rw [tx (.inr service), rx]
    rfl
  next dark =>
    refine if_neg fun h => ?_
    obtain ⟨sample, lit⟩ := Bool.and_eq_true_iff.1 h
    rw [Bool.not_eq_true', everyLane_false_iff] at lit
    exact not ⟨powered, .inr (.inr (.inr (.inr ⟨dark, sample, lit⟩)))⟩
  next powerUp => exact if_neg fun ready => not ⟨powered, .inr (.inl ⟨powerUp, ready⟩)⟩
  next => rfl

/-! ### HOLD-DOWN asks for its lanes to be disabled (R29, R8) -/

theorem enterHoldDown_asks (c : Cage) (s : State) :
    ⟨.txDisable, laneMask (s.lanesOf c), ((enterHoldDown c s).cage c).visit⟩ ∈ ((enterHoldDown c s).cage c).requests := by
  have wanted : ∀ (value : Byte) (u : State),
      ⟨.txDisable, value, ((wantTx c value u).cage c).visit⟩ ∈ ((wantTx c value u).cage c).requests := fun value u => by
    rw [wantTx_cage]
    exact mem_addRequest _ _
  exact wanted (laneMask (s.lanesOf c)) (moveCage c .holdDown .none s)

theorem takeFlap_asks (high : s.conf.suppress ≤ ((takeFlap c s).penalty c).value) :
    ⟨.txDisable, laneMask (s.lanesOf c), ((takeFlap c s).cage c).visit⟩ ∈ ((takeFlap c s).cage c).requests := by
  rw [(takeFlap_taken c s).penalty, ← penalty_flapped] at high
  rw [takeFlap_suppressed high]
  exact enterHoldDown_asks c (handRecord c .holdDown .inService none (flapped c s))

/-! ### What an observation leaves at the end of the event (R10) -/

theorem retried_of_ends {u : State} {sc : ScanUnit} (taken : RetryTaken c false s u)
    (ends : EndsAs { u with scan := sc } t) : Retried c (s.cage c) s t ∧ t.penalty c = s.penalty c := by
  have link : (t.line c).link = (s.line c).link :=
    (congrArg CageLines.link (ends.line c)).trans (congrArg (fun i => i.2.2.1) taken.inputs)
  refine ⟨⟨fun few => ?_, fun spent => ?_⟩, (ends.penalty c).trans (penalty_congr taken.penalty c)⟩
  · obtain ⟨events, _, record, _⟩ := taken.again few
    rw [← link] at record
    exact ⟨ends.same.events.trans events, ends.recordIs record⟩
  · obtain ⟨record, made⟩ := taken.spent spent
    exact ⟨(ends.cage_eq (congrArg CageRecord.requests record)).trans record, made.congr ends.same.events⟩

theorem flapped_of_ends {sc : ScanUnit} (ends : EndsAs { takeFlap c s with scan := sc } t) :
    Flapped c (s.cage c) s t := by
  have taken := takeFlap_taken c s
  have line : t.line c = (takeFlap c s).line c := ends.line c
  have link : (t.line c).link = (s.line c).link :=
    (congrArg CageLines.link line).trans (congrArg (fun i => i.2.2.1) taken.inputs)
  have penalty : t.penalty c = (takeFlap c s).penalty c := ends.penalty c
  refine ⟨penalty.trans taken.penalty, fun high => ?_, fun low => ?_⟩
  · rw [penalty] at high
    exact ⟨ends.recordIs (taken.held high).1, fun present => ends.asksTx (takeFlap_asks high) (by rwa [line] at present)⟩
  · rw [penalty] at low
    rw [link]
    exact ends.recordIs (taken.trained low).1

theorem lightSettle_requests (c : Cage) (s : State) :
    ⟨.txDisable, 0, ((enterLightSettle c s).cage c).visit⟩ ∈ ((enterLightSettle c s).cage c).requests :=
  startSettling_asks c (moveCage c .lightSettle .none s)

/-- An observation whose scan unit moves on after it (R10, R138, R142): what the event leaves. -/
theorem observed_of_ends {sc : ScanUnit} (ends : EndsAs { observe c o s with scan := sc } t)
    (windows : o.fault = false → (s.cage c).state = .powerUp → o.ready = true →
      (State.cageScan { observe c o s with scan := sc } c).windows = ((observe c o s).cageScan c).windows) :
    Observed c o (s.cage c) s t where
  fault heard := by
    rw [observe_fault heard] at ends
    have cage := enterFaulted_cage c .moduleFault s
    exact ⟨(ends.cage_eq (by show ((enterFaulted c .moduleFault s).cage c).requests = []; rw [cage]; rfl)).trans cage,
      (ends.penalty c).trans (penalty_congr (enterFaulted_frame c .moduleFault s).2.2.2.1 c),
      (recorded_enterFaulted c .moduleFault s).congr ends.same.events⟩
  ready fault powerUp ready := by
    have windows := windows fault powerUp ready
    rw [observe_ready fault powerUp ready] at ends windows
    obtain ⟨events, penalties, present, claims⟩ := enterLightSettle_units c s
    have unmoved : (enterLightSettle c s).claims = s.claims := by rw [claims, powerUp]; rfl
    refine ⟨ends.recordIs (enterLightSettle_record c s), (ends.penalty c).trans (penalty_congr penalties c),
      ends.same.events.trans events, ?_, fun there => ends.asksTx (lightSettle_requests c s) (present.trans there),
      fun still => (ends.untested ?_).1.trans unmoved⟩
    · rw [ends.cageScan c, windows, enterLightSettle_windows]
      rfl
    · show (enterLightSettle c s).claims.testDue = false
      rw [unmoved, still]
  verify fault verify lane := by
    rw [observe_verify fault verify lane] at ends
    exact retried_of_ends (trainingRetry_taken c false s) ends
  flap fault service clear lane := by
    rw [observe_flap fault service clear lane] at ends
    exact flapped_of_ends ends
  dark fault dark sample lane := by
    rw [observe_dark fault dark sample lane] at ends
    have goes := enterTrainAfresh_goes c s
    have link : (t.line c).link = (s.line c).link := (congrArg CageLines.link (ends.line c)).trans goes.link
    rw [link]
    exact ⟨ends.recordIs goes.record, (ends.penalty c).trans (penalty_congr goes.penalties c),
      ends.same.events.trans goes.events⟩

end Sys2Proof.Machine
end

section
/-! PROOF. Status observations at the end of a status read and of a scan, and the lane verdict of RELIGHT (R10, R22 to R30,
R138, R142 to R144). -/

namespace Sys2Proof.Machine

variable {c : Cage} {o : Observation} {s t u : State}

/-! ### The lines of R10's table -/

/-- The line of R10's table that an observation falls in, where it has an effect. -/
inductive Heeded (c : Cage) (o : Observation) (s : State) : Prop where
  | fault (heard : ((s.cage c).state.powered = true ∧ o.fault = true) ∨
      ((s.cage c).state = .inService ∧ ∃ i : Fin 8, i.val < s.lanesOf c ∧ o.txFault.getLsbD i.val = true))
  | ready (fault : o.fault = false) (powerUp : (s.cage c).state = .powerUp) (ready : o.ready = true)
  | verify (fault : o.fault = false) (verify : (s.cage c).state = .verify)
      (lane : ∃ i : Fin 8, i.val < s.lanesOf c ∧ o.txFault.getLsbD i.val = true)
  | flap (fault : o.fault = false) (service : (s.cage c).state = .inService)
      (clear : ∀ i : Fin 8, i.val < s.lanesOf c → o.txFault.getLsbD i.val = false)
      (lane : ∃ i : Fin 8, i.val < s.lanesOf c ∧ o.rxLost.getLsbD i.val = true)
  | dark (fault : o.fault = false) (dark : (s.cage c).state = .darkWait) (sample : o.sample = true)
      (lane : ∃ i : Fin 8, i.val < s.lanesOf c ∧ o.rxLost.getLsbD i.val = false)

theorem heeded_of_heeds (heeds : s.heeds c o) : Heeded c o s := by
  obtain ⟨powered, line⟩ := heeds
  cases fault : o.fault with
  | true => exact .fault (.inl ⟨powered, fault⟩)
  | false =>
    rw [fault] at line
    rcases line with bad | ⟨state, ready⟩ | ⟨state, lane⟩ | ⟨state, i, below, bad⟩ | ⟨state, sample, lane⟩
    · cases bad
    · exact .ready fault state ready
    · exact .verify fault state lane
    · by_cases tx : ∃ i : Fin 8, i.val < s.lanesOf c ∧ o.txFault.getLsbD i.val = true
      · exact .fault (.inr ⟨state, tx⟩)
      · have clear : ∀ i : Fin 8, i.val < s.lanesOf c → o.txFault.getLsbD i.val = false :=
          fun i below => Bool.eq_false_iff.2 fun h => tx ⟨i, below, h⟩
        exact .flap fault state clear ⟨i, below, bad.resolve_left fun h => tx ⟨i, below, h⟩⟩
    · exact .dark fault state sample lane

theorem heeds_congr (state : (u.cage c).state = (s.cage c).state) (lanes : u.lanesOf c = s.lanesOf c) :
    u.heeds c o ↔ s.heeds c o := by
  rw [State.heeds, State.heeds, state, lanes]

/-- Where an observation starts the settling of its cage (R22). -/
def State.lights (s : State) (c : Cage) (o : Observation) : Prop :=
  o.fault = false ∧ (s.cage c).state = .powerUp ∧ o.ready = true

/-! ### What an observation leaves -/

theorem takeFlap_cageScan (c : Cage) (s : State) : (takeFlap c s).cageScan c = s.cageScan c := by
  rcases Nat.lt_or_ge ((flapped c s).penalty c).value s.conf.suppress with low | high
  · rw [takeFlap_unsuppressed low]
    exact cageScan_congr (congrArg ScanUnit.cages (enterTrainAfresh_goes c (flapped c s)).scan) c
  · rw [takeFlap_suppressed high]
    exact cageScan_congr (congrArg ScanUnit.cages (enterHoldDown_goes c _).scan) c

theorem trainingRetry_cageScan (c : Cage) (timeout : Bool) (s : State) :
    (trainingRetry c timeout s).cageScan c = s.cageScan c := by
  rcases Nat.lt_or_ge (s.cage c).trainRetries 3 with few | spent
  · rw [trainingRetry_again few]
    exact cageScan_congr (congrArg ScanUnit.cages (enterTrain_goes c timeout _).scan) c
  · rw [trainingRetry_spent spent, enterFaulted_cageScan]
    rfl

theorem observe_onlyCage (c : Cage) (o : Observation) (s : State) : OnlyCage c s (observe c o s) := by
  by_cases heeds : s.heeds c o
  case neg => rw [observe_unheeded heeds]; exact .refl c s
  cases heeded_of_heeds heeds with
  | fault heard => rw [observe_fault heard]; exact enterFaulted_onlyCage c _ s
  | ready fault powerUp ready => rw [observe_ready fault powerUp ready]; exact enterLightSettle_onlyCage c s
  | verify fault verify lane => rw [observe_verify fault verify lane]; exact (trainingRetry_taken c false s).only
  | flap fault service clear lane => rw [observe_flap fault service clear lane]; exact (takeFlap_taken c s).only
  | dark fault dark sample lane => rw [observe_dark fault dark sample lane]; exact (enterTrainAfresh_goes c s).only

theorem observe_cageScan (not : ¬ s.lights c o) : (observe c o s).cageScan c = s.cageScan c := by
  by_cases heeds : s.heeds c o
  case neg => rw [observe_unheeded heeds]
  cases heeded_of_heeds heeds with
  | fault heard => rw [observe_fault heard, enterFaulted_cageScan]
  | ready fault powerUp ready => exact absurd ⟨fault, powerUp, ready⟩ not
  | verify fault verify lane => rw [observe_verify fault verify lane, trainingRetry_cageScan]
  | flap fault service clear lane => rw [observe_flap fault service clear lane, takeFlap_cageScan]
  | dark fault dark sample lane =>
    rw [observe_dark fault dark sample lane]
    exact cageScan_congr (congrArg ScanUnit.cages (enterTrainAfresh_goes c s).scan) c

theorem inTrain_state (conf : Settings) (link : Bool) (k : CageRecord) :
    (k.inTrain conf link).state = .train ∨ (k.inTrain conf link).state = .verify := by
  cases link
  · exact .inl rfl
  · exact .inr rfl

/-- A cage that is settling takes a lane verdict (R142). -/
def CageState.takesVerdict (st : CageState) : Prop := st = .lightSettle ∨ st = .relight

theorem not_takesVerdict_of_train {st : CageState} (train : st = .train ∨ st = .verify) : ¬ st.takesVerdict := by
  rcases train with rfl | rfl <;> exact fun h => h.elim nofun nofun

/-- An observation that has an effect other than LIGHT-SETTLE leaves its cage where no lane verdict is taken. -/
theorem observe_state (heeds : s.heeds c o) (not : ¬ s.lights c o) : ¬ ((observe c o s).cage c).state.takesVerdict := by
  have trained : ∀ {v : State} {k : CageRecord} {conf : Settings} {link : Bool}, v.recordIs c (k.inTrain conf link) →
      ¬ (v.cage c).state.takesVerdict := fun is => by
    rw [is.state]
    exact not_takesVerdict_of_train (inTrain_state _ _ _)
  cases heeded_of_heeds heeds with
  | fault heard =>
    rw [observe_fault heard, enterFaulted_cage]
    exact fun h => h.elim nofun nofun
  | ready fault powerUp ready => exact absurd ⟨fault, powerUp, ready⟩ not
  | verify fault verify lane =>
    rw [observe_verify fault verify lane]
    have taken := trainingRetry_taken c false s
    rcases Nat.lt_or_ge (s.cage c).trainRetries 3 with few | spent
    · exact trained (taken.again few).2.2.1
    · rw [(taken.spent spent).1]
      exact fun h => h.elim nofun nofun
  | flap fault service clear lane =>
    rw [observe_flap fault service clear lane]
    have taken := takeFlap_taken c s
    rcases Nat.lt_or_ge ((takeFlap c s).penalty c).value s.conf.suppress with low | high
    · exact trained (taken.trained low).1
    · rw [(taken.held high).1.state]
      exact fun h => h.elim nofun nofun
  | dark fault dark sample lane =>
    rw [observe_dark fault dark sample lane]
    exact trained (enterTrainAfresh_goes c s).record

/-! ### The lane verdict (R22, R30, R142) -/

theorem takeLaneVerdict_discarded {verdict : Bool} (not : ¬ (s.cage c).state.takesVerdict) :
    takeLaneVerdict c verdict s = s := by
  rw [takeLaneVerdict]
  split
  next settle => exact absurd (.inl settle) not
  next relight => exact absurd (.inr relight) not
  next => rfl

theorem takeLaneVerdict_relight {verdict : Bool} (relight : (s.cage c).state = .relight) :
    takeLaneVerdict c verdict s = if verdict then enterTrain c false (s.updCage c (fun k => { k with laneStable := verdict }))
      else s.updCage c (fun k => { k with laneStable := verdict }) := by
  simp only [takeLaneVerdict, relight]

theorem takeLaneVerdict_settles {verdict : Bool} (settle : (s.cage c).state = .lightSettle) :
    takeLaneVerdict c verdict s = settlePair c (s.updCage c (fun k => { k with laneStable := verdict })) := by
  simp only [takeLaneVerdict, settle]

theorem settlePair_leaves (c : Cage) (s : State) : OnlyCage c s (settlePair c s) ∧ (settlePair c s).scan = s.scan := by
  unfold settlePair
  dsimp only
  split
  · have went := enterTrainAfresh_goes c s
    exact ⟨went.only, went.scan⟩
  · exact ⟨.refl c s, rfl⟩

theorem takeLaneVerdict_leaves (c : Cage) (verdict : Bool) (s : State) :
    OnlyCage c s (takeLaneVerdict c verdict s) ∧ (takeLaneVerdict c verdict s).scan = s.scan := by
  let noted := s.updCage c (fun k => { k with laneStable := verdict })
  have only : OnlyCage c s noted := updCage_onlyCage c _ s
  by_cases takes : (s.cage c).state.takesVerdict
  case neg => rw [takeLaneVerdict_discarded takes]; exact ⟨.refl c s, rfl⟩
  rcases takes with settle | relight
  · rw [takeLaneVerdict_settles settle]
    obtain ⟨paired, scan⟩ := settlePair_leaves c noted
    exact ⟨only.trans paired, scan⟩
  · rw [takeLaneVerdict_relight relight]
    split
    · have went := enterTrain_goes c false noted
      exact ⟨only.trans went.only, went.scan⟩
    · exact ⟨only, rfl⟩

/-! ### A completed scan (R138, R141 to R143) -/

variable {g : Seg} {cur : Cursor} {bytes : List Byte}

/-- The state in which the observation of a completed scan is judged: its record is there (R138, R141). -/
theorem keepSample_cageScan (c : Cage) (lanes : Nat) (bytes : List Byte) (s : State) :
    (keepSample c lanes bytes s).cageScan c = { s.cageScan c with
      sample := some (sampleOf s.startup.stationTime lanes bytes (s.cageScan c).history.getLast?) } :=
  cageScan_updScan _ _ _

theorem fillWindows_cageScan (c : Cage) (lanes : Nat) (bytes : List Byte) (s : State) :
    (fillWindows c lanes bytes s).cageScan c =
      (s.cageScan c).fill ((List.range lanes).map (laneEntry bytes)) := cageScan_updScan _ _ _

/-- What an observation leaves of the units, the scan ended. -/
def State.seen (s : State) (g : Seg) (cur : Cursor) (bytes : List Byte) : State :=
  (observe cur.cage (observationOf true bytes) (keepSample cur.cage cur.lanes bytes s)).updScanner g (Scanner.ended .idle)

theorem seen_cage (d : Cage) : (s.seen g cur bytes).cage d =
    (observe cur.cage (observationOf true bytes) (keepSample cur.cage cur.lanes bytes s)).cage d := rfl

/-- A scan that takes POWER-UP to LIGHT-SETTLE leaves the windows it clears (R143, log entry 22). -/
theorem completeScan_lights (lights : s.lights cur.cage (observationOf true bytes)) :
    completeScan g cur bytes s = s.seen g cur bytes := by
  obtain ⟨fault, powerUp, ready⟩ := lights
  let kept := keepSample cur.cage cur.lanes bytes s
  have lit : ((observe cur.cage (observationOf true bytes) kept).cage cur.cage).state = .lightSettle := by
    rw [observe_ready (s := kept) fault powerUp ready]
    exact (enterLightSettle_record cur.cage kept).state
  refine if_pos ?_
  rw [startsSettling, Bool.and_eq_true, decide_eq_true_eq, decide_eq_true_eq]
  exact ⟨by rw [powerUp]; nofun, lit⟩

/-- Every other completed scan joins the windows and gives its verdict (R142). -/
theorem completeScan_fills (not : ¬ s.lights cur.cage (observationOf true bytes)) :
    completeScan g cur bytes s = handLanes cur bytes (s.seen g cur bytes) := by
  let kept := keepSample cur.cage cur.lanes bytes s
  refine if_neg ?_
  rw [startsSettling, Bool.and_eq_true, decide_eq_true_eq, decide_eq_true_eq]
  rintro ⟨before, after⟩
  by_cases heeds : kept.heeds cur.cage (observationOf true bytes)
  · exact observe_state heeds not (.inl after)
  · rw [observe_unheeded (s := kept) heeds] at after
    exact before after

theorem seen_onlyCage : OnlyCage cur.cage s (s.seen g cur bytes) := by
  have kept : OnlyCage cur.cage s (keepSample cur.cage cur.lanes bytes s) := updScan_onlyCage _ _ s
  exact (kept.trans (observe_onlyCage _ _ _)).trans (updScanner_onlyCage _ _ _ _)

theorem completeScan_onlyCage : OnlyCage cur.cage s (completeScan g cur bytes s) := by
  by_cases lights : s.lights cur.cage (observationOf true bytes)
  · rw [completeScan_lights lights]
    exact seen_onlyCage
  · rw [completeScan_fills lights]
    exact (seen_onlyCage.trans (updScan_onlyCage _ _ _)).trans (takeLaneVerdict_leaves _ _ _).1

/-- The scan record of a cage whose scan is completed (R141 to R143). -/
theorem completeScan_cageScan (not : ¬ s.lights cur.cage (observationOf true bytes)) :
    (completeScan g cur bytes s).cageScan cur.cage =
      CageScan.fill ((List.range cur.lanes).map (laneEntry bytes))
        ((keepSample cur.cage cur.lanes bytes s).cageScan cur.cage) := by
  have seen : (s.seen g cur bytes).cageScan cur.cage = (keepSample cur.cage cur.lanes bytes s).cageScan cur.cage :=
    observe_cageScan (s := keepSample cur.cage cur.lanes bytes s) not
  rw [completeScan_fills not, handLanes,
    cageScan_congr (congrArg ScanUnit.cages (takeLaneVerdict_leaves cur.cage _ _).2) cur.cage, fillWindows_cageScan, seen]

theorem completeScan_lights_cageScan (lights : s.lights cur.cage (observationOf true bytes)) :
    (completeScan g cur bytes s).cageScan cur.cage =
      ((keepSample cur.cage cur.lanes bytes s).cageScan cur.cage).clearWindows := by
  obtain ⟨fault, powerUp, ready⟩ := lights
  rw [completeScan_lights ⟨fault, powerUp, ready⟩]
  have seen := observe_ready (s := keepSample cur.cage cur.lanes bytes s) fault powerUp ready
  rw [← enterLightSettle_windows, ← seen]
  rfl

end Sys2Proof.Machine
end

section
/-! PROOF. The observation of a status read and of a completed scan at their events (R9, R10, R30, R138). -/

namespace Sys2Proof.Machine

variable {c : Cage} {o : Observation} {s t u : State} {g : Seg} {k : Chunk} {r : LinkRequest} {cur : Cursor}

/-- The last chunk of a scan completes it (R138). -/
theorem scanChunk_ends {data : List Byte} (free : s.startup.resetHeld = false) (trying : (s.link g).state = .chunk)
    (chunk : (s.link g).chunk = some k) (going : k.ending = .none) (held : (s.link g).inSlot k.slot = some r)
    (origin : r.origin = .scanner) (cage : segOf r.cage = g) (scanning : (s.scanner g).phase = .scanning)
    (cursor : (s.scanner g).cursor = some cur) (last : (scanPlan cur.lanes).length ≤ cur.index + 1)
    (ended : readEnded k r data) : ∃ t, exec (.chunkDone g data) s = .next t ∧
      EndsAs (completeScan g cur ((s.scanner g).sampleBytes ++ (r.bytes ++ data)) (s.chunkOver g k .idle)) t := by
  obtain ⟨read, fits, whole⟩ := ended
  obtain ⟨t, answer, ends⟩ := chunkDone_ends free trying chunk going (.inr fits) held whole
  have scanner : ((s.chunkOver g k .idle).scanner g) = s.scanner g := rfl
  have complete : deliver (s.chunkOver g k .idle) ⟨r, .done (r.bytes ++ data)⟩ =
      completeScan g cur ((s.scanner g).sampleBytes ++ (r.bytes ++ data)) (s.chunkOver g k .idle) := by
    simp only [deliver, origin, cage, scanOutcome, scanner, scanning, cursor]
    exact if_neg (Nat.not_lt.2 last)
  rw [read] at ends
  exact ⟨t, answer, complete ▸ ends⟩

theorem scanTry_ends {data : List Byte} (try_ : ScanTry s g k r cur c) (ended : readEnded k r data) :
    ∃ t, exec (.chunkDone g data) s = .next t ∧
      EndsAs (completeScan g cur ((s.scanner g).sampleBytes ++ (r.bytes ++ data)) (s.chunkOver g k .idle)) t :=
  scanChunk_ends try_.free try_.trying try_.chunk try_.going (by rw [try_.slot]; exact try_.held) try_.origin
    (by rw [try_.cage]; exact try_.segment) try_.scanning try_.cursor try_.last ended

/-- Two states alike in what an observation of a cage is judged by. -/
structure LikeFor (c : Cage) (u s : State) : Prop where
  startup : u.startup = s.startup
  line    : u.line c = s.line c
  lanes   : u.lanesOf c = s.lanesOf c
  penalty : u.penalty c = s.penalty c
  events  : u.events = s.events
  claims  : u.claims = s.claims
  sample  : (u.cageScan c).sample = (s.cageScan c).sample

theorem Observed.like {record : CageRecord} (h : Observed c o record u t) (like : LikeFor c u s) :
    Observed c o record s t := by
  have conf : u.conf = s.conf := by rw [State.conf, State.conf, like.startup]
  have made : ∀ {kind before cause p}, recorded u t c kind before cause p → recorded s t c kind before cause p :=
    fun made => made.of_sample like.startup like.sample like.events
  obtain ⟨fault, ready, verify, flap, dark⟩ := h
  rw [like.lanes] at fault verify flap dark
  rw [like.penalty] at fault ready verify dark
  rw [conf, like.events, like.line, like.claims] at ready
  rw [conf, like.events] at dark
  refine ⟨fun heard => ?_, ready, fun a b c => ?_, fun a b c d => ?_, dark⟩
  · obtain ⟨cage, penalty, made'⟩ := fault heard
    exact ⟨cage, penalty, made made'⟩
  · obtain ⟨⟨again, spent⟩, penalty⟩ := verify a b c
    rw [conf, like.events] at again
    rw [like.penalty] at spent
    exact ⟨⟨again, fun three => ⟨(spent three).1, made (spent three).2⟩⟩, penalty⟩
  · obtain ⟨penalty, held, trained⟩ := flap a b c d
    rw [conf, like.penalty] at penalty
    rw [conf, like.lanes] at held
    rw [conf] at trained
    exact ⟨penalty, held, trained⟩

/-! ### A status read that is DONE (R9, R10) -/

/-- A status read DONE sets the link failure count to 0 and is judged in its own visit (R4, R9, R10). -/
theorem crsOutcome_status {q : CrsRequest} {bytes : List Byte} (kind : q.kind = .readyPoll ∨ q.kind = .alertRead)
    (powered : (s.cage c).state.powered = true) : crsOutcome c q false (.done bytes) s =
      if (s.cage c).visit = q.visit then
        observe c (observationOf false bytes) (s.updCage c (fun k => { k with linkFails := 0 }))
      else s.updCage c (fun k => { k with linkFails := 0 }) := by
  rw [crsOutcome, if_neg nofun]
  simp only [LinkOutcome.isDone, countFailure_good powered, Bool.false_eq_true, if_false]
  rcases kind with kind | kind <;>
    simp only [actOnOutcome, kind, actOnStatus, cage_updCage, decide_eq_true_eq]

theorem statusRead_observed {q : CrsRequest} {data : List Byte} (try_ : CrsTry s g k r q false c)
    (ended : readEnded k r data) (kind : q.kind = .readyPoll ∨ q.kind = .alertRead)
    (powered : (s.cage c).state.powered = true) :
    let o := observationOf false (r.bytes ++ data)
    let record : CageRecord := { s.cage c with linkFails := 0 }
    ∃ t, exec (.chunkDone g data) s = .next t ∧ OnlyCage c s t ∧
      ((s.cage c).visit = q.visit → Observed c o record s t) ∧
      ((s.cage c).visit ≠ q.visit ∨ ¬ s.heeds c o →
        t.recordIs c record ∧ t.penalty c = s.penalty c ∧ t.events = s.events) := by
  intro o record
  obtain ⟨t, answer, ends⟩ := crsTry_readEnded try_ ended
  rw [crsOutcome_status (s := s.chunkOver g k .idle) kind powered] at ends
  let counted := (s.chunkOver g k .idle).updCage c (fun k => { k with linkFails := 0 })
  change EndsAs (if (s.cage c).visit = q.visit then observe c o counted else counted) t at ends
  have cage : counted.cage c = record := cage_updCage _ _ _
  have like : LikeFor c counted s := ⟨rfl, rfl, by rw [State.lanesOf, cage]; rfl, rfl, rfl, rfl, rfl⟩
  have only : OnlyCage c s counted := (chunkOver_onlyCage c g k .idle s).trans (updCage_onlyCage c _ _)
  have silent : EndsAs counted t → t.recordIs c record ∧ t.penalty c = s.penalty c ∧ t.events = s.events :=
    fun ends => ⟨ends.recordIs (by rw [← cage]; exact recordIs_self _ _), ends.penalty c, ends.same.events⟩
  by_cases visit : (s.cage c).visit = q.visit
  · have ends : EndsAs (observe c o counted) t := by rwa [if_pos visit] at ends
    refine ⟨t, answer, ends.onlyCage (only.trans (observe_onlyCage c o counted)), fun _ => ?_, fun or => ?_⟩
    · have observed := observed_of_ends (sc := (observe c o counted).scan) ends fun _ _ _ => rfl
      rw [cage] at observed
      exact observed.like like
    · have not : ¬ s.heeds c o := or.resolve_left (fun other => other visit)
      rw [← heeds_congr (u := counted) (by rw [cage]) like.lanes] at not
      rw [observe_unheeded not] at ends
      exact silent ends
  · have ends : EndsAs counted t := by rwa [if_neg visit] at ends
    exact ⟨t, answer, ends.onlyCage only, fun same => absurd same visit, fun _ => silent ends⟩

/-! ### A completed scan (R30, R138, R142) -/

theorem windows_of_fill (x : CageScan) (lanes : Nat) (bytes : List Byte) (sample : Option Sample) (i : Fin 8) :
    (CageScan.fill ((List.range lanes).map (laneEntry bytes)) { x with sample := sample }).windows[i] =
      filledWindow x lanes bytes i := fill_windows { x with sample := sample } lanes bytes i

theorem laneVerdict_iff {lanes : Nat} {bytes : List Byte} {x : CageScan} {sample : Option Sample}
    (scan : s.cageScan c = CageScan.fill ((List.range lanes).map (laneEntry bytes)) { x with sample := sample })
    (bounded : ∀ i : Fin 8, ∀ v ∈ x.windows[i], v ≤ 65535) :
    s.laneVerdict c lanes = true ↔ ∀ i : Fin 8, i.val < lanes → StableWindow s.conf (filledWindow x lanes bytes i) := by
  rw [State.laneVerdict, scan, lanesStable_iff]
  · simp only [windows_of_fill]
  · intro i
    rw [windows_of_fill]
    exact filledWindow_bounded (bounded i)

/-- A completed scan whose cage takes no lane verdict (R142). -/
theorem handLanes_unsettled {bytes : List Byte} (not : ¬ (s.cage cur.cage).state.takesVerdict) :
    handLanes cur bytes s = fillWindows cur.cage cur.lanes bytes s := takeLaneVerdict_discarded not

/-- An observation that has an effect leaves no lane verdict to be taken, and moves the scan unit beside (R142). -/
theorem completeScan_heeded {bytes : List Byte} (heeds : s.heeds cur.cage (observationOf true bytes))
    (ends : EndsAs (completeScan g cur bytes s) t) :
    Observed cur.cage (observationOf true bytes) (s.cage cur.cage) (keepSample cur.cage cur.lanes bytes s) t := by
  by_cases lights : s.lights cur.cage (observationOf true bytes)
  · rw [completeScan_lights lights] at ends
    exact observed_of_ends ends fun _ _ _ => rfl
  · have unsettled := observe_state (s := keepSample cur.cage cur.lanes bytes s) heeds lights
    rw [completeScan_fills lights, handLanes_unsettled (s := s.seen g cur bytes) unsettled] at ends
    exact observed_of_ends (s := keepSample cur.cage cur.lanes bytes s) ends
      fun fault powerUp ready => absurd ⟨fault, powerUp, ready⟩ lights

/-- A completed scan whose observation has no effect hands on its lanes (R142). -/
theorem completeScan_unheeded {bytes : List Byte} (not : ¬ s.heeds cur.cage (observationOf true bytes)) :
    completeScan g cur bytes s = handLanes cur bytes
      ((keepSample cur.cage cur.lanes bytes s).updScanner g (Scanner.ended .idle)) := by
  have unlit : ¬ s.lights cur.cage (observationOf true bytes) := fun ⟨_, powerUp, ready⟩ =>
    not ⟨by rw [powerUp]; rfl, .inr (.inl ⟨powerUp, ready⟩)⟩
  rw [completeScan_fills unlit, State.seen, observe_unheeded (s := keepSample cur.cage cur.lanes bytes s) not]

/-- What a lane verdict does to a cage in RELIGHT (R30). -/
theorem relight_ends {verdict : Bool} (relight : (s.cage c).state = .relight)
    (ends : EndsAs (takeLaneVerdict c verdict s) t) : t.penalty c = s.penalty c ∧ t.events = s.events ∧
    (verdict = true → t.recordIs c (({ s.cage c with laneStable := true } : CageRecord).inTrain s.conf (t.line c).link)) ∧
    (verdict = false → t.recordIs c { s.cage c with laneStable := false }) := by
  rw [takeLaneVerdict_relight relight] at ends
  have cage := cage_updCage s c (fun k => { k with laneStable := verdict })
  cases verdict with
  | true =>
    have goes := enterTrain_goes c false (s.updCage c (fun k => { k with laneStable := true }))
    have link : (t.line c).link = (s.line c).link := (congrArg CageLines.link (ends.line c)).trans goes.link
    rw [cage] at goes
    rw [link]
    exact ⟨(ends.penalty c).trans (penalty_congr goes.penalties c), ends.same.events.trans goes.events,
      fun _ => ends.recordIs goes.record, nofun⟩
  | false => exact ⟨ends.penalty c, ends.same.events, nofun, fun _ => ends.recordIs (by
      rw [← cage]
      exact recordIs_self _ _)⟩

end Sys2Proof.Machine
end

section
/-! PROOF. What a cage that leaves its request list and its rota leaves at its arbiter and its scanner (R7, R120, R135, R139). -/

namespace Sys2Proof.Machine

variable {c d : Cage} {g : Seg} {s v : State}

/-! ### A CRS slot set -/

theorem crsSlot_setCrs (c d : Cage) (x : Option LinkRequest) (s : State) :
    (s.updLink (segOf c) (Link.setSlot (.crs c) x)).crsSlot d = if d = c then x else s.crsSlot d := by
  by_cases same : d = c
  · subst same
    rw [if_pos rfl, State.crsSlot, link_updLink, inSlot_setSlot_same]
  · rw [if_neg same, State.crsSlot, State.crsSlot]
    by_cases segment : segOf d = segOf c
    · rw [segment, link_updLink]
      exact Vector.getElem_set_ne (slotIx c).isLt (slotIx d).isLt
        fun h => same (slotIx_inj segment (Fin.ext h.symm))
    · rw [link_updLink_other _ _ _ _ segment]

/-! ### The request of a cage withdrawn (R7, R120) -/

/-- The CRS slot of a cage after its request has been withdrawn (R120). -/
def LinkRequest.withdrawn (r : LinkRequest) : Option LinkRequest := if r.granted then some r.discarded else none

theorem withdrawCrs_none (empty : s.crsSlot c = none) : withdrawCrs c s = s := by
  rw [withdrawCrs, empty]

theorem withdrawCrs_some {r : LinkRequest} (held : s.crsSlot c = some r) :
    withdrawCrs c s = s.updLink (segOf c) (Link.setSlot (.crs c) r.withdrawn) := by
  rw [withdrawCrs, held, LinkRequest.withdrawn]
  dsimp only
  split <;> rfl

/-- What a withdrawal leaves of the arbiters. -/
structure CrsWithdrawn (c : Cage) (v w : State) : Prop where
  rest    : w = { v with links := w.links }
  others  : ∀ g : Seg, g ≠ segOf c → w.link g = v.link g
  segment : w.link (segOf c) = { v.link (segOf c) with crsSlots := (w.link (segOf c)).crsSlots }
  slots   : ∀ d : Cage, d ≠ c → w.crsSlot d = v.crsSlot d
  own     : w.crsSlot c = (v.crsSlot c).bind LinkRequest.withdrawn

theorem withdrawCrs_withdrawn (c : Cage) (v : State) : CrsWithdrawn c v (withdrawCrs c v) := by
  cases held : v.crsSlot c with
  | none =>
    rw [withdrawCrs_none held]
    exact ⟨rfl, fun _ _ => rfl, rfl, fun _ _ => rfl, by rw [held]; rfl⟩
  | some r =>
    rw [withdrawCrs_some held]
    refine ⟨rfl, fun h other => link_updLink_other v _ _ _ other, ?_, fun d other => ?_, ?_⟩
    · rw [link_updLink]
      rfl
    · rw [crsSlot_setCrs, if_neg other]
    · rw [crsSlot_setCrs, if_pos rfl, held]
      rfl

/-! ### The scan of a cage discarded (R135, R139) -/

/-- What a discarded scan leaves of the arbiters and the scanners, where the cage was the one of the cursor. -/
structure ScanDropped (c : Cage) (v w : State) : Prop where
  rest     : w = { v with links := w.links, scan := { v.scan with scanners := w.scan.scanners } }
  others   : ∀ g : Seg, g ≠ segOf c → w.link g = v.link g ∧ w.scanner g = v.scanner g
  segment  : w.link (segOf c) = { v.link (segOf c) with scanner := (w.link (segOf c)).scanner }
  slots    : ∀ d : Cage, w.crsSlot d = v.crsSlot d
  scanning : ∀ cur, (v.scanner (segOf c)).cursor = some cur → cur.cage = c →
    (w.scanner (segOf c)).cursor = none ∧ (w.scanner (segOf c)).sampleBytes = [] ∧
    (w.scanner (segOf c)).slotTimer = (v.scanner (segOf c)).slotTimer ∧
    (((w.scanner (segOf c)).phase = .draining ∧ (w.link (segOf c)).scanner = (v.link (segOf c)).scanner ∧
        ∃ r, (v.link (segOf c)).scanner = some r ∧ r.granted = true) ∨
      ((w.scanner (segOf c)).phase = .idle ∧ (w.link (segOf c)).scanner = none ∧
        ∀ r, (v.link (segOf c)).scanner = some r → r.granted = false))
  calm     : (∀ cur, (v.scanner (segOf c)).cursor = some cur → cur.cage ≠ c) →
    w.scanner (segOf c) = v.scanner (segOf c) ∧ (w.link (segOf c)).scanner = (v.link (segOf c)).scanner

theorem underScan_iff (s : State) (c : Cage) :
    s.underScan c = true ↔ ∃ cur, (s.scanner (segOf c)).cursor = some cur ∧ cur.cage = c := by
  unfold State.underScan
  cases (s.scanner (segOf c)).cursor <;> simp

theorem crsSlot_clearScanner (g : Seg) (d : Cage) (s : State) : (clearSlot g .scanner s).crsSlot d = s.crsSlot d := by
  rw [State.crsSlot, State.crsSlot, clearSlot]
  by_cases same : segOf d = g
  · subst same
    rw [link_updLink]
    rfl
  · rw [link_updLink_other _ _ _ _ same]

theorem scanner_updScanner_ended (g : Seg) (phase : ScanPhase) (s : State) :
    ((s.updScanner g (Scanner.ended phase)).scanner g) = (s.scanner g).ended phase := scanner_updScanner _ _ _

/-- A scan whose chunk waits ungranted, or that has none, is over at once (R139). -/
theorem discardScan_waiting (waits : ∀ r, (s.link g).scanner = some r → r.granted = false) :
    discardScan g s = clearSlot g .scanner (s.updScanner g (Scanner.ended .idle)) ∨
    (discardScan g s = s.updScanner g (Scanner.ended .idle) ∧ (s.link g).scanner = none) := by
  cases slot : (s.link g).scanner with
  | none => exact .inr ⟨by rw [discardScan, slot], rfl⟩
  | some r =>
    refine .inl ?_
    rw [discardScan, slot]
    exact if_neg (by rw [waits r slot]; nofun)

theorem dropScanOf_dropped (c : Cage) (v : State) : ScanDropped c v (dropScanOf c v) := by
  by_cases under : v.underScan c = true
  case neg =>
    have stays : dropScanOf c v = v := if_neg under
    rw [stays]
    refine ⟨rfl, fun _ _ => ⟨rfl, rfl⟩, rfl, fun _ => rfl, fun cur cursor cage => ?_, fun _ => ⟨rfl, rfl⟩⟩
    exact absurd ((underScan_iff v c).2 ⟨cur, cursor, cage⟩) under
  have drops : dropScanOf c v = discardScan (segOf c) v := if_pos under
  obtain ⟨cur, cursor, cage⟩ := (underScan_iff v c).1 under
  have busy : ∀ {p : Prop}, (∀ cur, (v.scanner (segOf c)).cursor = some cur → cur.cage ≠ c) → p :=
    fun calm => absurd cage (calm cur cursor)
  have scanner := scanner_updScanner_ended (segOf c)
  have other : ∀ (phase : ScanPhase) (g : Seg), g ≠ segOf c →
      (v.updScanner (segOf c) (Scanner.ended phase)).scanner g = v.scanner g :=
    fun phase g other => scanner_updScanner_other _ _ _ _ other
  rw [drops]
  by_cases granted : ∃ r, (v.link (segOf c)).scanner = some r ∧ r.granted = true
  · obtain ⟨r, slot, grant⟩ := granted
    have drains : discardScan (segOf c) v = v.updScanner (segOf c) (Scanner.ended .draining) := by
      rw [discardScan, slot]
      exact if_pos grant
    rw [drains]
    refine ⟨rfl, fun g not => ⟨rfl, other _ g not⟩, rfl, fun _ => rfl, fun _ _ _ => ?_, busy⟩
    rw [scanner]
    exact ⟨rfl, rfl, rfl, .inl ⟨rfl, rfl, r, slot, grant⟩⟩
  · have waits : ∀ r, (v.link (segOf c)).scanner = some r → r.granted = false :=
      fun r slot => Bool.eq_false_iff.2 fun grant => granted ⟨r, slot, grant⟩
    rcases discardScan_waiting waits with cleared | ⟨ended, empty⟩
    · rw [cleared]
      have link : (clearSlot (segOf c) .scanner (v.updScanner (segOf c) (Scanner.ended .idle))).link (segOf c) =
          { v.link (segOf c) with scanner := none } := link_updLink _ _ _
      refine ⟨rfl, fun g not => ⟨link_updLink_other _ _ _ _ not, other _ g not⟩, by rw [link],
        fun d => crsSlot_clearScanner _ d _, fun _ _ _ => ?_, busy⟩
      rw [link]
      have own : (clearSlot (segOf c) .scanner (v.updScanner (segOf c) (Scanner.ended .idle))).scanner (segOf c) =
          (v.scanner (segOf c)).ended .idle := scanner .idle v
      rw [own]
      exact ⟨rfl, rfl, rfl, .inr ⟨rfl, rfl, waits⟩⟩
    · rw [ended]
      refine ⟨rfl, fun g not => ⟨rfl, other _ g not⟩, rfl, fun _ => rfl, fun _ _ _ => ?_, busy⟩
      rw [scanner]
      exact ⟨rfl, rfl, rfl, .inr ⟨rfl, empty, waits⟩⟩

/-! ### Both, as a cage enters a state that empties its list -/

theorem listEmptied (c : Cage) (v : State) : ListEmptied c v (withdrawCrs c (dropScanOf c v)) := by
  have drop := dropScanOf_dropped c v
  have took := withdrawCrs_withdrawn c (dropScanOf c v)
  generalize dropScanOf c v = d at *
  generalize withdrawCrs c d = w at *
  have scanners : w.scan = d.scan := by rw [took.rest]
  have scanner : ∀ g, w.scanner g = d.scanner g := fun g => by rw [State.scanner, State.scanner, scanners]
  have slot : (w.link (segOf c)).scanner = (d.link (segOf c)).scanner := by rw [took.segment]
  have own : w.crsSlot c = (v.crsSlot c).bind LinkRequest.withdrawn := by rw [took.own, drop.slots c]
  refine ⟨?_, fun g other => ?_, ?_, fun k other => (took.slots k other).trans (drop.slots k), fun r held waits => ?_,
    fun r held granted => ?_, fun empty => ?_, ?_, ?_⟩
  · rw [took.rest, drop.rest]
  · exact ⟨(took.others g other).trans (drop.others g other).1, (scanner g).trans (drop.others g other).2⟩
  · rw [took.segment, drop.segment]
  · rw [own, held, Option.bind_some, LinkRequest.withdrawn, waits]
    rfl
  · rw [own, held, Option.bind_some, LinkRequest.withdrawn, granted]
    rfl
  · rw [own, empty]
    rfl
  · rw [scanner, slot]
    exact drop.scanning
  · rw [scanner, slot]
    exact drop.calm

/-- The arbiters and scanners of a cage that enters FAULTED, VACANT, MANUAL-HOLD or DISABLED (R7, R135). -/
theorem leaveArbiter_emptied {new : CageState} (off : new.powered = false) (empties : new.emptiesList = true)
    (c : Cage) (v : State) : (leaveArbiter c new v).links = (withdrawCrs c (dropScanOf c v)).links ∧
    (leaveArbiter c new v).scan = (withdrawCrs c (dropScanOf c v)).scan := by
  have leaves : leaveArbiter c new v = emptyRequests c (dropScanOf c v) := by
    simp only [leaveArbiter, off, empties, Bool.false_eq_true, if_false, if_true]
  have slot : ((dropScanOf c v).updCage c (fun k => { k with requests := [] })).crsSlot c = (dropScanOf c v).crsSlot c := rfl
  rw [leaves, emptyRequests]
  cases held : (dropScanOf c v).crsSlot c with
  | none =>
    rw [withdrawCrs_none held, withdrawCrs_none (slot.trans held)]
    exact ⟨rfl, rfl⟩
  | some r =>
    rw [withdrawCrs_some held, withdrawCrs_some (slot.trans held)]
    exact ⟨rfl, rfl⟩

/-- A cage that enters FAULTED with no request with the arbiter leaves it none (R7). -/
theorem enterFaulted_crsSlot {cause : FaultCause} (empty : s.crsSlot c = none) :
    (enterFaulted c cause s).crsSlot c = none := by
  have links : ∀ u : State, u.links = s.links →
      (leaveArbiter c .faulted (claimHandOff c (s.cage c).state .faulted u)).crsSlot c = none := fun u same => by
    rw [crsSlot_congr (leaveArbiter_emptied (new := .faulted) rfl rfl c _).1 c]
    exact (listEmptied c _).empty ((crsSlot_congr (by simp) c).trans ((crsSlot_congr same c).trans empty))
  exact (crsSlot_congr (moveCage_links c .faulted cause (handRecord c .fault (s.cage c).state (some cause) s)) c).trans
    (links (handRecord c .fault (s.cage c).state (some cause) s) rfl)

end Sys2Proof.Machine
end

section
/-! PROOF. O13: what a status observation, a lane verdict, and a LINK_UP drop in VERIFY do to a cage. -/

namespace Sys2Proof.Machine

/-- A LINK_UP drop in VERIFY is a training retry with no lane restart written (R24, R26). -/
theorem verifyDrop_retried {c : Cage} {s : State} (free : s.startup.resetHeld = false) (verify : (s.cage c).state = .verify)
    (hold : (s.line c).linkHold.isSome) (raw : (s.line c).linkRaw = false) (up : (s.line c).link = true) :
    ∃ t, exec (.linkUpHoldExpiry c) s = .next t ∧ OnlyCage c s t ∧
      t.penalty c = s.penalty c ∧ (t.line c).link = false ∧ Retried c (s.cage c) s t ∧
      (s.crsSlot c = none → (s.cage c).requests = [] →
        t.crsSlot c = none ∧ (t.cage c).requests = []) := by
  let taken := s.updLines c (fun l => { l with link := false, linkHold := none })
  have taken_eq : s.updLines c CageLines.linkTaken = taken := updLines_congr (by rw [CageLines.linkTaken, raw])
  obtain ⟨t, answer, ends⟩ := eventNext_occurs (effect := takeLink c) free (linkDue_of hold (by simp [raw, up]))
  have line : taken.line c = { s.line c with link := false, linkHold := none } := line_updLines _ _ _
  have effect : takeLink c s = trainingRetry c false taken := by
    rw [takeLink, taken_eq]
    refine (if_neg (by rw [line]; nofun)).trans ?_
    rw [linkDeasserted, show (taken.cage c).state = .verify from verify]
  rw [effect] at ends
  have retry := trainingRetry_taken c false taken
  obtain ⟨⟨again, spent⟩, penalty⟩ := retried_of_ends (sc := (trainingRetry c false taken).scan) retry ends
  have link : (t.line c).link = false :=
    ((congrArg CageLines.link (ends.line c)).trans (congrArg (fun i => i.2.2.1) retry.inputs)).trans (congrArg CageLines.link line)
  refine ⟨t, answer, ends.onlyCage ((updLines_onlyCage c _ s).trans retry.only), penalty, link,
    ⟨again, fun three => ⟨(spent three).1, (spent three).2.of_units rfl rfl rfl⟩⟩, fun slot empty => ?_⟩
  rcases Nat.lt_or_ge (s.cage c).trainRetries 3 with few | three
  · obtain ⟨_, links, _, requests⟩ := retry.again few
    exact ((ends.requests c).empty ((crsSlot_congr links c).trans slot) (requests.trans empty)).symm
  · have spent : (trainingRetry c false taken).crsSlot c = none := by
      rw [trainingRetry_spent (s := taken) three]
      exact enterFaulted_crsSlot slot
    have requests : ((trainingRetry c false taken).cage c).requests = [] := by
      rw [(retry.spent three).1]
      rfl
    exact ((ends.requests c).empty spent requests).symm

/-- A completed scan of a powered cage (R10, R30, R138, R142). -/
theorem scan_observed {g : Seg} {k : Chunk} {r : LinkRequest} {cur : Cursor} {data : List Byte} {s : State} {bytes : List Byte}
    {o : Observation}
    (bytes_eq : bytes = (s.scanner g).sampleBytes ++ (r.bytes ++ data)) (o_eq : o = observationOf true bytes)
    (try_ : ScanTry s g k r cur cur.cage) (ended : readEnded k r data)
    (bounded : ∀ i : Fin 8, ∀ v ∈ (s.cageScan cur.cage).windows[i], v ≤ 65535) :
    let window := filledWindow (s.cageScan cur.cage) cur.lanes bytes
    let stable := ∀ i : Fin 8, i.val < cur.lanes → StableWindow s.conf (window i)
    ∃ t, exec (.chunkDone g data) s = .next t ∧ OnlyCage cur.cage s t ∧
      (t.cageScan cur.cage).sample = some (sampleOf s.startup.stationTime cur.lanes bytes
        (s.cageScan cur.cage).history.getLast?) ∧
      (s.heeds cur.cage o → Observed cur.cage o (s.cage cur.cage)
        (s.updScan cur.cage (fun k => { k with sample := (t.cageScan cur.cage).sample })) t) ∧
      (¬ s.heeds cur.cage o → ¬ (s.cage cur.cage).state.takesVerdict →
        t.recordIs cur.cage (s.cage cur.cage) ∧ t.penalty cur.cage = s.penalty cur.cage ∧ t.events = s.events) ∧
      (¬ s.lights cur.cage o → ∀ i : Fin 8, (t.cageScan cur.cage).windows[i] = window i) ∧
      (o.fault = false → (s.cage cur.cage).state = .relight →
        t.penalty cur.cage = s.penalty cur.cage ∧ t.events = s.events ∧
        (stable → t.recordIs cur.cage
          (({ s.cage cur.cage with laneStable := true } : CageRecord).inTrain s.conf (t.line cur.cage).link)) ∧
        (¬ stable → t.recordIs cur.cage { s.cage cur.cage with laneStable := false })) := by
  intro window stable
  obtain ⟨t, answer, ends⟩ := scanTry_ends try_ ended
  rw [← bytes_eq] at ends
  subst o_eq
  let w := s.chunkOver g k .idle
  change EndsAs (completeScan g cur bytes w) t at ends
  let kept := keepSample cur.cage cur.lanes bytes w
  have keptScan : kept.cageScan cur.cage = { s.cageScan cur.cage with
      sample := some (sampleOf s.startup.stationTime cur.lanes bytes (s.cageScan cur.cage).history.getLast?) } :=
    keepSample_cageScan _ _ _ _
  have sample : (t.cageScan cur.cage).sample = some (sampleOf s.startup.stationTime cur.lanes bytes
      (s.cageScan cur.cage).history.getLast?) := by
    rw [ends.cageScan]
    by_cases lights : w.lights cur.cage (observationOf true bytes)
    · rw [completeScan_lights_cageScan lights, show keepSample cur.cage cur.lanes bytes w = kept from rfl, keptScan]
      rfl
    · rw [completeScan_cageScan lights, show keepSample cur.cage cur.lanes bytes w = kept from rfl, keptScan]
      rfl
  have unheeded : ¬ s.heeds cur.cage (observationOf true bytes) →
      EndsAs (handLanes cur bytes (kept.updScanner g (Scanner.ended .idle))) t := fun not => by
    rwa [completeScan_unheeded (s := w) not] at ends
  refine ⟨t, answer, ends.onlyCage ((chunkOver_onlyCage _ g k .idle s).trans completeScan_onlyCage), sample,
    fun heeds => ?_, fun not unsettled => ?_, fun unlit i => ?_, fun fault relight => ?_⟩
  · refine (completeScan_heeded (s := w) heeds ends).like ⟨rfl, rfl, rfl, rfl, rfl, rfl, ?_⟩
    rw [show keepSample cur.cage cur.lanes bytes w = kept from rfl, keptScan, cageScan_updScan, sample]
  · have ends := unheeded not
    rw [handLanes_unsettled (s := kept.updScanner g (Scanner.ended .idle)) unsettled] at ends
    exact ⟨ends.recordIs (recordIs_self _ _), ends.penalty _, ends.same.events⟩
  · rw [ends.cageScan, completeScan_cageScan (s := w) unlit, show keepSample cur.cage cur.lanes bytes w = kept from rfl,
      keptScan, windows_of_fill]
  · have not : ¬ s.heeds cur.cage (observationOf true bytes) := by
      rintro ⟨_, bad | ⟨state, _⟩ | ⟨state, _⟩ | ⟨state, _⟩ | ⟨state, _⟩⟩
      · rw [fault] at bad; cases bad
      all_goals rw [relight] at state; cases state
    let filled := fillWindows cur.cage cur.lanes bytes (kept.updScanner g (Scanner.ended .idle))
    have verdict : filled.laneVerdict cur.cage cur.lanes = true ↔ stable := by
      refine laneVerdict_iff (x := s.cageScan cur.cage) (sample := some (sampleOf s.startup.stationTime cur.lanes bytes
        (s.cageScan cur.cage).history.getLast?)) ?_ bounded
      rw [fillWindows_cageScan, ← keptScan]
      rfl
    obtain ⟨penalty, events, yes, no⟩ := relight_ends (s := filled) relight (unheeded not)
    exact ⟨penalty, events, fun h => yes (verdict.2 h), fun h => no (Bool.eq_false_iff.2 fun v => h (verdict.1 v))⟩

/-- Settles O13: the drop in VERIFY, the status read and the completed scan, each by the effect of its observation. -/
theorem statusObserved : Obligations.StatusObserved := by
  refine ⟨fun c s free verify hold raw up => verifyDrop_retried free verify hold raw up,
    fun g k r q c data s try_ ended kind powered => statusRead_observed try_ ended kind powered,
    fun g k r cur c data s try_ ended powered => ?_⟩
  obtain rfl := try_.scanned
  intro bytes o window stable bounded
  obtain ⟨t, answer, only, sample, heeded, unheeded, windows, relight⟩ := scan_observed rfl rfl try_ ended bounded
  exact ⟨t, answer, only, sample, heeded, fun not settle relight => unheeded not (fun h => h.elim settle relight),
    windows, relight⟩

end Sys2Proof.Machine
end

section
/-! PROOF. O29: a completed scan in LIGHT-SETTLE (R22, R138, R141 to R144). -/

namespace Sys2Proof.Machine

variable {c : Cage} {s t : State}

/-- The sample record with its values written out (R132, R141). -/
theorem sampleOf_eq (time : StationTime) (lanes : Nat) (bytes : List Byte) (draw : Option Draw) :
    let word := fun (i : Nat) => (byteAt bytes i).toNat * 256 + (byteAt bytes (i + 1)).toNat
    sampleOf time lanes bytes draw = {
        time := time,
        temperature := max (-400) (min 1250
          (if word 3 < 32768 then (word 3 : Int) else (word 3 : Int) - 65536)),
        supply := word 5, lanes := lanes,
        entries := (List.range lanes).map (fun i =>
          ⟨word (7 + 6 * i), word (9 + 6 * i), word (11 + 6 * i), (byteAt bytes 1).getLsbD i,
           (byteAt bytes 2).getLsbD i⟩),
        draw := draw } := rfl

/-- What a lane verdict does to a cage in LIGHT-SETTLE (R22). -/
structure SettleVerdict (c : Cage) (verdict : Bool) (s t : State) : Prop where
  penalty : t.penalty c = s.penalty c
  events  : t.events = s.events
  copied  : (t.cage c).laneStable = verdict
  trains  : verdict = true → (s.cage c).drawSettled = true → (s.line c).link = false →
    (t.cage c).state = .train ∧ (t.cage c).trainRetries = 0 ∧
    t.claims.releasePending = s.claims.releasePending + (s.claim c).draw
  stays   : verdict = false ∨ (s.cage c).drawSettled = false →
    (t.cage c).state = .lightSettle ∧ (t.cage c).timers = (s.cage c).timers

theorem settle_ends {verdict : Bool} (settle : (s.cage c).state = .lightSettle)
    (ends : EndsAs (takeLaneVerdict c verdict s) t) : SettleVerdict c verdict s t := by
  let noted := s.updCage c (fun k => { k with laneStable := verdict })
  have cage : noted.cage c = { s.cage c with laneStable := verdict } := cage_updCage _ _ _
  rw [takeLaneVerdict_settles settle] at ends
  change EndsAs (settlePair c noted) t at ends
  by_cases pair : verdict = true ∧ (s.cage c).drawSettled = true
  · have trains : settlePair c noted = enterTrainAfresh c noted := if_pos (by rw [cage]; exact ⟨settle, pair⟩)
    rw [trains] at ends
    have goes := enterTrainAfresh_goes c noted
    have record := ends.recordIs goes.record
    rw [cage] at record
    refine ⟨(ends.penalty c).trans (penalty_congr goes.penalties c), ends.same.events.trans goes.events, by rw [record]; rfl,
      fun _ _ down => ?_, fun or => ?_⟩
    · have link : (noted.line c).link = false := down
      rw [link] at record
      exact ⟨by rw [record]; rfl, by rw [record]; rfl,
        (ends.released (enterTrainAfresh_released (s := noted) (by rw [cage]; exact settle))).1⟩
    · rw [pair.1, pair.2] at or
      exact or.elim nofun nofun
  · have stays : settlePair c noted = noted := if_neg (by rw [cage]; exact fun h => pair h.2)
    rw [stays] at ends
    have record := ends.cage c
    rw [cage] at record
    exact ⟨ends.penalty c, ends.same.events, by rw [record], fun yes drawn => absurd ⟨yes, drawn⟩ pair,
      fun _ => ⟨by rw [record]; exact settle, by rw [record]⟩⟩

/-- Settles O29: no line of R10's table holds, so the scan fills the windows and its verdict is taken. -/
theorem scanCompleted : Obligations.ScanCompleted := by
  intro g data k r cur c s free trying chunk going read fits held last origin cage segment scanning cursor scanned lanes
    whole timer settle bounded bytes word window stable fault
  obtain rfl := scanned
  obtain ⟨t, answer, ends⟩ := scanChunk_ends free trying chunk going held origin (by rw [cage]; exact segment) scanning cursor
    whole ⟨read, fits, last⟩
  let w := s.chunkOver g k .idle
  change EndsAs (completeScan g cur bytes w) t at ends
  let kept := keepSample cur.cage cur.lanes bytes w
  let filled := fillWindows cur.cage cur.lanes bytes (kept.updScanner g (Scanner.ended .idle))
  have keptScan : kept.cageScan cur.cage = { s.cageScan cur.cage with
      sample := some (sampleOf s.startup.stationTime cur.lanes bytes (s.cageScan cur.cage).history.getLast?) } :=
    keepSample_cageScan _ _ _ _
  have unheeded : ¬ w.heeds cur.cage (observationOf true bytes) := by
    rintro ⟨_, bad | ⟨state, _⟩ | ⟨state, _⟩ | ⟨state, _⟩ | ⟨state, _⟩⟩
    · rw [show (observationOf true bytes).fault = false from fault] at bad; cases bad
    all_goals rw [show (w.cage cur.cage).state = .lightSettle from settle] at state; cases state
  have only := ends.onlyCage ((chunkOver_onlyCage _ g k .idle s).trans completeScan_onlyCage)
  rw [completeScan_unheeded unheeded] at ends
  change EndsAs (takeLaneVerdict cur.cage (filled.laneVerdict cur.cage cur.lanes) filled) t at ends
  have filledScan : filled.cageScan cur.cage = CageScan.fill ((List.range cur.lanes).map (laneEntry bytes))
      (kept.cageScan cur.cage) := fillWindows_cageScan _ _ _ _
  have windows : ∀ i, filledWindow (s.cageScan cur.cage) cur.lanes bytes i = window i := fun i => by
    have next : 10 + 6 * i.val = 9 + 6 * i.val + 1 := by omega
    rw [filledWindow, next]
  have verdict : filled.laneVerdict cur.cage cur.lanes = true ↔ stable := by
    have judged : stable ↔ ∀ i : Fin 8, i.val < cur.lanes →
        StableWindow s.conf (filledWindow (s.cageScan cur.cage) cur.lanes bytes i) := by
      simp only [windows]
      rfl
    rw [judged]
    refine laneVerdict_iff (x := s.cageScan cur.cage) (sample := some (sampleOf s.startup.stationTime cur.lanes bytes
      (s.cageScan cur.cage).history.getLast?)) ?_ bounded
    rw [filledScan, keptScan]
  have scan := (takeLaneVerdict_leaves cur.cage (filled.laneVerdict cur.cage cur.lanes) filled).2
  have scanOf : t.cageScan cur.cage = filled.cageScan cur.cage :=
    (ends.cageScan _).trans (cageScan_congr (congrArg ScanUnit.cages scan) _)
  have idle : t.scanner g = (s.scanner g).ended .idle := by
    have after : (takeLaneVerdict cur.cage (filled.laneVerdict cur.cage cur.lanes) filled).scanner g =
        (s.scanner g).ended .idle := by
      rw [State.scanner, scan]
      exact scanner_updScanner kept g (Scanner.ended .idle)
    rcases (ends.segments g).scanner with same | ⟨_, stopped⟩
    · exact same.trans after
    · rw [after, show ((s.scanner g).ended .idle).slotTimer = (s.scanner g).slotTimer from rfl] at stopped
      rw [stopped] at timer
      cases timer
  obtain ⟨penalty, events, copied, trains, stays⟩ := settle_ends (s := filled) settle ends
  refine ⟨t, answer, only, events, penalty, ?_, fun i => ?_, by rw [idle]; rfl, by rw [idle]; rfl, by rw [idle]; rfl,
    by rw [copied]; exact verdict, fun yes drawn down => trains (verdict.2 yes) drawn down, fun or => stays ?_⟩
  · rw [scanOf, filledScan, keptScan]
    exact congrArg some (sampleOf_eq _ _ _ _)
  · rw [scanOf, filledScan, keptScan, windows_of_fill, windows]
  · exact or.imp_left fun no => Bool.eq_false_iff.2 fun v => no (verdict.1 v)

end Sys2Proof.Machine
end

section
/-! PROOF. The arbiter's part of a removal (R126, R127). -/

namespace Sys2Proof.Machine

variable {c : Cage} {moment : RemovalMoment} {l : Link} {k : Chunk} {s : State} {g : Seg}

/-! ### The segment of a removed cage, before its requests are answered -/

/-- What a removal makes of the segment of its cage, and the slots it answers. -/
def Link.removal (c : Cage) (moment : RemovalMoment) (l : Link) : Link × List Slot :=
  match l.state, l.chunk with
  | .chunk, some k =>
    if k.cage ≠ c then ({ l with stretch := stretchAt (decide (moment = .inStretch)) l.stretch }, l.slotsOf c)
    else if moment = .atChunkEnd ∧ l.justGranted k = true then (l.endChunk .idle true, l.slotsOf c)
    else if moment = .inStretch then (l.endChunk .recovery false, l.slotsOf c)
    else if k.ending = .restart then ({ l with stretch := none }, l.slotsOf c)
    else ({ l with stretch := none, chunk := some { k with ending := .absent } },
      (l.slotsOf c).filter (fun slot => decide (slot ≠ k.slot)))
  | .retryWait, some k => if k.cage ≠ c then (l, l.slotsOf c) else (l.endChunk .idle true, l.slotsOf c)
  | .idle, _ => (if l.selected = some c then { l with selected := none } else l, l.slotsOf c)
  | _, _ => (l, l.slotsOf c)

theorem modifyAt_id {α : Type} {n : Nat} (v : Vector α n) (i : Fin n) : modifyAt v i (fun x => x) = v := by
  refine Vector.ext fun j h => ?_
  rw [modifyAt, Vector.getElem_set]
  split
  next at_ => subst at_; rfl
  · rfl

theorem updLink_same (s : State) (g : Seg) : s.updLink g (fun l => l) = s :=
  congrArg (fun links => { s with links := links }) (modifyAt_id s.links g)

theorem linkRemoval_eq (c : Cage) (moment : RemovalMoment) (s : State) :
    linkRemoval c moment s = answerAbsent (segOf c) ((s.link (segOf c)).removal c moment).2
      (s.updLink (segOf c) (fun l => (l.removal c moment).1)) := by
  generalize own : s.link (segOf c) = l
  have takes : ∀ (f : Link → Link) (slots : List Slot), l.removal c moment = (f l, slots) →
      answerAbsent (segOf c) slots (s.updLink (segOf c) f) =
        answerAbsent (segOf c) (l.removal c moment).2 (s.updLink (segOf c) (fun l => (l.removal c moment).1)) :=
    fun f slots cut => by
      rw [cut]
      exact congrArg (answerAbsent _ _) (updLink_congr (by rw [own, cut]))
  have stays : l.removal c moment = (l, l.slotsOf c) → answerAbsent (segOf c) (l.slotsOf c) s =
      answerAbsent (segOf c) (l.removal c moment).2 (s.updLink (segOf c) (fun l => (l.removal c moment).1)) :=
    fun cut => by
      rw [← takes (fun l => l) _ cut, updLink_same]
  simp only [linkRemoval, own]
  cases state : l.state with
  | chunk =>
    cases chunk : l.chunk with
    | none => exact stays (by simp only [Link.removal, state, chunk])
    | some k =>
      dsimp only
      split
      next other => exact takes _ _ (by simp only [Link.removal, state, chunk, if_pos other])
      next own =>
        split
        next together => exact takes _ _ (by simp only [Link.removal, state, chunk, if_neg own, if_pos together])
        next not =>
          split
          next held => exact takes _ _ (by
            simp only [Link.removal, state, chunk, if_neg own, if_neg not, if_pos (of_decide_eq_true held)])
          next calm =>
            have calm : ¬ moment = .inStretch := fun h => calm (decide_eq_true h)
            split
            next restart => exact takes _ _ (by
              simp only [Link.removal, state, chunk, if_neg own, if_neg not, if_neg calm, if_pos restart])
            next going => exact takes (fun l => { l with stretch := none, chunk := some { k with ending := .absent } }) _ (by
              simp only [Link.removal, state, chunk, if_neg own, if_neg not, if_neg calm, if_neg going])
  | retryWait =>
    cases chunk : l.chunk with
    | none => exact stays (by simp only [Link.removal, state, chunk])
    | some k =>
      dsimp only
      split
      next other => exact stays (by simp only [Link.removal, state, chunk, if_pos other])
      next own => exact takes _ _ (by simp only [Link.removal, state, chunk, if_neg own])
  | idle =>
    have idle := takes (fun l => if l.selected = some c then { l with selected := none } else l) (l.slotsOf c)
      (by simp only [Link.removal, state])
    cases l.chunk <;> exact idle
  | recovery =>
    have still := stays (by simp only [Link.removal, state])
    cases l.chunk <;> exact still

/-! #### Its branches -/

theorem takesBack_iff : takesBack moment l k ↔ moment = .atChunkEnd ∧ l.justGranted k = true := by
  rw [takesBack, justGranted_iff]

theorem removal_together (chunk : l.chunk = some k) (state : l.state = .chunk) (own : k.cage = c)
    (together : takesBack moment l k) : l.removal c moment = (l.endChunk .idle true, l.slotsOf c) := by
  rw [takesBack_iff] at together
  simp only [Link.removal, state, chunk, if_neg (not_not.2 own), if_pos together]

theorem removal_stretched (chunk : l.chunk = some k) (state : l.state = .chunk) (own : k.cage = c)
    (held : moment = .inStretch) : l.removal c moment = (l.endChunk .recovery false, l.slotsOf c) := by
  subst held
  simp only [Link.removal, state, chunk, if_neg (not_not.2 own)]
  rfl

theorem removal_boundary (chunk : l.chunk = some k) (state : l.state = .chunk) (own : k.cage = c)
    (going : k.ending ≠ .restart) (calm : moment ≠ .inStretch) (not : ¬ takesBack moment l k) : l.removal c moment =
    ({ l with stretch := none, chunk := some { k with ending := .absent } },
      (l.slotsOf c).filter (fun slot => decide (slot ≠ k.slot))) := by
  rw [takesBack_iff] at not
  simp only [Link.removal, state, chunk, if_neg (not_not.2 own), if_neg not, if_neg calm, if_neg going]

theorem removal_restarted (chunk : l.chunk = some k) (state : l.state = .chunk) (own : k.cage = c)
    (ended : k.ending = .restart) (calm : moment ≠ .inStretch) : l.removal c moment =
    ({ l with stretch := none }, l.slotsOf c) := by
  have not : ¬ (moment = .atChunkEnd ∧ l.justGranted k = true) := fun h => by
    have := ((justGranted_iff k l).1 h.2).2.1
    rw [ended] at this
    cases this
  simp only [Link.removal, state, chunk, if_neg (not_not.2 own), if_neg not, if_neg calm, if_pos ended]

theorem removal_waiting (chunk : l.chunk = some k) (state : l.state = .retryWait) (own : k.cage = c) :
    l.removal c moment = (l.endChunk .idle true, l.slotsOf c) := by
  simp only [Link.removal, state, chunk, if_neg (not_not.2 own)]

theorem removal_idle (state : l.state = .idle) : l.removal c moment =
    (if l.selected = some c then { l with selected := none } else l, l.slotsOf c) := by
  simp only [Link.removal, state]

theorem removal_elsewhere (chunk : l.chunk = some k) (other : k.cage ≠ c) :
    (l.removal c moment).1.chunk = some k ∧ (l.removal c moment).1.state = l.state := by
  have selects : (if l.selected = some c then { l with selected := none } else l : Link).chunk = l.chunk ∧
      (if l.selected = some c then { l with selected := none } else l : Link).state = l.state := by
    split <;> exact ⟨rfl, rfl⟩
  cases state : l.state with
  | chunk => simp only [Link.removal, state, chunk, if_pos other, and_self]
  | retryWait => simp only [Link.removal, state, chunk, if_pos other, and_self]
  | idle => rw [removal_idle state]; exact ⟨selects.1.trans chunk, selects.2.trans state⟩
  | recovery => simp only [Link.removal, state, chunk, and_self]

/-- A removal changes no slot before the requests are answered. -/
theorem removal_inSlot (c : Cage) (moment : RemovalMoment) (l : Link) (slot : Slot) :
    (l.removal c moment).1.inSlot slot = l.inSlot slot := by
  unfold Link.removal
  repeat' split
  all_goals cases slot <;> rfl

/-- Every request of the cage is answered but the one whose chunk goes on to its byte boundary (R126, R127). -/
theorem removal_slots (c : Cage) (moment : RemovalMoment) (l : Link) :
    (l.removal c moment).2 = l.slotsOf c ∨
    ∃ k, l.chunk = some k ∧ k.cage = c ∧ moment ≠ .inStretch ∧ ¬ takesBack moment l k ∧
      (l.removal c moment).1.chunk = some { k with ending := .absent } ∧
      (l.removal c moment).2 = (l.slotsOf c).filter (fun slot => decide (slot ≠ k.slot)) := by
  cases state : l.state with
  | idle => exact .inl (by rw [removal_idle state])
  | recovery => exact .inl (by simp only [Link.removal, state])
  | retryWait =>
    cases chunk : l.chunk with
    | none => exact .inl (by simp only [Link.removal, state, chunk])
    | some k =>
      refine .inl ?_
      simp only [Link.removal, state, chunk]
      split <;> rfl
  | chunk =>
    cases chunk : l.chunk with
    | none => exact .inl (by simp only [Link.removal, state, chunk])
    | some k =>
      by_cases own : k.cage = c
      case neg => exact .inl (by simp only [Link.removal, state, chunk, if_pos own])
      by_cases held : moment = .inStretch
      · exact .inl (by rw [removal_stretched chunk state own held])
      by_cases together : takesBack moment l k
      · exact .inl (by rw [removal_together chunk state own together])
      by_cases ended : k.ending = .restart
      · exact .inl (by rw [removal_restarted chunk state own ended held])
      · have cut := removal_boundary chunk state own ended held together
        exact .inr ⟨k, rfl, own, held, together, by rw [cut], by rw [cut]⟩

/-- Where nothing of the segment is the cage's, only the stretch timer moves (log entry 21). -/
theorem removal_calm (chunks : ∀ k, l.chunk = some k → k.cage ≠ c) (unselected : l.selected ≠ some c) :
    (l.removal c moment).1 = { l with stretch := (l.removal c moment).1.stretch } := by
  obtain ⟨m, stretched⟩ : ∃ m, m = { l with stretch := stretchAt (decide (moment = RemovalMoment.inStretch)) l.stretch } := ⟨_, rfl⟩
  suffices either : (l.removal c moment).1 = l ∨ (l.removal c moment).1 = m by
    rcases either with same | moves
    · rw [same]
    · rw [moves, stretched]
  cases state : l.state with
  | idle => exact .inl (by rw [removal_idle state, if_neg unselected])
  | recovery => exact .inl (by simp only [Link.removal, state])
  | retryWait =>
    cases chunk : l.chunk with
    | none => exact .inl (by simp only [Link.removal, state, chunk])
    | some k => exact .inl (by simp only [Link.removal, state, chunk, if_pos (chunks k chunk)])
  | chunk =>
    cases chunk : l.chunk with
    | none => exact .inl (by simp only [Link.removal, state, chunk])
    | some k =>
      refine .inr ?_
      rw [stretched]
      simp only [Link.removal, state, chunk, if_pos (chunks k chunk)]

end Sys2Proof.Machine
end

section
/-! PROOF. The requests of a removed cage answered ABSENT, and the answers handed on (R118, R126, R127). -/

namespace Sys2Proof.Machine

variable {c d : Cage} {moment : RemovalMoment} {g : Seg} {s v : State}

/-! ### The slots of a cage -/

theorem mem_slotsOf {l : Link} {slot : Slot} : slot ∈ l.slotsOf c ↔
    slot ∈ [Slot.crs c, .passThrough, .scanner] ∧ ∃ r, l.inSlot slot = some r ∧ r.cage = c := by
  rw [Link.slotsOf, List.mem_filter]
  refine and_congr_right fun _ => ?_
  cases l.inSlot slot <;> simp

theorem slotsOf_nodup (c : Cage) (l : Link) : (l.slotsOf c).Nodup :=
  List.Nodup.filter _ (by simp)

/-- Of the slots of a cage, one set leaves the others. -/
theorem inSlot_setSlot_other {a b : Slot} (of_a : a ∈ [Slot.crs c, .passThrough, .scanner])
    (of_b : b ∈ [Slot.crs c, .passThrough, .scanner]) (other : b ≠ a) (r : Option LinkRequest) (l : Link) :
    (l.setSlot a r).inSlot b = l.inSlot b := by
  simp only [List.mem_cons, List.not_mem_nil, or_false] at of_a of_b
  rcases of_a with rfl | rfl | rfl <;> rcases of_b with rfl | rfl | rfl
  all_goals solve | rfl | exact absurd rfl other

/-! ### Slots answered ABSENT (R127) -/

/-- The slots of a list emptied. -/
def Link.cleared (l : Link) (slots : List Slot) : Link := slots.foldl (fun l slot => l.setSlot slot none) l

theorem cleared_inSlot {slots : List Slot} {slot : Slot} (l : Link)
    (of_c : ∀ a ∈ slots, a ∈ [Slot.crs c, .passThrough, .scanner]) (own : slot ∈ [Slot.crs c, .passThrough, .scanner]) :
    (l.cleared slots).inSlot slot = if slot ∈ slots then none else l.inSlot slot := by
  induction slots generalizing l with
  | nil => rfl
  | cons a rest ih =>
    have of_a := of_c a List.mem_cons_self
    have step := ih (l.setSlot a none) fun b mem => of_c b (List.mem_cons_of_mem _ mem)
    rw [Link.cleared, List.foldl_cons]
    refine step.trans ?_
    by_cases later : slot ∈ rest
    · rw [if_pos later, if_pos (List.mem_cons_of_mem _ later)]
    · by_cases same : slot = a
      · subst same
        rw [if_neg later, if_pos List.mem_cons_self, inSlot_setSlot_same]
      · rw [if_neg later, if_neg (fun h => (List.mem_cons.1 h).elim same later), inSlot_setSlot_other of_a own same]

/-- Slots emptied change nothing else of a segment. -/
theorem cleared_course (slots : List Slot) (l : Link) : l.cleared slots = { l with
    crsSlots := (l.cleared slots).crsSlots, passThrough := (l.cleared slots).passThrough,
    scanner := (l.cleared slots).scanner } := by
  induction slots generalizing l with
  | nil => rfl
  | cons a rest ih =>
    rw [Link.cleared, List.foldl_cons]
    refine (ih (l.setSlot a none)).trans ?_
    cases a <;> rfl

/-- The slots of one cage emptied leave the slots of the others. -/
theorem cleared_crsSlot {slots : List Slot} (of_c : ∀ a ∈ slots, a ∈ [Slot.crs c, .passThrough, .scanner])
    (same : segOf d = segOf c) (other : d ≠ c) (l : Link) : (l.cleared slots).inSlot (.crs d) = l.inSlot (.crs d) := by
  induction slots generalizing l with
  | nil => rfl
  | cons a rest ih =>
    rw [Link.cleared, List.foldl_cons]
    refine (ih (fun b mem => of_c b (List.mem_cons_of_mem _ mem)) (l.setSlot a none)).trans ?_
    have of_a := of_c a List.mem_cons_self
    simp only [List.mem_cons, List.not_mem_nil, or_false] at of_a
    rcases of_a with rfl | rfl | rfl
    · exact Vector.getElem_set_ne (slotIx c).isLt (slotIx d).isLt fun h => other (slotIx_inj same (Fin.ext h.symm))
    · rfl
    · rfl

theorem answerAbsent_state (g : Seg) (slots : List Slot) (s : State) :
    (answerAbsent g slots s).1 = slots.foldl (fun s slot => clearSlot g slot s) s := by
  induction slots generalizing s with
  | nil => rfl
  | cons a rest ih =>
    rw [List.foldl_cons, ← ih]
    simp only [answerAbsent]
    cases (s.link g).inSlot a <;> rfl

theorem answerAbsent_links (g : Seg) (slots : List Slot) (s : State) :
    (answerAbsent g slots s).1 = { s with links := (answerAbsent g slots s).1.links } ∧
    (answerAbsent g slots s).1.link g = (s.link g).cleared slots ∧
    ∀ h : Seg, h ≠ g → (answerAbsent g slots s).1.link h = s.link h := by
  rw [answerAbsent_state]
  induction slots generalizing s with
  | nil => exact ⟨rfl, rfl, fun _ _ => rfl⟩
  | cons a rest ih =>
    obtain ⟨rest_, own, others⟩ := ih (clearSlot g a s)
    rw [List.foldl_cons]
    have link : (clearSlot g a s).link g = (s.link g).setSlot a none := link_updLink _ _ _
    refine ⟨?_, ?_, fun h other => (others h other).trans (link_updLink_other _ _ _ _ other)⟩
    · rw [rest_]
      rfl
    · rw [own, link]
      rfl

/-- The answers of a removal are the requests that its slots held, each ABSENT (R127). -/
theorem answerAbsent_ended {slots : List Slot} (g : Seg) (s : State)
    (of_c : ∀ a ∈ slots, a ∈ [Slot.crs c, .passThrough, .scanner]) (nodup : slots.Nodup) :
    (answerAbsent g slots s).2 = slots.filterMap (fun slot => ((s.link g).inSlot slot).map (fun r => ⟨r, .absent⟩)) := by
  induction slots generalizing s with
  | nil => rfl
  | cons a rest ih =>
    obtain ⟨fresh, nodup⟩ := List.nodup_cons.1 nodup
    have of_a := of_c a List.mem_cons_self
    have link : (clearSlot g a s).link g = (s.link g).setSlot a none := link_updLink _ _ _
    have tail : (answerAbsent g rest (clearSlot g a s)).2 =
        rest.filterMap (fun slot => ((s.link g).inSlot slot).map (fun r => ⟨r, .absent⟩)) := by
      rw [ih (clearSlot g a s) (fun b mem => of_c b (List.mem_cons_of_mem _ mem)) nodup, link]
      refine List.filterMap_congr fun slot mem => ?_
      have own := of_c slot (List.mem_cons_of_mem _ mem)
      rw [inSlot_setSlot_other of_a own (fun same => fresh (same ▸ mem))]
    rw [List.filterMap_cons]
    simp only [answerAbsent]
    cases (s.link g).inSlot a with
    | none => exact tail
    | some r => exact congrArg (List.cons _) tail

end Sys2Proof.Machine
end

section
/-! PROOF. A removal's answers at their requesters, and what the arbiter's part of a removal leaves (R126, R127). -/

namespace Sys2Proof.Machine

variable {c d : Cage} {moment : RemovalMoment} {g : Seg} {s t u v : State} {q : Request}

/-! ### The answers handed on -/

/-- The answers of a removal move the scanner of the cage's segment, the service unit and the transmit queue alone. -/
structure HandedAbsent (c : Cage) (s v : State) : Prop where
  rest   : v = { s with service := v.service, bus := v.bus, scan := { s.scan with scanners := v.scan.scanners } }
  others : ∀ g : Seg, g ≠ segOf c → v.scanner g = s.scanner g

theorem HandedAbsent.refl (c : Cage) (s : State) : HandedAbsent c s s := ⟨rfl, fun _ _ => rfl⟩

theorem HandedAbsent.trans (h : HandedAbsent c s u) (k : HandedAbsent c u v) : HandedAbsent c s v where
  rest := by
    have first := h.rest
    rw [k.rest, first]
  others g other := (k.others g other).trans (h.others g other)

/-- The service unit carries a request. -/
def State.carriesRequest (s : State) : Prop := s.service.phase = .carrying ∧ ∃ q, s.service.request = some q

theorem passOutcome_carried {outcome : LinkOutcome} (phase : s.service.phase = .carrying)
    (request : s.service.request = some q) : passOutcome outcome s = answer q outcome.result outcome.bytes s := by
  simp only [passOutcome, phase, request]

theorem passOutcome_uncarried {outcome : LinkOutcome} (not : ¬ s.carriesRequest) : passOutcome outcome s = s := by
  unfold passOutcome
  split
  next r phase request => exact absurd ⟨phase, r, request⟩ not
  · rfl

theorem deliver_pass {e : Ended} (pass : e.request.origin = .passThrough) : deliver s e = passOutcome e.outcome s := by
  rw [deliver, pass]

theorem scanOutcome_absent (g : Seg) (s : State) :
    scanOutcome g .absent s = s ∨ scanOutcome g .absent s = s.updScanner g (Scanner.ended .idle) := by
  unfold scanOutcome
  split
  next h => cases h
  · exact .inl rfl
  · exact .inr rfl

/-- An ABSENT answer to a request that is no pass-through ends a scan at most. -/
theorem deliver_absent {e : Ended} (absent : e.outcome = .absent) (cage : e.request.cage = c)
    (plain : e.request.origin ≠ .passThrough) : HandedAbsent c s (deliver s e) ∧
    (deliver s e).service = s.service ∧ (deliver s e).bus = s.bus := by
  unfold deliver
  cases origin : e.request.origin with
  | crs q discard =>
    simp only [absent, crsOutcome, if_true, and_true]
    exact .refl c s
  | passThrough => exact absurd origin plain
  | scanner =>
    simp only [absent, cage]
    rcases scanOutcome_absent (segOf c) s with same | ended
    · rw [same]
      exact ⟨.refl c s, rfl, rfl⟩
    · rw [ended]
      exact ⟨⟨rfl, fun g other => scanner_updScanner_other _ _ _ _ other⟩, rfl, rfl⟩

theorem answer_handed (c : Cage) (q : Request) (result : Result) (data : List Byte) (s : State) :
    HandedAbsent c s (answer q result data s) := ⟨rfl, fun _ _ => rfl⟩

/-- The answers of a removal, where no pass-through that is carried is among them. -/
theorem deliverAll_plain {l : List Ended} (absent : ∀ e ∈ l, e.outcome = .absent ∧ e.request.cage = c)
    (plain : ¬ s.carriesRequest ∨ ∀ e ∈ l, e.request.origin ≠ .passThrough) :
    HandedAbsent c s (deliverAll (s, l)) ∧ (deliverAll (s, l)).service = s.service ∧ (deliverAll (s, l)).bus = s.bus := by
  induction l generalizing s with
  | nil => exact ⟨.refl c s, rfl, rfl⟩
  | cons e rest ih =>
    obtain ⟨outcome, cage⟩ := absent e List.mem_cons_self
    have first : HandedAbsent c s (deliver s e) ∧ (deliver s e).service = s.service ∧ (deliver s e).bus = s.bus := by
      by_cases pass : e.request.origin = .passThrough
      · have not := plain.resolve_right fun all => all e List.mem_cons_self pass
        rw [deliver_pass pass, passOutcome_uncarried not]
        exact ⟨.refl c s, rfl, rfl⟩
      · exact deliver_absent outcome cage pass
    obtain ⟨handed, service, bus⟩ := first
    obtain ⟨handed', service', bus'⟩ := ih (s := deliver s e) (fun e mem => absent e (List.mem_cons_of_mem _ mem))
      (plain.imp (fun not => by rwa [State.carriesRequest, service]) (fun all e mem => all e (List.mem_cons_of_mem _ mem)))
    exact ⟨handed.trans handed', service'.trans service, bus'.trans bus⟩

/-- The answers of a removal, where the pass-through that is carried is among them (R170). -/
theorem deliverAll_carried {l : List Ended} (absent : ∀ e ∈ l, e.outcome = .absent ∧ e.request.cage = c)
    (pass : ∃ e ∈ l, e.request.origin = .passThrough) (phase : s.service.phase = .carrying)
    (request : s.service.request = some q) : HandedAbsent c s (deliverAll (s, l)) ∧
    (deliverAll (s, l)).service = { s.service with phase := .replying } ∧
    (deliverAll (s, l)).bus = s.bus.place (newFrame 16 (.reply q.code (byteOf Result.absent.code) [])) := by
  induction l generalizing s with
  | nil => exact absurd pass (by simp)
  | cons e rest ih =>
    obtain ⟨outcome, cage⟩ := absent e List.mem_cons_self
    have later : ∀ e ∈ rest, e.outcome = .absent ∧ e.request.cage = c := fun e mem => absent e (List.mem_cons_of_mem _ mem)
    by_cases own : e.request.origin = .passThrough
    · have answered : deliver s e = answer q .absent [] s := by
        rw [deliver_pass own, outcome]
        exact passOutcome_carried phase request
      have over_ : ¬ (answer q .absent [] s).carriesRequest := fun h => by cases h.1
      obtain ⟨handed, service, bus⟩ := deliverAll_plain (s := answer q .absent [] s) later (.inl over_)
      have fold : deliverAll (s, e :: rest) = deliverAll (answer q .absent [] s, rest) := by
        rw [← answered]
        rfl
      rw [fold]
      refine ⟨(answer_handed c q .absent [] s).trans handed, service.trans ?_, bus⟩
      show ({ s.service with phase := .replying, request := some q } : ServiceUnit) = _
      rw [← request]
    · obtain ⟨handed, service, bus⟩ := deliver_absent (s := s) outcome cage own
      have among : ∃ e ∈ rest, e.request.origin = .passThrough := by
        obtain ⟨x, mem, origin⟩ := pass
        rcases List.mem_cons.1 mem with rfl | mem
        · exact absurd origin own
        · exact ⟨x, mem, origin⟩
      obtain ⟨handed', service', bus'⟩ := ih (s := deliver s e) later among (by rw [service]; exact phase)
        (by rw [service]; exact request)
      exact ⟨handed.trans handed', service'.trans (by rw [service]), bus'.trans (by rw [bus])⟩

end Sys2Proof.Machine
end

section
/-! PROOF. What the arbiter's part of a removal leaves (R126, R127). -/

namespace Sys2Proof.Machine

variable {c d : Cage} {moment : RemovalMoment} {s : State} {q : Request}

/-! ### The segment of the removed cage -/

/-- The segment of a removed cage once its requests are answered. -/
def Link.removed (c : Cage) (moment : RemovalMoment) (l : Link) : Link :=
  (l.removal c moment).1.cleared (l.removal c moment).2

theorem removal_slots_subset {l : Link} {slot : Slot} (mem : slot ∈ (l.removal c moment).2) : slot ∈ l.slotsOf c := by
  rcases removal_slots c moment l with same | ⟨k, _, _, _, _, _, cut⟩
  · exact same ▸ mem
  · rw [cut] at mem
    exact List.mem_of_mem_filter mem

theorem removal_of_c {l : Link} {slot : Slot} (mem : slot ∈ (l.removal c moment).2) :
    slot ∈ [Slot.crs c, .passThrough, .scanner] := (mem_slotsOf.1 (removal_slots_subset mem)).1

theorem removal_nodup (c : Cage) (moment : RemovalMoment) (l : Link) : (l.removal c moment).2.Nodup := by
  rcases removal_slots c moment l with same | ⟨k, _, _, _, _, _, cut⟩
  · rw [same]; exact slotsOf_nodup c l
  · rw [cut]; exact (slotsOf_nodup c l).filter _

theorem removed_inSlot (l : Link) {slot : Slot} (own : slot ∈ [Slot.crs c, .passThrough, .scanner]) :
    (l.removed c moment).inSlot slot = if slot ∈ (l.removal c moment).2 then none else l.inSlot slot := by
  rw [Link.removed, cleared_inSlot _ (fun _ mem => removal_of_c mem) own, removal_inSlot]

/-- Emptied slots leave the course of a segment. -/
theorem removed_course (c : Cage) (moment : RemovalMoment) (l : Link) :
    (l.removed c moment).state = (l.removal c moment).1.state ∧
    (l.removed c moment).chunk = (l.removal c moment).1.chunk ∧
    (l.removed c moment).selected = (l.removal c moment).1.selected ∧
    (l.removed c moment).stretch = (l.removal c moment).1.stretch ∧
    (l.removed c moment).retryTimer = (l.removal c moment).1.retryTimer := by
  rw [Link.removed, cleared_course]
  exact ⟨rfl, rfl, rfl, rfl, rfl⟩

/-! ### The state in which the sequencer takes the removal -/

/-- The answers of the removal of a cage. -/
def Link.answersOf (c : Cage) (moment : RemovalMoment) (l : Link) : List Ended :=
  (l.removal c moment).2.filterMap (fun slot => (l.inSlot slot).map (fun r => ⟨r, .absent⟩))

/-- The state with the segment of a removed cage as the removal leaves it. -/
def State.cutOff (s : State) (c : Cage) (moment : RemovalMoment) : State :=
  (answerAbsent (segOf c) ((s.link (segOf c)).removal c moment).2
    (s.updLink (segOf c) (fun l => (l.removal c moment).1))).1

theorem linkRemoval_answers (c : Cage) (moment : RemovalMoment) (s : State) :
    linkRemoval c moment s = (s.cutOff c moment, (s.link (segOf c)).answersOf c moment) := by
  have link : (s.updLink (segOf c) (fun l => (l.removal c moment).1)).link (segOf c) =
      ((s.link (segOf c)).removal c moment).1 := link_updLink _ _ _
  rw [linkRemoval_eq]
  refine Prod.ext rfl ?_
  rw [answerAbsent_ended (segOf c) _ (fun _ mem => removal_of_c mem) (removal_nodup c moment _), link]
  simp only [removal_inSlot]
  rfl

theorem cutOff_links (c : Cage) (moment : RemovalMoment) (s : State) :
    s.cutOff c moment = { s with links := (s.cutOff c moment).links } ∧
    (s.cutOff c moment).link (segOf c) = (s.link (segOf c)).removed c moment ∧
    ∀ g : Seg, g ≠ segOf c → (s.cutOff c moment).link g = s.link g := by
  have link : (s.updLink (segOf c) (fun l => (l.removal c moment).1)).link (segOf c) =
      ((s.link (segOf c)).removal c moment).1 := link_updLink _ _ _
  obtain ⟨rest, own, others⟩ := answerAbsent_links (segOf c) ((s.link (segOf c)).removal c moment).2
    (s.updLink (segOf c) (fun l => (l.removal c moment).1))
  refine ⟨rest, ?_, fun g other => (others g other).trans (link_updLink_other _ _ _ _ other)⟩
  rw [link] at own
  exact own

theorem mem_answersOf {l : Link} {e : Ended} : e ∈ l.answersOf c moment ↔
    ∃ slot ∈ (l.removal c moment).2, ∃ r, l.inSlot slot = some r ∧ e = ⟨r, .absent⟩ := by
  rw [Link.answersOf, List.mem_filterMap]
  refine exists_congr fun slot => and_congr_right fun _ => ?_
  cases l.inSlot slot with
  | none => simp
  | some r => simp [eq_comm]

theorem answersOf_absent {l : Link} {e : Ended} (mem : e ∈ l.answersOf c moment) :
    e.outcome = .absent ∧ e.request.cage = c := by
  obtain ⟨slot, answers, r, held, rfl⟩ := mem_answersOf.1 mem
  obtain ⟨_, x, same, cage⟩ := mem_slotsOf.1 (removal_slots_subset answers)
  cases held.symm.trans same
  exact ⟨rfl, cage⟩

/-- The state in which the sequencer takes a removal: the arbiter's part is done (log entry 41). -/
def State.atRemoval (s : State) (c : Cage) (moment : RemovalMoment) : State := deliverAll (linkRemoval c moment s)

theorem atRemoval_links (handed : HandedAbsent c (s.cutOff c moment) (s.atRemoval c moment)) :
    (s.atRemoval c moment).link (segOf c) = (s.link (segOf c)).removed c moment ∧
    ∀ g : Seg, g ≠ segOf c → (s.atRemoval c moment).link g = s.link g := by
  obtain ⟨_, own, others⟩ := cutOff_links c moment s
  have links : (s.atRemoval c moment).links = (s.cutOff c moment).links := by rw [handed.rest]
  have link : ∀ g, (s.atRemoval c moment).link g = (s.cutOff c moment).link g := fun g => by
    rw [State.link, State.link, links]
  exact ⟨(link _).trans own, fun g other => (link g).trans (others g other)⟩

theorem atRemoval_plain (none : s.carriesNone c) :
    HandedAbsent c (s.cutOff c moment) (s.atRemoval c moment) ∧
    (s.atRemoval c moment).service = s.service ∧ (s.atRemoval c moment).bus = s.bus := by
  have rest := (cutOff_links c moment s).1
  have service : (s.cutOff c moment).service = s.service := by rw [rest]
  have bus : (s.cutOff c moment).bus = s.bus := by rw [rest]
  rw [← service, ← bus, State.atRemoval, linkRemoval_answers]
  refine deliverAll_plain (fun e mem => answersOf_absent mem) ?_
  rcases none with idle | plain
  · exact .inl fun carries => idle (service ▸ carries.1)
  · refine .inr fun e mem => ?_
    obtain ⟨slot, answers, r, held, rfl⟩ := mem_answersOf.1 mem
    obtain ⟨own, x, same, cage⟩ := mem_slotsOf.1 (removal_slots_subset answers)
    cases held.symm.trans same
    exact plain slot own r held cage

theorem removed_crsSlot (same : segOf d = segOf c) (other : d ≠ c) (l : Link) :
    (l.removed c moment).inSlot (.crs d) = l.inSlot (.crs d) := by
  rw [Link.removed, cleared_crsSlot (fun _ mem => removal_of_c mem) same other, removal_inSlot]

/-- A request of the cage leaves its slot, unless its chunk goes on to its byte boundary (R126, R127). -/
theorem removed_gone {l : Link} {slot : Slot} {r : LinkRequest} (own : slot ∈ [Slot.crs c, .passThrough, .scanner])
    (held : l.inSlot slot = some r) (cage : r.cage = c) : (l.removed c moment).inSlot slot = none ∨
    ∃ k, (l.removed c moment).chunk = some k ∧ k.slot = slot ∧ k.cage = c ∧ k.ending = .absent := by
  have mem : slot ∈ l.slotsOf c := mem_slotsOf.2 ⟨own, r, held, cage⟩
  rw [removed_inSlot l own, (removed_course c moment l).2.1]
  rcases removal_slots c moment l with same | ⟨k, _, cage, _, _, chunk, cut⟩
  · exact .inl (if_pos (same ▸ mem))
  · by_cases going : slot = k.slot
    · exact .inr ⟨_, chunk, going.symm, cage, rfl⟩
    · exact .inl (if_pos (by rw [cut]; exact List.mem_filter.2 ⟨mem, decide_eq_true going⟩))

/-- Where every request of the cage is answered, none is left. -/
theorem removed_all {l : Link} (all : (l.removal c moment).2 = l.slotsOf c) {slot : Slot} {r : LinkRequest}
    (own : slot ∈ [Slot.crs c, .passThrough, .scanner]) (held : (l.removed c moment).inSlot slot = some r) : r.cage ≠ c := by
  intro cage
  rw [removed_inSlot l own, all] at held
  split at held
  · cases held
  next not => exact not (mem_slotsOf.2 ⟨own, r, held, cage⟩)

/-- A segment with nothing of the cage's keeps everything but its stretch timer (log entry 21). -/
theorem removed_calm {l : Link} (slots : ∀ slot ∈ [Slot.crs c, .passThrough, .scanner], ∀ r,
      l.inSlot slot = some r → r.cage ≠ c) (chunks : ∀ k, l.chunk = some k → k.cage ≠ c) (unselected : l.selected ≠ some c) :
    (l.removal c moment).2 = [] ∧ l.removed c moment = { l with stretch := (l.removed c moment).stretch } := by
  have empty : (l.removal c moment).2 = [] := List.eq_nil_iff_forall_not_mem.2 fun slot mem => by
    obtain ⟨own, r, held, cage⟩ := mem_slotsOf.1 (removal_slots_subset mem)
    exact slots slot own r held cage
  have same : l.removed c moment = (l.removal c moment).1 := by rw [Link.removed, empty]; rfl
  rw [same]
  exact ⟨empty, removal_calm chunks unselected⟩

/-- What a removal leaves at the arbiter, where no pass-through of the cage is carried. -/
theorem removedAtArbiter (none : s.carriesNone c) : RemovedAtArbiter c moment s (s.atRemoval c moment) := by
  obtain ⟨handed, service, bus⟩ := atRemoval_plain (moment := moment) none
  obtain ⟨own, others⟩ := atRemoval_links handed
  have rest := (cutOff_links c moment s).1
  have scanners : ∀ g, (s.cutOff c moment).scanner g = s.scanner g := fun g => by rw [rest]; rfl
  obtain ⟨state, chunk, selected, stretch, retry⟩ := removed_course c moment (s.link (segOf c))
  exact {
    rest := by rw [handed.rest, service, bus, rest]
    segments := fun g other => ⟨others g other, (handed.others g other).trans (scanners g)⟩
    others := fun d other => by
      rw [State.crsSlot, State.crsSlot]
      by_cases same : segOf d = segOf c
      · rw [same, own, removed_crsSlot same other]
      · rw [others _ same]
    kept := fun slot mem r held cage => by
      rw [own, removed_inSlot _ mem, if_neg, held]
      intro answers
      obtain ⟨_, x, same, cage'⟩ := mem_slotsOf.1 (removal_slots_subset answers)
      cases held.symm.trans same
      exact cage cage'
    gone := fun slot mem r held cage => by
      rw [own]
      exact removed_gone mem held cage
    boundary := fun k held trying cage going calm not => by
      rw [own, state, chunk, selected, stretch, removal_boundary held trying cage going calm not]
      exact ⟨trying, rfl, rfl, rfl⟩
    stretched := fun k held trying cage in_ => by
      rw [own, state, chunk, selected, stretch, removal_stretched held trying cage in_]
      exact ⟨rfl, rfl, rfl, rfl⟩
    together := fun k held trying cage back => by
      have cut := removal_together held trying cage back
      rw [own]
      refine ⟨by rw [state, cut]; rfl, by rw [chunk, cut]; rfl, by rw [selected, cut]; rfl, fun slot mem r => ?_⟩
      exact removed_all (by rw [cut]) mem
    waiting := fun k held waits cage => by
      rw [own, state, chunk, selected, retry, removal_waiting held waits cage]
      exact ⟨rfl, rfl, rfl, rfl⟩
    idle := fun idle => by
      rw [own, state, selected, removal_idle idle]
      dsimp only
      split
      · exact ⟨idle, nofun⟩
      next not => exact ⟨idle, not⟩
    going := fun k held cage => by
      rw [own, state, chunk]
      exact removal_elsewhere held cage
    calm := fun slots chunks unselected => by
      obtain ⟨empty, same⟩ := removed_calm (moment := moment) slots chunks unselected
      have answers : (s.link (segOf c)).answersOf c moment = [] := by rw [Link.answersOf, empty]; rfl
      have whole : s.atRemoval c moment = s.cutOff c moment := by
        rw [State.atRemoval, linkRemoval_answers, answers]
        rfl
      exact ⟨by rw [whole]; exact scanners _, by rw [own]; exact same⟩ }

end Sys2Proof.Machine
end

section
/-! PROOF. O10: the removals in MANUAL-HOLD, VACANT, DISABLED and DEBOUNCE (R13, R24, R32, R141). -/

namespace Sys2Proof.Machine

variable {c d : Cage} {moment : RemovalMoment} {s t u v w : State}

/-! ### A removal at its event -/

theorem RemovedAtArbiter.onlyCage (h : RemovedAtArbiter c moment s v) : OnlyCage c s v := by
  rw [h.rest]
  exact ⟨rfl, rfl, fun _ _ => rfl, fun _ _ => rfl, fun _ _ => rfl, ⟨rfl, rfl, rfl⟩, rfl, rfl, fun _ _ => rfl, rfl,
    fun _ _ => rfl, ⟨rfl, rfl⟩, rfl, fun _ _ => rfl⟩

/-- A removal at its event: the arbiter's part, and then the sequencer's (R152, log entry 41). -/
theorem removal_ends (free : s.startup.resetHeld = false) (hold : (s.line c).presentHold.isSome)
    (raw : (s.line c).presentRaw = false) (there : (s.line c).present = true) :
    ∃ t, exec (.presentHoldExpiry c moment) s = .next t ∧ EndsAs (presentDeasserted c
      ((s.updLines c (fun l => { l with present := false, presentHold := none })).atRemoval c moment)) t := by
  let taken := s.updLines c (fun l => { l with present := false, presentHold := none })
  have taken_eq : s.updLines c CageLines.presentTaken = taken := updLines_congr (by rw [CageLines.presentTaken, raw])
  obtain ⟨t, answer, ends⟩ := eventNext_occurs (effect := takePresent c moment) free
    (presentDue_of hold (by simp [raw, there]))
  have line : taken.line c = { s.line c with present := false, presentHold := none } := line_updLines _ _ _
  have effect : takePresent c moment s = presentDeasserted c (taken.atRemoval c moment) := by
    rw [takePresent, taken_eq]
    exact if_neg (by rw [line]; nofun)
  rw [effect] at ends
  exact ⟨t, answer, ends⟩

/-! ### MANUAL-HOLD (R32, R109, R141) -/

/-- The penalty of a cage after its module's serial has been handed over (R109). -/
theorem handSerial_eq (c : Cage) (s : State) : handSerial c s = s.updPenalty c (fun p =>
    match (s.cage c).identity with
    | some id => { p with lastModule := some ⟨id.serial, p.value, s.startup.stationTime, false⟩ }
    | none => p) := by
  unfold handSerial
  cases (s.cage c).identity with
  | some id => rfl
  | none => exact (congrArg (fun cages => { s with penalties := { s.penalties with cages := cages } })
      (modifyAt_id s.penalties.cages c)).symm

theorem removeHeld_eq (c : Cage) (s : State) : removeHeld c s =
    { (s.updCage c (fun k => { k with identity := none, trainRetries := 0 })).updScan c
        (fun k => { k with sample := none }) with
      penalties := (handSerial c s).penalties
      events := (handRecord c .removed .manualHold none s).events } := by
  rw [removeHeld, handSerial_eq, handSerial_eq]
  rfl

theorem removeHeld_onlyCage (c : Cage) (s : State) : OnlyCage c s (removeHeld c s) := by
  unfold removeHeld
  rw [handSerial_eq]
  exact ((handRecord_onlyCage c _ _ _ s).trans ((updPenalty_onlyCage c _ _).trans
    ((updCage_onlyCage c _ _).trans (updScan_onlyCage c _ _))))

/-! ### DEBOUNCE (R7, R13, R120) -/

theorem emptyRequests_eq (c : Cage) (s : State) :
    emptyRequests c s = (withdrawCrs c s).updCage c (fun k => { k with requests := [] }) := by
  have slot : (s.updCage c (fun k => { k with requests := [] })).crsSlot c = s.crsSlot c := rfl
  rw [emptyRequests]
  cases held : s.crsSlot c with
  | none => rw [withdrawCrs_none held, withdrawCrs_none (slot.trans held)]
  | some r =>
    rw [withdrawCrs_some held, withdrawCrs_some (slot.trans held)]
    rfl

/-- The record of a cage that goes from DEBOUNCE back to VACANT (R3, R13, R24). -/
theorem vacated_cages (c : Cage) (x : Vector CageRecord 16) :
    modifyAt (modifyAt (modifyAt x c (fun k => { k with requests := [] })) c (CageRecord.move .vacant .none noTimers)) c
      (fun k => { k with trainRetries := 0 }) =
    modifyAt x c (fun k => { k with
      state := .vacant, timers := noTimers, cause := .none, trainRetries := 0, linkFails := 0,
      wantedTx := none, visit := k.visit + 1, requests := [] }) := by
  simp only [modifyAt, Fin.getElem_fin, Vector.getElem_set_self, Vector.set_set]
  rfl

/-- The state as the cage has gone to VACANT, before its report. -/
def State.vacatedFrom (w : State) (c : Cage) : State :=
  (((w.updCage c (fun k => { k with requests := [] })).updLines c (CageLines.take .sequencer)).updCage c
    (CageRecord.move .vacant .none noTimers)).updScan c CageScan.vacated

theorem zeroRetries_vacated (c : Cage) (w : State) : zeroRetries c (handReport c (w.vacatedFrom c)) =
    { ((w.updCage c (fun k => { k with
          state := .vacant, timers := noTimers, cause := .none, trainRetries := 0, linkFails := 0,
          wantedTx := none, visit := k.visit + 1, requests := [] })).updScan c (fun k => { k with
          sample := none, windows := Vector.replicate 8 [] })).updLines c (CageLines.take .sequencer) with
      bus := (handReport c (w.vacatedFrom c)).bus } := by
  have reported : ∀ x : State, handReport c x = { x with bus := (handReport c x).bus } := fun _ => rfl
  rw [reported]
  generalize (handReport c (w.vacatedFrom c)).bus = b
  exact congrArg (fun cages => ({ ((w.updScan c (fun k => { k with
      sample := none, windows := Vector.replicate 8 [] })).updLines c (CageLines.take .sequencer)) with
    bus := b, cages := cages } : State)) (vacated_cages c w.cages)

/-- A cage that goes from DEBOUNCE back to VACANT, its training retry count at 0 (R13, R24). -/
theorem debounce_vacated (state : (v.cage c).state = .debounce) :
    zeroRetries c (moveCage c .vacant .none v) =
      zeroRetries c (handReport c ((withdrawCrs c (dropScanOf c v)).vacatedFrom c)) := by
  rw [moveCage, state]
  exact congrArg (fun y => zeroRetries c (handReport c (((y.updLines c (CageLines.take .sequencer)).updCage c
    (CageRecord.move .vacant .none noTimers)).updScan c CageScan.vacated))) (emptyRequests_eq c (dropScanOf c v))

/-! ### The three removals -/

/-- A cage taken as removed, with everything that the arbiter's part has left (R126). -/
structure TakenOut (c : Cage) (moment : RemovalMoment) (s v : State) : Prop where
  arbiter : RemovedAtArbiter c moment (s.updLines c (fun l => { l with present := false, presentHold := none })) v
  only    : OnlyCage c s v
  line    : v.line c = { s.line c with present := false, presentHold := none }
  cage    : v.cage c = s.cage c
  penalty : v.penalty c = s.penalty c
  scan    : v.cageScan c = s.cageScan c
  startup : v.startup = s.startup
  events  : v.events = s.events
  claims  : v.claims = s.claims
  bus     : v.bus = s.bus

theorem takenOut_of_removed
    (arbiter : RemovedAtArbiter c moment (s.updLines c (fun l => { l with present := false, presentHold := none })) v) :
    TakenOut c moment s v := by
  have rest := arbiter.rest
  exact ⟨arbiter, (updLines_onlyCage c _ s).trans arbiter.onlyCage,
    (congrArg (fun x : State => x.line c) rest).trans (line_updLines _ _ _),
    (congrArg (fun x : State => x.cage c) rest).trans rfl, (congrArg (fun x : State => x.penalty c) rest).trans rfl,
    (congrArg (fun x : State => x.cageScan c) rest).trans rfl, (congrArg State.startup rest).trans rfl,
    (congrArg State.events rest).trans rfl, (congrArg State.claims rest).trans rfl, (congrArg State.bus rest).trans rfl⟩

theorem takenOut (unserved : s.carriesNone c) : TakenOut c moment s
    ((s.updLines c (fun l => { l with present := false, presentHold := none })).atRemoval c moment) :=
  takenOut_of_removed (removedAtArbiter
    (s := s.updLines c (fun l => { l with present := false, presentHold := none })) unserved)

theorem RequestsHanded.congr (h : RequestsHanded u t d) (slot : u.crsSlot d = v.crsSlot d)
    (cage : (u.cage d).requests = (v.cage d).requests) (line : (u.line d).present = (v.line d).present) :
    RequestsHanded v t d := by
  obtain ⟨full, empty, handed, absent⟩ := h
  rw [slot, cage] at full empty handed
  rw [line] at handed absent
  rw [slot] at absent
  exact ⟨full, empty, handed, absent⟩

theorem removeHeld_ends (out : TakenOut c moment s v)
    (ends : EndsAs (removeHeld c v) t) : OnlyCage c s t ∧
      t.cage c = { s.cage c with identity := none, trainRetries := 0, requests := (t.cage c).requests } ∧
      t.line c = { s.line c with present := false, presentHold := none } ∧
      t.penalty c = (match (s.cage c).identity with
        | some id => { s.penalty c with
            lastModule := some ⟨id.serial, (s.penalty c).value, s.startup.stationTime, false⟩ }
        | none => s.penalty c) ∧
      t.cageScan c = { s.cageScan c with sample := none } ∧
      recorded s t c .removed .manualHold none (s.penalty c).value ∧
      EndsAs { (v.updCage c (fun k => { k with identity := none, trainRetries := 0 })).updScan c
          (fun k => { k with sample := none }) with
        penalties := t.penalties, events := t.events } t ∧
      (s.claims.testDue = false → t.bus = s.bus ∧ t.claims = s.claims) := by
  have only := ends.onlyCage (out.only.trans (removeHeld_onlyCage c v))
  have shape := removeHeld_eq c v
  rw [shape] at ends
  have cage := ends.cage c
  have record := (updCage_goes c (fun k => { k with identity := none, trainRetries := 0 }) v).record
  have penalty : t.penalty c = (handSerial c v).penalty c := ends.penalty c
  rw [handSerial_eq, penalty_updPenalty, out.cage, out.penalty, out.startup] at penalty
  have made := (recorded_handRecord c .removed .manualHold none v).congr ends.same.events
  rw [out.penalty] at made
  refine ⟨only, ?_, (ends.line c).trans out.line, ?_, ?_, made.of_units out.startup out.scan out.events, ?_, fun still => ?_⟩
  · have is := ends.recordIs record
    rw [State.recordIs, out.cage] at is
    exact is
  · exact penalty
  · rw [ends.cageScan, ← out.scan]
    exact cageScan_updScan _ _ _
  · rw [ends.same.penalties, ends.same.events]
    exact ends
  · obtain ⟨claims, bus⟩ := ends.untested (by rw [← out.claims] at still; exact still)
    exact ⟨bus.trans out.bus, claims.trans out.claims⟩

theorem debounce_ends (out : TakenOut c moment s v) (state : (s.cage c).state = .debounce)
    (ends : EndsAs (zeroRetries c (moveCage c .vacant .none v)) t) :
    ∃ w b, OnlyCage c s t ∧ ListEmptied c v w ∧
      b = { s.bus with txQueue := b.txQueue, reportDrop := b.reportDrop } ∧
      EndsAs { ((w.updCage c (fun k => { k with
          state := .vacant, timers := noTimers, cause := .none, trainRetries := 0, linkFails := 0,
          wantedTx := none, visit := k.visit + 1, requests := [] })).updScan c (fun k => { k with
          sample := none, windows := Vector.replicate 8 [] })).updLines c (fun _ => t.line c) with
        bus := b } t ∧
      (∀ d : Cage, d ≠ c → RequestsHanded v t d) ∧
      (t.line c).present = false ∧ (t.line c).presentHold = none ∧
      tookSource .sequencer (s.line c) (t.line c) ∧
      t.penalty c = s.penalty c ∧ t.events = s.events ∧
      (s.claims.testDue = false → t.bus = b ∧ t.claims = s.claims) := by
  have emptied : ListEmptied c v (withdrawCrs c (dropScanOf c v)) := listEmptied c v
  have moved : OnlyCage c v (zeroRetries c (moveCage c .vacant .none v)) :=
    (moveCage_onlyCage c .vacant .none v).trans (updCage_onlyCage c _ _)
  have only := out.only.trans moved
  rw [debounce_vacated (by rw [out.cage]; exact state), zeroRetries_vacated] at ends moved only
  generalize withdrawCrs c (dropScanOf c v) = w at *
  generalize (handReport c (w.vacatedFrom c)).bus = b at *
  have line := ends.line c
  have wLine : w.line c = v.line c := by rw [emptied.rest]; rfl
  have took : t.line c = CageLines.take .sequencer (v.line c) := by
    rw [line, ← wLine]
    exact line_updLines _ _ _
  have units : w.penalties = v.penalties ∧ w.events = v.events ∧ w.claims = v.claims := by
    rw [emptied.rest]
    exact ⟨rfl, rfl, rfl⟩
  obtain ⟨penalties, events, claims⟩ := units
  obtain ⟨present, holds, _⟩ := take_inputs .sequencer (v.line c)
  refine ⟨w, b, ends.onlyCage only, emptied, only.bus, ?_, fun d other => ?_, ?_, ?_, ?_, ?_, ?_, fun still => ?_⟩
  · have named : CageLines.take .sequencer (w.line c) = t.line c := by rw [took, wLine]
    have swap : ∀ x : State, x.lines = w.lines → EndsAs { x.updLines c (CageLines.take .sequencer) with bus := b } t →
        EndsAs { x.updLines c (fun _ => t.line c) with bus := b } t := fun x same ends => by
      rwa [updLines_congr (g := fun _ => t.line c) (by rw [line_congr same c]; exact named)] at ends
    exact swap ((w.updCage c _).updScan c _) rfl ends
  · have slot : w.crsSlot d = v.crsSlot d := emptied.slots d other
    have cage : w.cage d = v.cage d := (congrArg (fun x : State => x.cage d) emptied.rest).trans rfl
    have there : w.line d = v.line d := (congrArg (fun x : State => x.line d) emptied.rest).trans rfl
    refine (ends.requests d).congr slot ?_ ?_
    · rw [← cage]
      exact congrArg CageRecord.requests (cage_updCage_other w c d _ other)
    · rw [← there]
      exact congrArg CageLines.present (line_updLines_other _ c d _ other)
  · rw [took, present, out.line]
  · rw [took, holds, out.line]
  · rw [took, out.line]
    exact tookSource_take .sequencer _
  · exact (ends.penalty c).trans ((penalty_congr penalties c).trans out.penalty)
  · exact ends.same.events.trans (events.trans out.events)
  · obtain ⟨claims', bus'⟩ := ends.untested (by rw [← out.claims, ← claims] at still; exact still)
    exact ⟨bus', claims'.trans (claims.trans out.claims)⟩

/-- Settles O10: the arbiter's part of the removal, and then what the sequencer does in each state. -/
theorem removalWithoutModule : Obligations.RemovalWithoutModule := by
  intro c moment s free hold raw there unserved taken
  obtain ⟨t, answer, ends⟩ := removal_ends (moment := moment) free hold raw there
  have out : TakenOut c moment s (taken.atRemoval c moment) := takenOut unserved
  change EndsAs (presentDeasserted c (taken.atRemoval c moment)) t at ends
  generalize taken.atRemoval c moment = v at *
  refine ⟨fun state => ?_, fun state => ?_, fun state => ?_⟩
  · have effect : presentDeasserted c v = removeHeld c v := by rw [presentDeasserted, out.cage, state]
    rw [effect] at ends
    obtain ⟨only, cage, line, rest⟩ := removeHeld_ends out ends
    exact ⟨t, v, answer, only, out.arbiter, cage, line, rest⟩
  · have effect : presentDeasserted c v = v := by
      rcases state with state | state
      all_goals rw [presentDeasserted, out.cage, state]
    rw [effect] at ends
    have cage := ends.cage c
    rw [out.cage] at cage
    refine ⟨t, v, answer, ends.onlyCage out.only, out.arbiter, ends, cage, (ends.line c).trans out.line,
      (ends.penalty c).trans out.penalty, (ends.cageScan c).trans out.scan, ends.same.events.trans out.events, fun still => ?_⟩
    obtain ⟨claims, bus⟩ := ends.untested (by rw [out.claims]; exact still)
    exact ⟨bus.trans out.bus, claims.trans out.claims⟩
  · have effect : presentDeasserted c v = zeroRetries c (moveCage c .vacant .none v) := by
      rw [presentDeasserted, out.cage, state]
    rw [effect] at ends
    obtain ⟨w, b, only, emptied, rest⟩ := debounce_ends out state ends
    exact ⟨t, v, w, b, answer, only, out.arbiter, emptied, rest⟩

end Sys2Proof.Machine
end

section
/-! PROOF. O27: the arbiter's outcome of a pass-through sets the REPLY (R123, R124, R126, R127, R170). -/

namespace Sys2Proof.Machine

variable {c : Cage} {moment : RemovalMoment} {g : Seg} {k : Chunk} {r : LinkRequest} {q : Request} {s t u v : State}
  {f : TxFrame}

/-! ### A REPLY stays in the transmit queue while a cage moves (R92) -/

theorem report_keepsFrame {b : BusUnit} (plain : f.body.isReport = false) (mem : f ∈ b.txQueue) (x : CageReport)
    (level : Nat) : f ∈ (b.report x level).txQueue := by
  have other : f.body.isReportOf x.cage = false := by
    cases body : f.body <;> simp_all [FrameBody.isReport, FrameBody.isReportOf]
  have replaced : replaceReport x level f = f := if_neg fun h => by rw [other] at h; cases h.2
  have followed : keepFollowOn x level f = f := if_neg fun h => by rw [other] at h; cases h.2
  unfold BusUnit.report
  repeat' split
  · exact List.mem_map.2 ⟨f, mem, replaced⟩
  · exact List.mem_map.2 ⟨f, mem, followed⟩
  · exact List.mem_append_left _ mem
  · exact mem

theorem isReport_of_reply {b : FrameBody} (reply : b.isReply = true) : b.isReport = false := by
  cases b <;> simp_all [FrameBody.isReply, FrameBody.isReport]

theorem place_keepsReply {b : BusUnit} (reply : f.body.isReply = true) (mem : f ∈ b.txQueue) (x : TxFrame) :
    f ∈ (b.place x).txQueue :=
  mem_place (isReport_of_reply reply) mem

theorem releaseUp_keepsReply {b : BusUnit} (reply : f.body.isReply = true) (mem : f ∈ b.txQueue) (amount : Nat) :
    f ∈ (b.releaseUp amount).txQueue := by
  have other : f.body.isRelease = false := by cases body : f.body <;> simp_all [FrameBody.isReply, FrameBody.isRelease]
  have same : setRelease .waiting amount f = f := if_neg fun h => by rw [other] at h; cases h.2
  unfold BusUnit.releaseUp
  repeat' split
  · exact List.mem_map.2 ⟨f, mem, same⟩
  · exact mem
  · exact place_keepsReply reply mem _

theorem abandonIntent_keepsReply (e : OwnIntent) (reply : f.body.isReply = true) (mem : f ∈ s.bus.txQueue) :
    f ∈ (abandonIntent e s).bus.txQueue := by
  have other : f.body.isIntentOf e.tag = false := by
    cases body : f.body <;> simp_all [FrameBody.isReply, FrameBody.isIntentOf]
  unfold abandonIntent
  split
  · exact mem
  · exact List.mem_filter.2 ⟨mem, by rw [other, Bool.and_false]; rfl⟩

theorem disposeClaim_keepsReply (c : Cage) (reply : f.body.isReply = true) (mem : f ∈ s.bus.txQueue) :
    f ∈ (disposeClaim c s).bus.txQueue := by
  unfold disposeClaim
  repeat' split
  · exact mem
  · exact releaseUp_keepsReply reply mem _
  · exact abandonIntent_keepsReply _ reply mem
  · exact mem
  · exact abandonIntent_keepsReply _ reply mem
  · exact mem

theorem claimHandOff_keepsReply (c : Cage) (old new : CageState) (reply : f.body.isReply = true)
    (mem : f ∈ s.bus.txQueue) : f ∈ (claimHandOff c old new s).bus.txQueue := by
  unfold claimHandOff
  repeat' split
  · exact mem
  · exact mem
  · exact disposeClaim_keepsReply (s := leaveList c s) c reply mem
  · exact releaseUp_keepsReply reply mem _
  · exact mem
  · exact disposeClaim_keepsReply c reply mem
  · exact disposeClaim_keepsReply c reply mem
  · exact mem
  · exact mem
  · exact mem

theorem moveCage_keepsReply (c : Cage) (new : CageState) (cause : FaultCause) (reply : f.body.isReply = true)
    (mem : f ∈ s.bus.txQueue) : f ∈ (moveCage c new cause s).bus.txQueue := by
  rw [moveCage_bus]
  split
  · exact claimHandOff_keepsReply c _ new reply mem
  · exact report_keepsFrame (isReport_of_reply reply) (claimHandOff_keepsReply c _ new reply mem) _ _

/-! ### The outcome of a pass-through at its event -/

/-- The outcome of a pass-through answers the request carried (R170). -/
structure PassAnswered (q : Request) (result : Result) (data : List Byte) (s t : State) : Prop where
  waits     : t.replyWaits q.code result data
  service   : t.service = { s.service with phase := .replying }
  lines     : t.lines = s.lines
  penalties : t.penalties = s.penalties
  events    : t.events = s.events
  cages     : ∀ c : Cage, t.cage c = { s.cage c with requests := (t.cage c).requests }

theorem passAnswered {outcome : LinkOutcome} (f : Link → Link) (phase : s.service.phase = .carrying)
    (request : s.service.request = some q) (room : s.bus.txQueue.length < 8)
    (ends : EndsAs (passOutcome outcome (s.updLink g f)) t) : PassAnswered q outcome.result outcome.bytes s t := by
  rw [passOutcome_carried (s := s.updLink g f) phase request, answer_eq (s := s.updLink g f) room] at ends
  refine ⟨replyWaits_of_answered ends, ends.same.service.trans ?_, ends.same.lines, ends.same.penalties, ends.same.events,
    ends.same.cages⟩
  show ({ s.service with phase := .replying, request := some q } : ServiceUnit) = _
  rw [← request]

/-- A chunk that a removal has ended answers its request ABSENT at its byte boundary (R126). -/
theorem boundary_ends (free : s.startup.resetHeld = false) (trying : (s.link g).state = .chunk)
    (chunk : (s.link g).chunk = some k) (ended : k.ending = .absent) (held : (s.link g).inSlot k.slot = some r) :
    ∃ t, exec (.removalByteBoundary g) s = .next t ∧
      EndsAs (deliver (s.updLink g (fun l => Link.setSlot k.slot none (l.endChunk .idle true))) ⟨r, .absent⟩) t := by
  have effect : boundary g s =
      deliver (s.updLink g (fun l => Link.setSlot k.slot none (l.endChunk .idle true))) ⟨r, .absent⟩ := by
    have request : (s.link g).inProgress k = some r := by rw [Link.inProgress, ended]; exact held
    rw [boundary_of_chunk chunk, byteBoundary, endRequest]
    simp only [request]
    rfl
  have := eventNext_occurs (effect := boundary g) free (ended ▸ endsFor_of_chunk trying chunk)
  rwa [effect] at this

/-! ### A removal of the cage of a pass-through -/

/-- What the sequencer's part of a removal leaves of the service unit, the lines, the pass-through slot and a REPLY. -/
structure KeepsAnswer (c : Cage) (v u : State) : Prop where
  reply   : ∀ f ∈ v.bus.txQueue, f.body.isReply = true → f ∈ u.bus.txQueue
  service : u.service = v.service
  present : (u.line c).present = (v.line c).present
  pass    : (u.link (segOf c)).passThrough = (v.link (segOf c)).passThrough

theorem moveCage_keepsAnswer (c : Cage) (new : CageState) (cause : FaultCause) (v : State) :
    KeepsAnswer c v (moveCage c new cause v) where
  reply _ mem reply := moveCage_keepsReply c new cause reply mem
  service := (moveCage_onlyCage c new cause v).service
  present := (moveCage_inputs c new cause v).1
  pass := congrArg (fun l => l.2.2.2.2.2) (moveCage_course c new cause (segOf c) v)

theorem presentDeasserted_keepsAnswer (c : Cage) (v : State) : KeepsAnswer c v (presentDeasserted c v) := by
  have still : KeepsAnswer c v v := ⟨fun _ mem _ => mem, rfl, rfl, rfl⟩
  have module : KeepsAnswer c v (removeModule c v) := by
    have moved : ∀ x : State, x.bus = v.bus → x.service = v.service → x.lines = v.lines → x.links = v.links →
        KeepsAnswer c v ((moveCage c .vacant .none x).updCage c CageRecord.cleared) := fun x bus service lines links => by
      obtain ⟨reply, service', present, pass⟩ := moveCage_keepsAnswer c .vacant .none x
      rw [bus] at reply
      rw [service] at service'
      rw [line_congr lines] at present
      rw [State.link, State.link, links] at pass
      exact ⟨reply, service', present, pass⟩
    refine moved _ ?_ ?_ ?_ ?_
    all_goals
      rw [handSerial_eq]
      split <;> rfl
  have held : KeepsAnswer c v (removeHeld c v) := by
    rw [removeHeld_eq]
    exact ⟨fun _ mem _ => mem, rfl, rfl, rfl⟩
  have debounced : KeepsAnswer c v (zeroRetries c (moveCage c .vacant .none v)) := by
    obtain ⟨reply, service, present, pass⟩ := moveCage_keepsAnswer c .vacant .none v
    exact ⟨reply, service, present, pass⟩
  unfold presentDeasserted
  split
  · exact still
  · exact still
  · exact debounced
  · exact held
  · exact module

/-- The arbiter's part of a removal, where the pass-through that is carried is answered (R127, R170). -/
theorem atRemoval_carried (held : (s.link (segOf c)).passThrough = some r) (origin : r.origin = .passThrough)
    (cage : r.cage = c) (waits : ∀ k, (s.link (segOf c)).chunk = some k → k.slot ≠ .passThrough ∨ moment = .inStretch ∨
      takesBack moment (s.link (segOf c)) k)
    (phase : s.service.phase = .carrying) (request : s.service.request = some q) :
    HandedAbsent c (s.cutOff c moment) (s.atRemoval c moment) ∧
    (s.atRemoval c moment).service = { s.service with phase := .replying } ∧
    (s.atRemoval c moment).bus = s.bus.place (newFrame 16 (.reply q.code (byteOf Result.absent.code) [])) ∧
    ((s.atRemoval c moment).link (segOf c)).passThrough = none := by
  have own : Slot.passThrough ∈ [Slot.crs c, .passThrough, .scanner] := by simp
  have mem : Slot.passThrough ∈ (s.link (segOf c)).slotsOf c := mem_slotsOf.2 ⟨own, r, held, cage⟩
  have answers : Slot.passThrough ∈ ((s.link (segOf c)).removal c moment).2 := by
    rcases removal_slots c moment (s.link (segOf c)) with all | ⟨k, chunk, _, calm, not, _, cut⟩
    · rw [all]
      exact mem
    · rw [cut]
      refine List.mem_filter.2 ⟨mem, decide_eq_true fun same => ?_⟩
      rcases waits k chunk with other | stretched | back
      · exact other same.symm
      · exact calm stretched
      · exact not back
  have rest := (cutOff_links c moment s).1
  have service : (s.cutOff c moment).service = s.service := by rw [rest]
  have bus : (s.cutOff c moment).bus = s.bus := by rw [rest]
  have handed := deliverAll_carried (q := q) (s := s.cutOff c moment) (l := (s.link (segOf c)).answersOf c moment)
    (fun e mem => answersOf_absent mem) ⟨⟨r, .absent⟩, mem_answersOf.2 ⟨_, answers, r, held, rfl⟩, origin⟩
    (by rw [service]; exact phase) (by rw [service]; exact request)
  rw [← linkRemoval_answers, service, bus] at handed
  obtain ⟨handed, service', bus'⟩ := handed
  refine ⟨handed, service', bus', ?_⟩
  rw [(atRemoval_links handed).1]
  exact (removed_inSlot (moment := moment) (s.link (segOf c)) own).trans (if_pos answers)

/-- Settles O27: the chunk's end, its failure and its byte boundary each hand their outcome to the service unit, and so does
a removal that finds the request waiting. -/
theorem passThroughAnswered : Obligations.PassThroughAnswered := by
  refine ⟨fun i g k r q s free trying chunk held origin phase request room => ?_,
    fun c moment r q s free hold raw there phase request room held origin cage waits => ?_⟩
  · intro answered
    have all : ∀ {result : Result} {data : List Byte} {t : State}, PassAnswered q result data s t → answered result data t :=
      fun h => ⟨h.waits, h.service, h.lines, h.penalties, h.events, h.cages⟩
    refine ⟨fun going data row fits last => ?_, fun going lost => ?_, fun ended row => ?_⟩
    · obtain ⟨t, answer, ends⟩ := chunkDone_ends free trying chunk going fits held last
      rw [deliver_pass (s := s.chunkOver g k .idle) origin] at ends
      exact ⟨t, row ▸ answer, all (passAnswered _ phase request room ends)⟩
    · obtain ⟨t, state, outcome, answer, ends, failure, _⟩ := tryLost_ends free trying chunk going held lost
      rw [deliver_pass (s := s.chunkOver g k state) origin] at ends
      refine ⟨t, answer, ?_⟩
      rcases failure with rfl | rfl
      · exact all (passAnswered _ phase request room ends)
      · exact all (passAnswered _ phase request room ends)
    · obtain ⟨t, answer, ends⟩ := boundary_ends free trying chunk ended held
      rw [deliver_pass origin] at ends
      exact ⟨t, row ▸ answer, all (passAnswered _ phase request room ends)⟩
  · let taken := s.updLines c (fun l => { l with present := false, presentHold := none })
    obtain ⟨t, answer, ends⟩ := removal_ends (moment := moment) free hold raw there
    obtain ⟨handed, service, bus, pass⟩ := atRemoval_carried (s := taken) (moment := moment) held origin cage waits phase request
    change EndsAs (presentDeasserted c (taken.atRemoval c moment)) t at ends
    have line : (taken.atRemoval c moment).line c = { s.line c with present := false, presentHold := none } := by
      rw [handed.rest, (cutOff_links c moment taken).1]
      exact line_updLines _ _ _
    obtain ⟨reply, service', present, pass'⟩ := presentDeasserted_keepsAnswer c (taken.atRemoval c moment)
    refine ⟨t, answer, ends.keepsFrame rfl (reply _ ?_ rfl), ends.same.service.trans (service'.trans service), ?_, ?_⟩
    · rw [bus]
      exact mem_place_new (.inl room)
    · rw [ends.line, present, line]
    · have empty := pass'.trans pass
      rcases (ends.segments (segOf c)).pass with same | ⟨_, granted⟩
      · rw [same, empty]
      · rw [granted, empty]
        rfl

end Sys2Proof.Machine
end

section
/-! PROOF. O28: the slots of a scanner (R119, R136, R137, R139). -/

namespace Sys2Proof.Machine

variable {g : Seg} {c d : Cage} {s t u : State}

/-! ### The choice of a slot (R136) -/

/-- The cage that a slot goes to: the next one in ascending order after the last one visited, wrapping to the lowest. -/
structure NextVisited (last : Option Cage) (l : List Cage) (d : Cage) : Prop where
  mem   : d ∈ l
  after : ∀ k, last = some k → (∀ e ∈ l, k < e → k < d ∧ d ≤ e) ∧ ((∀ e ∈ l, ¬ k < e) → ∀ e ∈ l, d ≤ e)
  first : last = none → ∀ e ∈ l, d ≤ e

theorem head_le {l : List Cage} (ascending : l.Pairwise (· < ·)) (head : l.head? = some d) : ∀ e ∈ l, d ≤ e := by
  cases l with
  | nil => cases head
  | cons a rest =>
    cases head
    intro e mem
    rcases List.mem_cons.1 mem with rfl | mem
    · exact le_rfl
    · exact le_of_lt ((List.pairwise_cons.1 ascending).1 e mem)

theorem find_after {l : List Cage} {k : Cage} (ascending : l.Pairwise (· < ·))
    (found : l.find? (fun c => decide (k < c)) = some d) : k < d ∧ ∀ e ∈ l, k < e → d ≤ e := by
  induction l with
  | nil => cases found
  | cons a rest ih =>
    obtain ⟨before, ascending⟩ := List.pairwise_cons.1 ascending
    rw [List.find?_cons] at found
    by_cases later : k < a
    · rw [decide_eq_true later] at found
      cases found
      refine ⟨later, fun e mem _ => ?_⟩
      rcases List.mem_cons.1 mem with rfl | mem
      · exact le_rfl
      · exact le_of_lt (before e mem)
    · rw [decide_eq_false later] at found
      obtain ⟨own, first⟩ := ih ascending found
      refine ⟨own, fun e mem above => ?_⟩
      rcases List.mem_cons.1 mem with rfl | mem
      · exact absurd above later
      · exact first e mem above

theorem nextAfter_visits {last : Option Cage} {l : List Cage} (ascending : l.Pairwise (· < ·)) (some_ : c ∈ l) :
    ∃ d, nextAfter last l = some d ∧ NextVisited last l d := by
  obtain ⟨h, head⟩ : ∃ h, l.head? = some h := by
    cases l with
    | nil => cases some_
    | cons a rest => exact ⟨a, rfl⟩
  have lowest := head_le ascending head
  have mem := List.mem_of_mem_head? head
  cases last with
  | none => exact ⟨h, head, mem, nofun, fun _ => lowest⟩
  | some k =>
    cases found : l.find? (fun c => decide (k < c)) with
    | none =>
      have none_ : ∀ e ∈ l, ¬ k < e := fun e mem above => by
        have := List.find?_eq_none.1 found e mem
        exact this (decide_eq_true above)
      refine ⟨h, by simp only [nextAfter, found, head], mem, fun j same => ?_, nofun⟩
      cases same
      exact ⟨fun e mem above => absurd above (none_ e mem), fun _ => lowest⟩
    | some d =>
      obtain ⟨own, first⟩ := find_after ascending found
      refine ⟨d, by simp only [nextAfter, found], List.mem_of_find?_eq_some found, fun j same => ?_, nofun⟩
      cases same
      exact ⟨fun e mem above => ⟨own, first e mem above⟩,
        fun none_ => absurd own (none_ d (List.mem_of_find?_eq_some found))⟩

theorem rotaClass_ascending (s : State) (g : Seg) (cls : Turn) : (s.rotaClass g cls).Pairwise (· < ·) :=
  List.Pairwise.filter _ (List.Pairwise.filter _ (List.Pairwise.filter _ allCages_ascending))

theorem slotChoice_visits {cls : Turn} (mem : c ∈ s.rotaClass g cls)
    (turn : cls = (s.scanner g).turn ∨ s.rotaClass g (s.scanner g).turn = []) : ∃ d, s.slotChoice g = some (cls, d) ∧
      NextVisited ((s.scanner g).lastOf cls) (s.rotaClass g cls) d := by
  obtain ⟨d, next, visits⟩ := nextAfter_visits (last := (s.scanner g).lastOf cls) (rotaClass_ascending s g cls) mem
  refine ⟨d, ?_, visits⟩
  by_cases own : cls = (s.scanner g).turn
  · subst own
    simp only [State.slotChoice, next]
  · have empty := turn.resolve_left own
    have other : cls = (s.scanner g).turn.other := by
      revert own
      cases cls <;> cases (s.scanner g).turn <;> decide
    have none_ : ∀ last, nextAfter last [] = none := fun last => by cases last <;> rfl
    rw [other] at next
    simp only [State.slotChoice, empty, none_, next, Option.map_some, other]

/-! ### A slot begun (R136, R137, R139) -/

/-- What a slot that begins leaves of its scanner and its scanner slot. -/
structure SlotBegun (s : State) (g : Seg) (cls : Turn) (d : Cage) (n : Scanner) (slot : Option LinkRequest) : Prop where
  timer   : n.slotTimer = some 10
  turn    : n.turn = cls.other
  own     : n.lastOf cls = some d
  others  : n.lastOf cls.other = (s.scanner g).lastOf cls.other
  bytes   : n.sampleBytes = []
  present : (s.line d).present = true → n.phase = .scanning ∧ n.cursor = some ⟨d, s.lanesOf d, 0⟩ ∧
    slot = some (readRequest .scanner d 64 3)
  absent  : (s.line d).present = false → n.phase = .idle ∧ n.cursor = none ∧ slot = (s.link g).scanner

theorem startSlot_begins {cls : Turn} (idle : (s.scanner g).phase = .idle) (stopped : (s.scanner g).slotTimer = none)
    (choice : s.slotChoice g = some (cls, d)) :
    SlotBegun s g cls d ((startSlot g s).scanner g) ((startSlot g s).link g).scanner := by
  let n := { (s.scanner g).visited cls d with slotTimer := some 10, sampleBytes := [] }
  let v := s.updScanner g (fun n => { n.visited cls d with slotTimer := some 10, sampleBytes := [] })
  have own : v.scanner g = n := scanner_updScanner _ _ _
  have starts : startSlot g s = presentScan g ⟨d, v.lanesOf d, 0⟩ v := by
    simp only [startSlot, idle, stopped, choice, and_self, if_true]
    rfl
  have plan : (scanPlan (v.lanesOf d))[0]? = some (64, 3) := rfl
  have visited : n.turn = cls.other ∧ n.lastOf cls = some d ∧ n.lastOf cls.other = (s.scanner g).lastOf cls.other := by
    cases cls <;> exact ⟨rfl, rfl, rfl⟩
  obtain ⟨turn, lastOwn, lastOther⟩ := visited
  rw [starts]
  cases present : (s.line d).present with
  | true =>
    have puts : presentScan g ⟨d, v.lanesOf d, 0⟩ v = putRequest g .scanner (readRequest .scanner d 64 3)
        (v.updScanner g (fun n => { n with phase := .scanning, cursor := some ⟨d, v.lanesOf d, 0⟩ })) := by
      rw [presentScan, plan]
      exact if_pos present
    have scanner : (presentScan g ⟨d, v.lanesOf d, 0⟩ v).scanner g =
        { n with phase := .scanning, cursor := some ⟨d, s.lanesOf d, 0⟩ } := by
      rw [puts, ← own]
      exact scanner_updScanner v g _
    have slot : ((presentScan g ⟨d, v.lanesOf d, 0⟩ v).link g).scanner = some (readRequest .scanner d 64 3) := by
      rw [puts, putRequest, link_updLink]
      rfl
    rw [scanner, slot]
    exact ⟨rfl, turn, lastOwn, lastOther, rfl, fun _ => ⟨rfl, rfl, rfl⟩, fun no => by rw [present] at no; cases no⟩
  | false =>
    have ended : presentScan g ⟨d, v.lanesOf d, 0⟩ v = v.updScanner g (Scanner.ended .idle) := by
      rw [presentScan, plan]
      exact if_neg (by rw [show (v.line d).present = false from present]; nofun)
    have scanner : (presentScan g ⟨d, v.lanesOf d, 0⟩ v).scanner g = n.ended .idle := by
      rw [ended, ← own]
      exact scanner_updScanner v g _
    rw [scanner, ended]
    exact ⟨rfl, turn, lastOwn, lastOther, rfl, fun yes => (by rw [present] at yes; cases yes), fun _ => ⟨rfl, rfl, rfl⟩⟩

/-! ### The slot at the end of an event -/

theorem grantSegment_scannerSlot (g : Seg) (s : State) :
    ((grantSegment g s).link g).scanner = (s.link g).scanner ∨
    ((s.link g).state = .idle ∧ ((grantSegment g s).link g).scanner = (s.link g).scanner.map LinkRequest.grant) := by
  rcases grantSegment_links g s with same | ⟨idle, slot, r, _, held, grant⟩
  · exact .inl (by rw [same])
  · rw [grant, link_updLink]
    cases slot with
    | crs e => exact .inl rfl
    | passThrough => exact .inl rfl
    | scanner =>
      refine .inr ⟨idle, ?_⟩
      have held : (s.link g).scanner = some r := held
      rw [held]
      rfl

/-- The state in which the scanner of a segment begins its slot at the end of an event. -/
theorem finish_slot (u : State) (g : Seg) : ∃ y : State, SameOutsideWork u y ∧ y.scanner g = u.scanner g ∧
    (y.link g).scanner = (u.link g).scanner ∧ (finish u).scanner g = (startSlot g y).scanner g ∧
    (((finish u).link g).scanner = ((startSlot g y).link g).scanner ∨
      ((u.link g).state = .idle ∧
        ((finish u).link g).scanner = ((startSlot g y).link g).scanner.map LinkRequest.grant)) := by
  obtain ⟨links, _, scan⟩ := runDueTest_frame (beforeTest u)
  let p := allCages.foldl pumpCage (endAdopting u)
  have pumped : SameOutsideWork u p := (endAdopting_work u).trans (pumpAll_work _ _)
  have pScan : p.scan = u.scan := (pumpAll_scan _ _).trans (by simp)
  have pLink : ∀ h, p.link h = { u.link h with crsSlots := (p.link h).crsSlots } := fun h => by
    have same : (endAdopting u).link h = u.link h := by simp [State.link]
    exact (pumpAll_link allCages (endAdopting u) h).trans (by rw [same])
  let w := startSlot 1 (startSlot 0 p)
  have scanners : ∀ h v, (grantSegment h v).scan = v.scan := fun h v => by
    rcases grantSegment_links h v with same | ⟨_, slot, r, _, _, grant⟩
    · rw [same]
    · rw [grant]
      rfl
  have grants : (finish u).scanner g = w.scanner g := by
    have same : (finish u).scan = w.scan := scan.trans ((scanners 1 (grantSegment 0 w)).trans (scanners 0 w))
    rw [State.scanner, State.scanner, same]
  have granted : ((finish u).link g).scanner = (w.link g).scanner ∨
      ((w.link g).state = .idle ∧ ((finish u).link g).scanner = (w.link g).scanner.map LinkRequest.grant) := by
    have link : (finish u).link g = (grantSegment 1 (grantSegment 0 w)).link g := by
      rw [finish_eq, State.link, links]
      rfl
    rw [link]
    rcases seg_cases g with rfl | rfl
    · rw [grantSegment_other 1 0 _ (by decide)]
      exact grantSegment_scannerSlot 0 w
    · have kept : (grantSegment 0 w).link 1 = w.link 1 := grantSegment_other 0 1 w (by decide)
      rw [← kept]
      exact grantSegment_scannerSlot 1 (grantSegment 0 w)
  have state : (w.link g).state = (u.link g).state := by
    rw [(startSlot_links 1 (startSlot 0 p) g).1, (startSlot_links 0 p g).1, pLink]
  rw [state] at granted
  rw [grants]
  rcases seg_cases g with rfl | rfl
  · obtain ⟨same, link⟩ := (startSlot_links 1 (startSlot 0 p) 0).2.resolve_right (fun h => absurd h.1 (by decide))
    refine ⟨p, pumped, by rw [State.scanner, pScan]; rfl, by rw [pLink], same, ?_⟩
    rw [← link]
    exact granted
  · obtain ⟨same, link⟩ := (startSlot_links 0 p 1).2.resolve_right (fun h => absurd h.1 (by decide))
    refine ⟨startSlot 0 p, pumped.trans (startSlot_work 0 p), ?_, ?_, rfl, granted⟩
    · rw [same, State.scanner, pScan]
      rfl
    · rw [link, pLink]

theorem rotaClass_congr {y : State} (states : ∀ c, (y.cage c).state = (s.cage c).state) (g : Seg) (cls : Turn) :
    y.rotaClass g cls = s.rotaClass g cls := by
  simp only [State.rotaClass, State.rota, states]

/-- Settles O28: the timer stopped, and at the end of the event the slot of the class whose turn it is. -/
theorem slotTimerExpires : Obligations.SlotTimerExpires := by
  intro g s free timer
  let u := s.updScanner g (fun n => { n with slotTimer := none })
  refine ⟨fun _ => eventNext_occurs (effect := fun s => s.updScanner g (fun n => { n with slotTimer := none })) free timer,
    fun cls c idle mem turn => ?_⟩
  have answer : exec (.slotTimerExpiry g) s = .next (finish u).nextChoice :=
    (eventNext_finish (effect := fun s => s.updScanner g (fun n => { n with slotTimer := none })) free timer)
  have own : u.scanner g = { s.scanner g with slotTimer := none } := scanner_updScanner _ _ _
  obtain ⟨y, work, scanner, slot, begun, granted⟩ := finish_slot u g
  have record : ∀ e, y.cage e = { s.cage e with requests := (y.cage e).requests } := work.cages
  have rota := rotaClass_congr (s := s) (y := y) (fun e => by rw [record e]) g
  have same : y.scanner g = { s.scanner g with slotTimer := none } := scanner.trans own
  obtain ⟨d, choice, visits⟩ := slotChoice_visits (s := y) (g := g) (cls := cls) (c := c) (by rw [rota]; exact mem)
    (by rw [rota, same]; exact turn)
  have lanes : y.lanesOf d = s.lanesOf d := by rw [State.lanesOf, record d]; rfl
  have line : y.line d = s.line d := line_congr work.lines d
  obtain ⟨timer', turn', lastOwn, lastOther, bytes, present, absent⟩ :=
    startSlot_begins (s := y) (g := g) (by rw [same]; exact idle) (by rw [same]) choice
  rw [← begun] at timer' turn' lastOwn lastOther bytes present absent
  have others : ∀ k, (y.scanner g).lastOf k = (s.scanner g).lastOf k := fun k => by rw [same]; cases k <;> rfl
  rw [others, rota] at visits
  rw [others] at lastOther
  rw [line, lanes] at present
  rw [line] at absent
  have ends : EndsAs u (finish u).nextChoice := finish_endsAs u
  have whole : SameOutsideWork s (finish u).nextChoice := SameOutsideWork.trans
    (updScanner_work s g (fun n => { n with slotTimer := none })) ends.same
  generalize finish u = v at *
  refine ⟨_, d, answer, whole, visits.mem, visits.after, visits.first, timer', turn', lastOwn, lastOther, bytes,
    fun there => ?_, fun gone => ?_⟩
  · obtain ⟨phase, cursor, put⟩ := present there
    rw [put] at granted
    exact ⟨phase, cursor, _, granted.imp id (fun h => h.2), rfl⟩
  · obtain ⟨phase, cursor, kept⟩ := absent gone
    rw [kept, slot] at granted
    exact ⟨phase, cursor, granted⟩

end Sys2Proof.Machine
end

section
/-! PROOF. O43: the window of an own intent and its judgement (R55 to R60). -/

namespace Sys2Proof.Machine

variable {c : Cage} {tag : Tag} {e : OwnIntent} {s t u v w : State}

/-! ### A cage that the queue-time test does not look at (R49) -/

/-- A cage off the admission list, or in backoff (R49, R60). -/
def State.passedOver (s : State) (c : Cage) : Prop := (s.claim c).listed = false ∨ (s.claim c).backoff ≠ none

theorem other_of_candidate {d : Cage} (over_ : s.passedOver c) (chosen : s.candidate = some d) : c ≠ d := by
  rintro rfl
  obtain ⟨⟨listed, _, free, _⟩, _⟩ := (candidate_iff s c).1 chosen
  rcases over_ with off | waits
  · rw [listed] at off; cases off
  · exact waits free

theorem Tested.passedOver (h : Tested v w) (over_ : v.passedOver c) : w.claim c = v.claim c ∧
    ∀ x ∈ w.claims.intents, x.cage = c → x ∈ v.claims.intents := by
  induction h with
  | stops s _ => exact ⟨rfl, fun x mem _ => mem⟩
  | queues d s t chosen _ _ ih =>
    have other := other_of_candidate over_ chosen
    have kept : (queueIntent d s).claim c = s.claim c := claim_setClaim_other other _ _
    obtain ⟨claim, intents⟩ := ih (by rwa [State.passedOver, kept])
    refine ⟨claim.trans kept, fun x mem own => ?_⟩
    have old := intents x mem own
    rw [(queueIntent_units d s).1] at old
    rcases List.mem_append.1 old with old | new
    · exact old
    · rw [List.mem_singleton.1 new] at own
      exact absurd own.symm other

theorem EndsAs.passedOver (h : EndsAs u t) (over_ : u.passedOver c) : t.claim c = u.claim c ∧
    ∀ x ∈ t.claims.intents, x.cage = c → x ∈ u.claims.intents := by
  cases due : u.claims.testDue with
  | false =>
    obtain ⟨claims, _⟩ := h.untested due
    exact ⟨claim_congr claims c, fun x mem _ => by rwa [claims] at mem⟩
  | true =>
    obtain ⟨v, w, _, claims, _, run, claims', _⟩ := h.tested due
    have before : v.claim c = u.claim c := by rw [State.claim, claims]; rfl
    have intents : v.claims.intents = u.claims.intents := by rw [claims]
    obtain ⟨claim, kept⟩ := run.passedOver (c := c) (by rwa [State.passedOver, before])
    refine ⟨(claim_congr claims' c).trans (claim.trans before), fun x mem own => ?_⟩
    rw [claims'] at mem
    rw [← intents]
    exact kept x mem own

/-! ### The judgement of an own intent (R57 to R59) -/

theorem moveCage_keepsFrame {f : TxFrame} {new : CageState} {cause : FaultCause} (plain : f.body.isReport = false)
    (kept : (claimHandOff c (s.cage c).state new s).bus = s.bus) (mem : f ∈ s.bus.txQueue) :
    f ∈ (moveCage c new cause s).bus.txQueue := by
  rw [moveCage_bus, kept]
  split
  · exact mem
  · exact report_keepsFrame plain mem _ _

/-- Where the entries of one cage bear its entry's tag, none of the cage's is left once it is dropped. -/
theorem dropped_cage {x : OwnIntent} (single : ∀ x ∈ s.claims.intents, x.cage = e.cage → x.tag = e.tag)
    (mem : x ∈ (dropIntent e.tag s).claims.intents) : x.cage ≠ e.cage := by
  obtain ⟨mem, other⟩ := List.mem_filter.1 mem
  exact fun same => of_decide_eq_true other (single x mem same)

theorem confirmed_ends (room : s.bus.txQueue.length < 8)
    (single : ∀ x ∈ s.claims.intents, x.cage = e.cage → x.tag = e.tag) (state : (s.cage e.cage).state = .admitWait)
    (ends : EndsAs (confirmIntent e s) t) : Confirmed e.tag e s t := by
  have only := ends.onlyCage (confirmIntent_onlyCage e s)
  let x := confirmedState e s
  have own : x.cage e.cage = s.cage e.cage := rfl
  have moves : confirmIntent e s = moveCage e.cage .powerUp .none x := if_pos state
  rw [moves] at ends
  have goes := moveCage_goes (c := e.cage) (new := .powerUp) x rfl
  have record := ends.recordIs goes.record
  have claims : (moveCage e.cage .powerUp .none x).claims = x.claims := by
    rw [moveCage_claimUnit, own, state]
    rfl
  have handOff : (claimHandOff e.cage (x.cage e.cage).state .powerUp x).bus = x.bus := by
    rw [own, state]
    rfl
  have claim : (moveCage e.cage .powerUp .none x).claim e.cage = x.claim e.cage := claim_congr claims e.cage
  obtain ⟨kept, intents⟩ := ends.passedOver (c := e.cage) (.inl (by rw [claim, confirmedState_claim]))
  rw [claim, confirmedState_claim] at kept
  exact {
    claim := by rw [kept]; exact ⟨rfl, rfl⟩
    total := by rw [ends.totals.1, claims]; rfl
    frame := ends.keepsFrame rfl (moveCage_keepsFrame rfl handOff (mem_place_new (.inl room)))
    gone := fun y mem same => dropped_cage single (by
      have mem := intents y mem same
      rw [claims] at mem
      exact mem) same
    state := by rw [record.state]; rfl
    timers := by rw [record]; rfl
    identity := by rw [record]; rfl
    units := ⟨ends.same.penalties.trans goes.penalties, ends.same.events.trans goes.events, only.peers, only.budgetQueue⟩
    others := fun c other => ⟨only.lines c other, only.cages c other⟩ }

/-- What a withdrawal leaves besides the claim of its cage (R59). -/
structure WithdrawnBeside (e : OwnIntent) (u t : State) : Prop where
  total : t.claims.committed = u.claims.committed
  frame : newFrame e.level (.withdraw e.tag e.draw) ∈ t.bus.txQueue
  gone  : ∀ x ∈ t.claims.intents, x.cage ≠ e.cage
  units : t.lines = u.lines ∧ t.penalties = u.penalties ∧ t.events = u.events ∧ t.peers = u.peers ∧
    t.bus.budgetQueue = u.bus.budgetQueue
  cages : ∀ c : Cage, t.cage c = { u.cage c with requests := (t.cage c).requests }

/-- A withdrawal by what it makes of the claim: off the admission list or in backoff, the cage is not looked at again. -/
theorem withdrawn_with {g : Claim → Claim} (room : s.bus.txQueue.length < 8)
    (single : ∀ x ∈ s.claims.intents, x.cage = e.cage → x.tag = e.tag)
    (over_ : (g (s.claim e.cage)).listed = false ∨ (g (s.claim e.cage)).backoff ≠ none)
    (ends : EndsAs (dueTest ((queueFrame e.level (.withdraw e.tag e.draw) (dropIntent e.tag s)).updClaim e.cage g)) t) :
    t.claim e.cage = g (s.claim e.cage) ∧ WithdrawnBeside e s t := by
  let x := queueFrame e.level (.withdraw e.tag e.draw) (dropIntent e.tag s)
  have claim : (dueTest (x.updClaim e.cage g)).claim e.cage = g (s.claim e.cage) := claim_updClaim x e.cage g
  obtain ⟨kept, intents⟩ := ends.passedOver (c := e.cage) (by rw [State.passedOver, claim]; exact over_)
  refine ⟨kept.trans claim, {
    total := ends.totals.1
    frame := ends.keepsFrame rfl (mem_place_new (.inl room))
    gone := fun y mem same => dropped_cage single (intents y mem same) same
    units := ⟨ends.same.lines, ends.same.penalties, ends.same.events, ends.same.peers, ?_⟩
    cages := ends.same.cages }⟩
  rw [ends.same.bus]
  exact (queueFrame_onlyCage e.cage e.level (.withdraw e.tag e.draw) (dropIntent e.tag s)).budgetQueue

theorem withdrawn_ends (room : s.bus.txQueue.length < 8)
    (single : ∀ x ∈ s.claims.intents, x.cage = e.cage → x.tag = e.tag)
    (ends : EndsAs (withdrawIntent e s) t) : Withdrawn e.tag e s t := by
  let x := queueFrame e.level (.withdraw e.tag e.draw) (dropIntent e.tag s)
  have claimOf : x.claim e.cage = s.claim e.cage := rfl
  cases listed : (s.claim e.cage).listed with
  | true =>
    have withdraws : withdrawIntent e s = dueTest (x.updClaim e.cage
        (Claim.withdrawn s.conf (s.cageConf e.cage).pinned s.startup.station)) := by
      refine congrArg dueTest (if_pos ?_)
      exact listed
    rw [withdraws] at ends
    obtain ⟨claim, total, frame, gone, units, cages⟩ := withdrawn_with room single (.inr (by nofun)) ends
    refine ⟨fun _ => claim.trans ?_, fun off => (by rw [listed] at off; cases off), total, frame, gone, units, cages⟩
    simp only [Claim.withdrawn, agedLevel, Bool.or_eq_true, decide_eq_true_eq]
    rfl
  | false =>
    have withdraws : withdrawIntent e s = dueTest (x.updClaim e.cage (fun k => { k with state := .none })) := by
      refine congrArg dueTest (if_neg ?_)
      show ¬ (s.claim e.cage).listed = true
      rw [listed]
      nofun
    rw [withdraws] at ends
    obtain ⟨claim, total, frame, gone, units, cages⟩ := withdrawn_with room single (.inl listed) ends
    exact ⟨fun on => by (rw [listed] at on; cases on), fun _ => claim, total, frame, gone, units, cages⟩

/-- The judgement of an own intent in the spec's terms (R57 to R59). -/
def Judged (tag : Tag) (d : OwnIntent) (u t : State) : Prop :=
  (u.confirmSum d ≤ u.conf.budget → d.withdrawAtEnd = false → (u.cage d.cage).state = .admitWait → Confirmed tag d u t) ∧
  (u.conf.budget < u.confirmSum d ∨ d.withdrawAtEnd = true → Withdrawn tag d u t)

theorem judged_ends (room : s.bus.txQueue.length < 8)
    (single : ∀ x ∈ s.claims.intents, x.cage = e.cage → x.tag = e.tag)
    (ends : EndsAs (judgeIntent e s) t) : Judged e.tag e s t := by
  refine ⟨fun fits unmarked state => ?_, fun not => ?_⟩
  · have confirms : judgeIntent e s = confirmIntent e s := if_pos ⟨fits, unmarked⟩
    rw [confirms] at ends
    exact confirmed_ends room single state ends
  · have withdraws : judgeIntent e s = withdrawIntent e s := if_neg (by
      rintro ⟨fits, unmarked⟩
      rcases not with much | marked
      · exact absurd fits (Nat.not_le_of_lt much)
      · rw [unmarked] at marked; cases marked)
    rw [withdraws] at ends
    exact withdrawn_ends room single ends

/-! ### The end of a window (R55) -/

theorem windowDeadline_ends (free : s.startup.resetHeld = false) (entry : s.intentOf tag = some e)
    (runs : e.deadline.isSome = true) : ∃ t, exec (.windowDeadline tag) s = .next t ∧ EndsAs (windowEnds e s) t := by
  have opened : s.openIntent tag = some e := by rw [State.openIntent, entry]; exact Option.filter_some_pos runs
  have effect : (match s.openIntent tag with | some e => windowEnds e s | none => s) = windowEnds e s := by rw [opened]
  have := eventNext_occurs (effect := fun s => match s.openIntent tag with | some e => windowEnds e s | none => s) free
    (show (s.openIntent tag).isSome = true by rw [opened]; rfl)
  rwa [effect] at this

/-! ### The judgement at the application of the last frame noted (R55) -/

/-- Copies of an entry that has been judged are judged no more. -/
theorem judged_copies {l : List OwnIntent} (copies : ∀ x ∈ l, x.tag = tag) (gone : s.intentOf tag = none) :
    l.foldl (fun s e => match s.intentOf e.tag with | some e => judgeIntent e s | none => s) s = s := by
  refine foldl_fixed _ _ _ fun x mem => ?_
  rw [copies x mem, gone]

/-- An entry whose last noted frame is applied (R55). -/
def OwnIntent.ripe (e : OwnIntent) : OwnIntent := { e with noted := some 0 }

/-- The state in which an entry is judged at the application of the last frame it noted (R55). -/
def State.ripened (s : State) (e : OwnIntent) : State :=
  s.updClaims (fun k => { k with intents := k.intents.map (fun x => if x = e then e.ripe else x) })

theorem counted_ripens (last : e.noted = some 1) (alone : ∀ x ∈ s.claims.intents, x.noted ≠ none → x = e) :
    s.claims.intents.map OwnIntent.counted = s.claims.intents.map (fun x => if x = e then e.ripe else x) := by
  refine List.map_congr_left fun x mem => ?_
  by_cases own : x = e
  · rw [if_pos own, own, OwnIntent.counted, last]
    rfl
  · have none_ : x.noted = none := by
      by_contra noted
      exact own (alone x mem noted)
    rw [if_neg own, OwnIntent.counted, none_, Option.map_none, ← none_]

theorem ripened_intentOf (entry : s.intentOf tag = some e) : (s.ripened e).intentOf tag = some e.ripe := by
  have tags : ((fun x : OwnIntent => decide (x.tag = tag)) ∘ fun x => if x = e then e.ripe else x) =
      fun x : OwnIntent => decide (x.tag = tag) := funext fun x => by
    by_cases own : x = e
    · simp only [Function.comp_apply, own, if_true]
      rfl
    · simp only [Function.comp_apply, if_neg own]
  show (s.claims.intents.map _).find? _ = _
  rw [List.find?_map, tags]
  show (s.intentOf tag).map _ = _
  rw [entry, Option.map_some, if_pos rfl]

/-- Every entry that is judgeable then is the one whose last frame has been applied. -/
theorem judgeable_ripened (entry : s.intentOf tag = some e)
    (alone : ∀ x ∈ s.claims.intents, x.noted ≠ none → x = e) :
    ∃ rest, (s.ripened e).judgeable = e.ripe :: rest ∧ ∀ x ∈ rest, x = e.ripe := by
  have all : ∀ x ∈ (s.ripened e).judgeable, x = e.ripe := fun x mem => by
    obtain ⟨mem, due⟩ := List.mem_filter.1 mem
    obtain ⟨y, old, rfl⟩ := List.mem_map.1 mem
    by_cases own : y = e
    · exact if_pos own
    · rw [if_neg own] at due
      refine absurd (alone y old ?_) own
      rw [of_decide_eq_true due]
      nofun
  have mem : e.ripe ∈ (s.ripened e).judgeable :=
    List.mem_filter.2 ⟨List.mem_map.2 ⟨e, intentOf_mem entry, if_pos rfl⟩, rfl⟩
  cases list : (s.ripened e).judgeable with
  | nil => rw [list] at mem; cases mem
  | cons a rest =>
    rw [list] at all
    exact ⟨rest, by rw [all a List.mem_cons_self], fun x mem => all x (List.mem_cons_of_mem _ mem)⟩

theorem judgeIntent_intents (e : OwnIntent) (s : State) :
    (judgeIntent e s).claims.intents = (dropIntent e.tag s).claims.intents := by
  unfold judgeIntent
  split
  · have moves : confirmIntent e s = if (s.cage e.cage).state = .admitWait then
        moveCage e.cage .powerUp .none (confirmedState e s) else confirmedState e s := rfl
    rw [moves]
    split
    next state =>
      have own : (confirmedState e s).cage e.cage = s.cage e.cage := rfl
      rw [moveCage_claimUnit, own, state]
      rfl
    · rfl
  · obtain ⟨g, _, withdraws⟩ := withdrawIntent_eq e s
    rw [withdraws]
    rfl

theorem judgeIntent_gone (e : OwnIntent) (s : State) : (judgeIntent e s).intentOf e.tag = none := by
  rw [State.intentOf, judgeIntent_intents, List.find?_eq_none]
  intro x mem
  exact fun same => of_decide_eq_true (List.mem_filter.1 mem).2 (of_decide_eq_true same)

/-- The application of the last frame that an entry noted is its judgement (R55). -/
theorem judgeDue_ripe (entry : s.intentOf tag = some e) (last : e.noted = some 1)
    (alone : ∀ x ∈ s.claims.intents, x.noted ≠ none → x = e) : judgeDue s = judgeIntent e.ripe (s.ripened e) := by
  have tag_eq : e.tag = tag := intentOf_tag entry
  have ripens : s.updClaims (fun k => { k with intents := k.intents.map OwnIntent.counted }) = s.ripened e :=
    congrArg (fun l => s.updClaims (fun k => { k with intents := l })) (counted_ripens last alone)
  obtain ⟨rest, list, copies⟩ := judgeable_ripened entry alone
  have found : (s.ripened e).intentOf e.ripe.tag = some e.ripe := by
    rw [show e.ripe.tag = tag from tag_eq]
    exact ripened_intentOf entry
  rw [judgeDue, ripens]
  show (s.ripened e).judgeable.foldl _ _ = _
  rw [list, List.foldl_cons, found]
  exact judged_copies (tag := e.ripe.tag) (fun x mem => by rw [copies x mem]) (judgeIntent_gone e.ripe (s.ripened e))

/-- The state that an entry is judged against at an application: a peer view, what is left of the budget receive
queue, and the entries as they count (R55). -/
def State.against (s : State) (peers : Vector PeerEntry 32) (queue : List Frame) (intents : List OwnIntent) : State :=
  { s with
    peers := peers
    bus := { s.bus with budgetQueue := queue }
    claims := { s.claims with intents := intents } }

/-- A due queue-time test is no part of what a judgement leaves. -/
theorem Judged.undue {p : Vector PeerEntry 32} {queue : List Frame} {l : List OwnIntent}
    (h : Judged tag e (dueTest (s.against p queue l)) t) : Judged tag e (s.against p queue l) t := by
  obtain ⟨confirms, withdraws⟩ := h
  refine ⟨fun fits unmarked state => ?_, fun not => ?_⟩
  · obtain ⟨claim, total, frame, gone, state, timers, identity, units, others⟩ := confirms fits unmarked state
    exact ⟨claim, total, frame, gone, state, timers, identity, units, others⟩
  · obtain ⟨listed, unlisted, total, frame, gone, units, cages⟩ := withdraws not
    exact ⟨listed, unlisted, total, frame, gone, units, cages⟩

/-- A row that applies a frame applies the oldest, where that is of its kind (R67). -/
theorem exec_applies {i : Instr} {f : Frame} {rest : List Frame} (free : s.startup.resetHeld = false)
    (queue : s.bus.budgetQueue = f :: rest) (row : appliesFrame i f.body) :
    ∃ t, exec i s = .next t ∧ EndsAs (applyOldest s) t := by
  have oldest : s.oldestBody = some f.body := by rw [State.oldestBody, queue]; rfl
  cases body : f.body <;> rw [body] at row oldest <;> simp only [appliesFrame] at row <;> subst row
  all_goals exact eventNext_occurs free (by rw [oldest])

/-- The application of the last frame that an entry noted: the judgement against the peer view as it then stands. -/
theorem lastApplied_judged {i : Instr} {f : Frame} {rest : List Frame} (free : s.startup.resetHeld = false)
    (entry : s.intentOf tag = some e) (room : s.bus.txQueue.length < 8)
    (single : ∀ x ∈ s.claims.intents, x.cage = e.cage → x = e)
    (queue : s.bus.budgetQueue = f :: rest) (row : appliesFrame i f.body) (last : e.noted = some 1)
    (alone : ∀ x ∈ s.claims.intents, x.noted ≠ none → x = e) :
    ∃ t, exec i s = .next t ∧ Judged tag e.ripe (s.against t.peers rest
      (s.claims.intents.map (fun x => if x = e then e.ripe else x))) t := by
  have tag_eq : e.tag = tag := intentOf_tag entry
  obtain ⟨t, next, ends⟩ := exec_applies free queue row
  let x := dueTest (s.withEntry f.source ((s.peer f.source).take s.conf.unknownAllow f) rest)
  rw [applyOldest_eq queue, judgeDue_ripe (s := x) (tag := tag) entry last alone] at ends
  have peers : t.peers = x.peers := ends.same.peers.trans (judgeIntent_onlyCage e.ripe (x.ripened e)).peers
  have own : ∀ y ∈ (x.ripened e).claims.intents, y.cage = e.ripe.cage → y.tag = e.ripe.tag := fun y mem same => by
    obtain ⟨z, old, rfl⟩ := List.mem_map.1 mem
    by_cases is : z = e
    · rw [if_pos is]
    · rw [if_neg is] at same
      exact absurd (single z old same) is
  have judged := judged_ends (s := x.ripened e) (e := e.ripe) room own ends
  rw [show e.ripe.tag = tag from tag_eq] at judged
  refine ⟨t, next, ?_⟩
  rw [peers]
  exact judged.undue

/-- Settles O43: the confirm sum in the spec's terms, the window's end by the frames that wait, and the judgement
at the application of the last of them. -/
theorem windowJudged : Obligations.WindowJudged := by
  refine ⟨fun s i e at_ distinct => confirmSum_eq at_ distinct, ?_⟩
  intro tag e s free entry room single
  have tag_eq : e.tag = tag := intentOf_tag entry
  refine ⟨fun runs empty => ?_, fun runs waiting => ?_, fun i f rest queue row last alone =>
    lastApplied_judged free entry room single queue row last alone⟩
  · obtain ⟨t, next, ends⟩ := windowDeadline_ends free entry runs
    have judges : windowEnds e s = judgeIntent e s := by rw [windowEnds, empty]; rfl
    rw [judges] at ends
    have judged := judged_ends room (fun x mem same => by rw [single x mem same]) ends
    rw [tag_eq] at judged
    exact ⟨t, next, judged⟩
  · obtain ⟨t, next, ends⟩ := windowDeadline_ends free entry runs
    obtain ⟨f, rest, queue⟩ := List.exists_cons_of_ne_nil waiting
    have waits : windowEnds e s = updIntent e.tag (OwnIntent.waitFor s.bus.budgetQueue.length) s := by
      rw [windowEnds, queue]; rfl
    rw [waits, tag_eq] at ends
    exact ⟨t, next, ends⟩

end Sys2Proof.Machine
end

section
/-! PROOF. The CAGE-REPORT of a cage's move, in the transmit queue until the end of the event (R3, R90, R92). -/

namespace Sys2Proof.Machine

variable {c d : Cage} {n k : Nat} {old new : CageState} {cause : FaultCause} {b : BusUnit} {f : TxFrame} {s t u v w : State}

/-! ### The bus interface takes a report (R90) -/

/-- No report of a cage is under attempt. -/
def BusUnit.reportsWait (b : BusUnit) (c : Cage) : Prop :=
  ∀ f ∈ b.txQueue, f.body.isReportOf c = true → f.mark ≠ .attempting

/-- A report waits at a level. -/
def BusUnit.tells (b : BusUnit) (r : CageReport) (level : Nat) : Prop :=
  ∃ f ∈ b.txQueue, f.mark = .waiting ∧ f.level = level ∧ f.body = .cageReport r

theorem holds_iff {q : List TxFrame} {mark : TxMark} {test : FrameBody → Bool} :
    holds q mark test = true ↔ ∃ f ∈ q, f.mark = mark ∧ test f.body = true := by
  simp [holds]

theorem report_length (b : BusUnit) (r : CageReport) (level : Nat) :
    (b.report r level).txQueue.length ≤ b.txQueue.length + 1 := by
  unfold BusUnit.report
  repeat' split
  · rw [List.length_map]; exact Nat.le_succ _
  · rw [List.length_map]; exact Nat.le_succ _
  · rw [List.length_append]; rfl
  · exact Nat.le_succ _

/-- Where the queue has room and none of the cage is under attempt, the report waits in it (R90). -/
theorem report_tells {r : CageReport} (room : b.txQueue.length < 8) (waits : b.reportsWait r.cage) (level : Nat) :
    (b.report r level).tells r level := by
  unfold BusUnit.report
  split
  next held =>
    obtain ⟨f, mem, mark, own⟩ := holds_iff.1 held
    exact ⟨_, List.mem_map_of_mem mem, by rw [replaceReport, if_pos ⟨mark, own⟩]; exact ⟨mark, rfl, rfl⟩⟩
  · split
    next held =>
      obtain ⟨f, mem, mark, own⟩ := holds_iff.1 held
      exact absurd mark (waits f mem own)
    · exact ⟨_, List.mem_append_right _ (List.mem_singleton.2 rfl), rfl, rfl, rfl⟩

/-- A report that replaces the waiting one of its cage takes no room (R90). -/
theorem report_replaces {r x : CageReport} {level : Nat} (tells : b.tells x level) (same : x.cage = r.cage) (l : Nat) :
    (b.report r l).tells r l ∧ (b.report r l).txQueue.length = b.txQueue.length := by
  obtain ⟨f, mem, mark, _, body⟩ := tells
  have own : f.body.isReportOf r.cage = true := by rw [body]; exact decide_eq_true same
  have held : holds b.txQueue .waiting (FrameBody.isReportOf r.cage) = true := holds_iff.2 ⟨f, mem, mark, own⟩
  rw [BusUnit.report, if_pos held]
  refine ⟨⟨_, List.mem_map_of_mem mem, ?_⟩, List.length_map _⟩
  rw [replaceReport, if_pos ⟨mark, own⟩]
  exact ⟨mark, rfl, rfl⟩

/-- A frame placed in a queue with room leaves the reports in it (R92). -/
theorem BusUnit.tells.place {r : CageReport} {level : Nat} (h : b.tells r level) (room : b.txQueue.length < 8)
    (f : TxFrame) : (b.place f).tells r level := by
  obtain ⟨x, mem, waits⟩ := h
  rw [BusUnit.place, if_pos room]
  exact ⟨x, List.mem_append_left _ mem, waits⟩

/-! ### The hand-off of a claim brings no report (R5) -/

theorem releaseUp_reports {amount : Nat} (mem : f ∈ (b.releaseUp amount).txQueue) (own : f.body.isReportOf c = true) :
    f ∈ b.txQueue := by
  unfold BusUnit.releaseUp at mem
  split at mem
  · obtain ⟨x, old, rfl⟩ := List.mem_map.1 mem
    by_cases release : x.mark = .waiting ∧ x.body.isRelease = true
    · rw [setRelease, if_pos release] at own
      cases own
    · rwa [setRelease, if_neg release]
  · split at mem
    · exact mem
    · rcases mem_of_mem_place mem with old | rfl
      · exact old
      · cases own

theorem abandonIntent_frames {e : OwnIntent} (mem : f ∈ (abandonIntent e s).bus.txQueue) : f ∈ s.bus.txQueue := by
  unfold abandonIntent at mem
  split at mem
  · exact mem
  · exact (List.mem_filter.1 mem).1

theorem disposeClaim_reports (mem : f ∈ (disposeClaim d s).bus.txQueue) (own : f.body.isReportOf c = true) :
    f ∈ s.bus.txQueue := by
  unfold disposeClaim at mem
  repeat' split at mem
  · exact mem
  · exact releaseUp_reports mem own
  · exact abandonIntent_frames mem
  · exact mem
  · exact abandonIntent_frames mem
  · exact mem

theorem claimHandOff_reports (mem : f ∈ (claimHandOff d old new s).bus.txQueue) (own : f.body.isReportOf c = true) :
    f ∈ s.bus.txQueue := by
  unfold claimHandOff at mem
  repeat' split at mem
  · exact mem
  · exact mem
  · exact disposeClaim_reports (s := leaveList d s) mem own
  · exact releaseUp_reports mem own
  · exact mem
  · exact disposeClaim_reports mem own
  · exact disposeClaim_reports mem own
  · exact mem
  · exact mem
  · exact mem

/-! ### A cage's move hands its report over (R3) -/

/-- The report of a cage in its present state waits at its effective level. -/
def State.told (s : State) (c : Cage) : Prop := s.bus.tells (s.reportOf c) (s.claim c).level

theorem State.told.congr (h : s.told c) (bus : t.bus = s.bus) (report : t.reportOf c = s.reportOf c)
    (level : (t.claim c).level = (s.claim c).level) : t.told c := by
  rw [State.told, bus, report, level]; exact h

/-- A queue of a length at most, with no report of a cage under attempt. -/
structure BusUnit.fits (b : BusUnit) (n : Nat) (c : Cage) : Prop where
  length : b.txQueue.length ≤ n
  waits  : b.reportsWait c

theorem moveCage_length (c : Cage) (new : CageState) (cause : FaultCause) (s : State) :
    (moveCage c new cause s).bus.txQueue.length ≤ s.bus.txQueue.length + 2 := by
  have handed := claimHandOff_length c (s.cage c).state new s
  rw [moveCage_bus]
  split
  · exact handed.trans (Nat.le_succ _)
  · exact (report_length _ _ _).trans (Nat.succ_le_succ handed)

theorem moveCage_told (fits : s.bus.fits n c) (few : n ≤ 6) (moves : new ≠ (s.cage c).state) :
    (moveCage c new cause s).told c := by
  have handed := claimHandOff_length c (s.cage c).state new s
  rw [State.told, moveCage_bus, if_neg moves]
  refine report_tells (by have := fits.length; omega) (fun f mem own => ?_) _
  exact fits.waits f (claimHandOff_reports mem own) own

/-- What is known of the transmit queue where a cage was in a state: it is in it yet, or its report waits, and so
many frames at most with it. -/
def State.reports (s : State) (n : Nat) (c : Cage) (old : CageState) : Prop :=
  (s.cage c).state = old ∨ (s.told c ∧ s.bus.txQueue.length ≤ n)

theorem State.reports.congr (h : s.reports n c old) (bus : t.bus = s.bus) (report : t.reportOf c = s.reportOf c)
    (level : (t.claim c).level = (s.claim c).level) : t.reports n c old := by
  have state : (t.cage c).state = (s.cage c).state := congrArg CageReport.state report
  rcases h with same | ⟨told, few⟩
  · exact .inl (state.trans same)
  · exact .inr ⟨told.congr bus report level, by rwa [bus]⟩

theorem moveCage_reports (fits : s.bus.fits n c) (few : n ≤ 6) :
    (moveCage c new cause s).reports (n + 2) c (s.cage c).state := by
  by_cases moves : new = (s.cage c).state
  · exact .inl ((moveCage_state c new cause s).trans moves)
  · exact .inr ⟨moveCage_told fits few moves,
      (moveCage_length c new cause s).trans (Nat.add_le_add_right fits.length 2)⟩

/-! ### The queue-time test at the end of the event (R51) -/

theorem reportOf_congr (record : (t.cage c).state = (s.cage c).state ∧ (t.cage c).cause = (s.cage c).cause)
    (value : (t.penalty c).value = (s.penalty c).value) : t.reportOf c = s.reportOf c := by
  rw [State.reportOf, State.reportOf, record.1, record.2, value]

theorem queueIntent_told (told : s.told c) (room : s.bus.txQueue.length < 8) : (queueIntent d s).told c := by
  have report : (queueIntent d s).reportOf c = s.reportOf c := rfl
  have level : ((queueIntent d s).claim c).level = (s.claim c).level := by
    by_cases same : c = d
    · subst same
      rw [(queueIntent_units c s).2.1]
    · exact congrArg Claim.level (claim_setClaim_other same _ _)
  have tells := BusUnit.tells.place told room (newFrame (s.claim d).level
    (.intent d (s.claims.lastTag + 1) (s.claim d).draw))
  rw [State.told, report, level]
  exact tells

/-- The test queues no more INTENTs than tags can be open, and with room for them a report stays (R51). -/
theorem Tested.told (h : Tested v w) (told : v.told c) (room : v.bus.txQueue.length + (2 - v.openTags.length) ≤ 8) :
    w.told c := by
  induction h with
  | stops => exact told
  | queues d s t _ passes _ ih =>
    obtain ⟨_, _, _, free, _⟩ := (testPasses_iff s d).1 passes
    have tags := openTags_queueIntent d s
    have length : (queueIntent d s).bus.txQueue.length ≤ s.bus.txQueue.length + 1 := place_length _ _
    have open_ := (openTags_lt_iff s).2 free
    exact ih (queueIntent_told told (by omega)) (by omega)

theorem Tested.reportOf (h : Tested v w) : w.reportOf c = v.reportOf c := by
  induction h with
  | stops => rfl
  | queues d s t _ _ _ ih => exact ih

/-- A report that waits among six frames at most waits at the end of the event. -/
theorem EndsAs.told (h : EndsAs u t) (told : u.told c) (few : u.bus.txQueue.length ≤ 6) : t.told c := by
  have report : t.reportOf c = u.reportOf c := reportOf_congr (by rw [h.same.cages c]; exact ⟨rfl, rfl⟩)
    (by rw [h.penalty])
  cases due : u.claims.testDue with
  | false =>
    obtain ⟨claims, bus⟩ := h.untested due
    exact told.congr bus report (by rw [claim_congr claims])
  | true =>
    obtain ⟨v, w, same, claims, bus, run, claims', bus'⟩ := h.tested due
    have same : v.reportOf c = u.reportOf c :=
      reportOf_congr (by rw [same.cages c]; exact ⟨rfl, rfl⟩) (by rw [State.penalty, State.penalty, same.penalties])
    have before : v.told c := told.congr bus same (by rw [State.claim, claims]; rfl)
    have after := run.told before (by rw [bus]; omega)
    exact after.congr bus' (report.trans (same.symm.trans run.reportOf.symm)) (by rw [claim_congr claims'])

/-- What is to be shown of an event that may move a cage. -/
theorem reports_ends (h : u.reports 6 c (s.cage c).state) (ends : EndsAs u t)
    (moved : (t.cage c).state ≠ (s.cage c).state) : t.told c := by
  have state : (t.cage c).state = (u.cage c).state := by rw [ends.same.cages c]
  rcases h with same | ⟨told, few⟩
  · exact absurd (state.trans same) moved
  · exact ends.told told few

end Sys2Proof.Machine
end

section
/-! PROOF. The CAGE-REPORT of a cage's move at each of the sequencer's events (R3, R90). -/

namespace Sys2Proof.Machine

variable {c : Cage} {n : Nat} {cause : FaultCause} {s t u : State}

/-! ### The entry actions -/

/-- A change of the record that leaves state and cause leaves what is known of the report. -/
theorem reports_updCage {old : CageState} {f : CageRecord → CageRecord} (h : s.reports n c old)
    (kept : ∀ k : CageRecord, (f k).state = k.state ∧ (f k).cause = k.cause) : (s.updCage c f).reports n c old :=
  h.congr rfl (reportOf_congr (by rw [cage_updCage]; exact kept _) rfl) rfl

theorem enterIdentify_reports (fits : s.bus.fits n c) (few : n ≤ 6) :
    (enterIdentify c s).reports (n + 2) c (s.cage c).state :=
  reports_updCage (moveCage_reports fits few) fun _ => ⟨rfl, rfl⟩

theorem enterFaulted_reports (fits : s.bus.fits n c) (few : n ≤ 6) :
    (enterFaulted c cause s).reports (n + 2) c (s.cage c).state :=
  moveCage_reports (s := handRecord c .fault (s.cage c).state (some cause) s) fits few

theorem wantTx_reports {old : CageState} {value : Byte} (h : s.reports n c old) : (wantTx c value s).reports n c old :=
  reports_updCage (reports_updCage h fun _ => ⟨rfl, rfl⟩) fun _ => ⟨rfl, rfl⟩

theorem enterHoldDown_reports (fits : s.bus.fits n c) (few : n ≤ 6) :
    (enterHoldDown c s).reports (n + 2) c (s.cage c).state :=
  wantTx_reports (moveCage_reports fits few)

theorem startSettling_reports {old : CageState} (h : s.reports n c old) : (startSettling c s).reports n c old := by
  have units := clearWindows_frame c (wantTx c 0 s)
  obtain ⟨_, _, _, cages, claims, _, bus, penalties, _⟩ := units
  have cleared : (clearWindows c (wantTx c 0 s)).reports n c old := (wantTx_reports h).congr bus
    (reportOf_congr (by rw [cage_congr cages]; exact ⟨rfl, rfl⟩) (by rw [State.penalty, State.penalty, penalties]))
    (by rw [claim_congr claims])
  exact reports_updCage cleared fun _ => ⟨rfl, rfl⟩

theorem enterRelight_reports (fits : s.bus.fits n c) (few : n ≤ 6) :
    (enterRelight c s).reports (n + 2) c (s.cage c).state :=
  reports_updCage (startSettling_reports (moveCage_reports fits few)) fun _ => ⟨rfl, rfl⟩

/-- A cage in TRAIN with its LINK_UP asserted moves on at the same event: its second report takes the place of the
first (R23, R90). -/
theorem verify_reports {old : CageState} (train : (s.cage c).state = .train) (told : s.told c)
    (few : s.bus.txQueue.length ≤ n) : (moveCage c .verify .none s).reports n c old := by
  have bus : (moveCage c .verify .none s).bus = s.bus.report ((moveCage c .verify .none s).reportOf c)
      ((moveCage c .verify .none s).claim c).level := by
    rw [moveCage_bus, train]
    rfl
  obtain ⟨tells, length⟩ := report_replaces (b := s.bus) (r := (moveCage c .verify .none s).reportOf c) told rfl
    ((moveCage c .verify .none s).claim c).level
  refine .inr ⟨?_, ?_⟩
  · rw [State.told, bus]; exact tells
  · rw [bus, length]; exact few

theorem inTrain_units (c : Cage) (restart : Bool) (s : State) :
    (inTrainOf c restart s).bus = (moveCage c .train .none s).bus ∧
    (inTrainOf c restart s).claims = (moveCage c .train .none s).claims ∧
    ((inTrainOf c restart s).cage c).state = .train ∧
    (inTrainOf c restart s).reportOf c = (moveCage c .train .none s).reportOf c := by
  cases restart with
  | true =>
    have record : ∀ u : State, ∀ value : Byte, ((ask c .laneRestart value u).cage c).state = (u.cage c).state ∧
        ((ask c .laneRestart value u).cage c).cause = (u.cage c).cause := fun u value => by
      rw [ask, cage_updCage]; exact ⟨rfl, rfl⟩
    exact ⟨rfl, rfl, (record _ _).1.trans (moveCage_state ..), reportOf_congr (record _ _) rfl⟩
  | false => exact ⟨rfl, rfl, moveCage_state .., rfl⟩

theorem enterTrain_reports (restart : Bool) (fits : s.bus.fits n c) (few : n ≤ 6) :
    (enterTrain c restart s).reports (n + 2) c (s.cage c).state := by
  obtain ⟨bus, claims, train, report⟩ := inTrain_units c restart s
  have level : ((inTrainOf c restart s).claim c).level = ((moveCage c .train .none s).claim c).level := by
    rw [claim_congr claims]
  rw [enterTrain_eq]
  split
  · by_cases moves : .train = (s.cage c).state
    · have still : (inTrainOf c restart s).bus = s.bus := by
        rw [bus, moveCage_bus, if_pos moves, ← moves]
        rfl
      have moved := moveCage_reports (c := c) (new := .verify) (cause := .none) (still ▸ fits) few
      rwa [train, moves] at moved
    · exact verify_reports train ((moveCage_told fits few moves).congr bus report level)
        (by rw [bus]; exact (moveCage_length c .train .none s).trans (Nat.add_le_add_right fits.length 2))
  · exact (moveCage_reports fits few).congr bus report level

theorem zeroRetries_state (c : Cage) (s : State) : ((zeroRetries c s).cage c).state = (s.cage c).state := by
  rw [zeroRetries, cage_updCage]

theorem enterTrainAfresh_reports (fits : s.bus.fits n c) (few : n ≤ 6) :
    (enterTrainAfresh c s).reports (n + 2) c (s.cage c).state := by
  rw [← zeroRetries_state]
  exact enterTrain_reports false (s := zeroRetries c s) fits few

theorem trainingRetry_reports (timeout : Bool) (fits : s.bus.fits n c) (few : n ≤ 6) :
    (trainingRetry c timeout s).reports (n + 2) c (s.cage c).state := by
  let u := s.updCage c (fun k => { k with trainRetries := (s.cage c).trainRetries + 1 })
  have state : (u.cage c).state = (s.cage c).state := by rw [cage_updCage]
  rw [← state]
  unfold trainingRetry
  dsimp only
  split
  · exact enterFaulted_reports (s := u) fits few
  · exact enterTrain_reports timeout (s := u) fits few

theorem takeFlap_reports (fits : s.bus.fits n c) (few : n ≤ 6) :
    (takeFlap c s).reports (n + 2) c (s.cage c).state := by
  rcases Nat.lt_or_ge ((flapped c s).penalty c).value s.conf.suppress with low | high
  · rw [takeFlap_unsuppressed low]
    exact enterTrainAfresh_reports (s := flapped c s) fits few
  · rw [takeFlap_suppressed high]
    exact enterHoldDown_reports (s := handRecord c .holdDown .inService none (flapped c s)) fits few

/-! ### Line changes -/

theorem presentAsserted_reports (fits : s.bus.fits n c) (few : n ≤ 6) :
    (presentAsserted c s).reports (n + 2) c (s.cage c).state := by
  unfold presentAsserted
  split
  · exact moveCage_reports fits few
  · exact .inl rfl

theorem removeModule_reports (fits : s.bus.fits n c) (few : n ≤ 6) :
    (removeModule c s).reports (n + 2) c (s.cage c).state := by
  let adopted := if (s.cage c).state = .adopt then handRecord c .adopted .adopt none s else s
  let u := handSerial c (handRecord c .removed (s.cage c).state none adopted)
  have whole : removeModule c s = (moveCage c .vacant .none u).updCage c CageRecord.cleared := rfl
  have units : u.bus = s.bus ∧ u.cages = s.cages := by
    have first : adopted.bus = s.bus ∧ adopted.cages = s.cages := by
      by_cases adopt : (s.cage c).state = .adopt
      · rw [show adopted = _ from if_pos adopt]
        exact ⟨rfl, rfl⟩
      · rw [show adopted = _ from if_neg adopt]
        exact ⟨rfl, rfl⟩
    exact ⟨(handSerial_frame c _).2.2.2.2.2.2.1.trans first.1, (handSerial_frame c _).2.2.2.1.trans first.2⟩
  have state : (u.cage c).state = (s.cage c).state := by rw [cage_congr units.2]
  rw [whole, ← state]
  exact reports_updCage (moveCage_reports (units.1 ▸ fits) few) fun _ => ⟨rfl, rfl⟩

theorem removeHeld_state (c : Cage) (s : State) : ((removeHeld c s).cage c).state = (s.cage c).state := by
  have cages : (removeHeld c s).cages = (s.updCage c (fun k => { k with identity := none, trainRetries := 0 })).cages := by
    rw [removeHeld_eq]
    rfl
  rw [cage_congr cages, cage_updCage]

theorem presentDeasserted_reports (fits : s.bus.fits n c) (few : n ≤ 6) :
    (presentDeasserted c s).reports (n + 2) c (s.cage c).state := by
  unfold presentDeasserted
  split
  · exact .inl rfl
  · exact .inl rfl
  · exact reports_updCage (moveCage_reports fits few) fun _ => ⟨rfl, rfl⟩
  · exact .inl (removeHeld_state c s)
  · exact removeModule_reports fits few

theorem linkAsserted_reports (fits : s.bus.fits n c) (few : n ≤ 6) :
    (linkAsserted c s).reports (n + 2) c (s.cage c).state := by
  unfold linkAsserted
  split
  · exact moveCage_reports fits few
  · exact enterTrainAfresh_reports fits few
  · exact .inl rfl

theorem linkDeasserted_reports (fits : s.bus.fits n c) (few : n ≤ 6) :
    (linkDeasserted c s).reports (n + 2) c (s.cage c).state := by
  unfold linkDeasserted
  split
  · exact trainingRetry_reports false fits few
  · exact takeFlap_reports fits few
  · exact .inl rfl

theorem takeLink_reports (fits : s.bus.fits n c) (few : n ≤ 6) :
    (takeLink c s).reports (n + 2) c (s.cage c).state := by
  unfold takeLink
  dsimp only
  split
  · exact linkAsserted_reports (s := s.updLines c CageLines.linkTaken) fits few
  · exact linkDeasserted_reports (s := s.updLines c CageLines.linkTaken) fits few

/-! ### Timers and conversions -/

theorem trainEnds_reports (fits : s.bus.fits n c) (few : n ≤ 6) :
    (trainEnds c s).reports (n + 2) c (s.cage c).state := by
  unfold trainEnds
  split
  · exact moveCage_reports fits few
  · exact trainingRetry_reports true fits few

theorem takeSettledVerdict_reports (verdict : Bool) (fits : s.bus.fits n c) (few : n ≤ 6) :
    (takeSettledVerdict c verdict s).reports (n + 2) c (s.cage c).state := by
  let u := s.updCage c (fun k => { k with drawSettled := verdict })
  have state : (u.cage c).state = (s.cage c).state := by rw [cage_updCage]
  unfold takeSettledVerdict settlePair
  dsimp only
  split
  · split
    · rw [← state]
      exact enterTrainAfresh_reports (s := u) fits few
    · exact .inl state
  · exact .inl rfl

theorem takeConversion_reports {code : BitVec 10} (channel : s.scan.channel = c) (fits : s.bus.fits n c) (few : n ≤ 6) :
    (takeConversion code s).reports (n + 2) c (s.cage c).state := by
  let u := convertChannel c code s
  have bus : u.bus = s.bus := (convertChannel_frame c code s).2.2.2.2.2.2.1
  have state : (u.cage c).state = (s.cage c).state := by rw [cage_congr (convertChannel_frame c code s).2.2.2.1]
  rw [takeConversion_eq, channel, ← state]
  cases drawn : u.overdrawn c with
  | true =>
    rw [takeVerdicts_overdrawn drawn]
    exact enterFaulted_reports (bus ▸ fits) few
  | false =>
    rw [takeVerdicts_settles drawn]
    exact takeSettledVerdict_reports _ (bus ▸ fits) few

end Sys2Proof.Machine
end

section
/-! PROOF. O32: a change of state hands its CAGE-REPORT over (R3, R90, R92, R93). -/

namespace Sys2Proof.Machine

variable {c d : Cage} {moment : RemovalMoment} {n : Nat} {old : CageState} {e : OwnIntent} {r : Request} {s t u v : State}

/-! ### Removals and requests -/

theorem place_reports {f : TxFrame} (h : u.reports n c old) (room : n < 8) (bus : v.bus = u.bus.place f)
    (report : v.reportOf c = u.reportOf c) (claims : v.claims = u.claims) : v.reports (n + 1) c old := by
  have state : (v.cage c).state = (u.cage c).state := congrArg CageReport.state report
  rcases h with same | ⟨told, few⟩
  · exact .inl (state.trans same)
  · refine .inr ⟨?_, ?_⟩
    · rw [State.told, bus, report, claim_congr claims]
      exact BusUnit.tells.place told (by omega) f
    · rw [bus]
      exact (place_length _ _).trans (Nat.succ_le_succ few)

theorem answer_reports {result : Result} {data : List Byte} (h : u.reports n c old) (room : n < 8) :
    (answer r result data u).reports (n + 1) c old :=
  place_reports h room rfl rfl rfl

theorem place_fits {b : BusUnit} {f : TxFrame} (fits : b.fits n c) (plain : f.body.isReportOf c = false) :
    (b.place f).fits (n + 1) c := by
  refine ⟨(place_length _ _).trans (Nat.succ_le_succ fits.length), fun x mem own => ?_⟩
  rcases mem_of_mem_place mem with mem | rfl
  · exact fits.waits x mem own
  · rw [plain] at own; cases own

/-- The arbiter's part of a removal leaves the cages, and hands over a REPLY at most. -/
theorem atRemoval_fits (fits : s.bus.fits n c) : (s.atRemoval c moment).bus.fits (n + 1) c ∧
    (s.atRemoval c moment).cages = s.cages := by
  have rest := (cutOff_links c moment s).1
  have bus : (s.cutOff c moment).bus = s.bus := by rw [rest]
  have cages : (s.cutOff c moment).cages = s.cages := by rw [rest]
  have answers : ∀ e ∈ (s.link (segOf c)).answersOf c moment, e.outcome = .absent ∧ e.request.cage = c :=
    fun e mem => answersOf_absent mem
  rw [State.atRemoval, linkRemoval_answers]
  by_cases carried : (s.cutOff c moment).carriesRequest ∧
      ∃ e ∈ (s.link (segOf c)).answersOf c moment, e.request.origin = .passThrough
  · obtain ⟨⟨phase, q, request⟩, pass⟩ := carried
    obtain ⟨handed, _, placed⟩ := deliverAll_carried answers pass phase request
    refine ⟨?_, by rw [handed.rest]; exact cages⟩
    rw [placed, bus]
    exact place_fits fits rfl
  · have plain : ¬ (s.cutOff c moment).carriesRequest ∨
        ∀ e ∈ (s.link (segOf c)).answersOf c moment, e.request.origin ≠ .passThrough :=
      (not_and_or.1 carried).imp_right fun no e mem pass => no ⟨e, mem, pass⟩
    obtain ⟨handed, _, same⟩ := deliverAll_plain answers plain
    refine ⟨?_, by rw [handed.rest]; exact cages⟩
    rw [same, bus]
    exact ⟨fits.length.trans (Nat.le_succ _), fits.waits⟩

theorem takePresent_reports (fits : s.bus.fits n c) (few : n ≤ 5) :
    (takePresent c moment s).reports (n + 3) c (s.cage c).state := by
  have more : s.bus.fits (n + 1) c := ⟨fits.length.trans (Nat.le_succ _), fits.waits⟩
  let u := s.updLines c CageLines.presentTaken
  have whole : takePresent c moment s =
      if (u.line c).present then presentAsserted c u else presentDeasserted c (u.atRemoval c moment) := rfl
  rw [whole]
  split
  · exact presentAsserted_reports (s := u) more (by omega)
  · obtain ⟨left, cages⟩ := atRemoval_fits (s := u) (moment := moment) fits
    have state : ((u.atRemoval c moment).cage c).state = (s.cage c).state := by rw [cage_congr cages]; rfl
    rw [← state]
    exact presentDeasserted_reports left (by omega)

theorem holdCage_reports (fits : s.bus.fits n c) (few : n ≤ 6) :
    (holdCage c s).2.reports (n + 2) c (s.cage c).state := by
  unfold holdCage
  split
  · exact .inl rfl
  · exact .inl rfl
  · exact .inl rfl
  · exact moveCage_reports (s := handRecord c .manual (s.cage c).state none s) fits few

theorem unholdCage_reports (fits : s.bus.fits n c) (few : n ≤ 6) :
    (unholdCage c s).2.reports (n + 2) c (s.cage c).state := by
  let u := zeroRetries c (handRecord c .manual .manualHold none s)
  have state : (u.cage c).state = (s.cage c).state := zeroRetries_state c _
  unfold unholdCage
  rw [← state]
  split
  · dsimp only
    split
    · exact enterIdentify_reports (s := u) fits few
    · exact reports_updCage (moveCage_reports (s := u) fits few) fun _ => ⟨rfl, rfl⟩
  · exact .inl state.symm

theorem retryCage_reports (fits : s.bus.fits n c) (few : n ≤ 6) :
    (retryCage c s).2.reports (n + 2) c (s.cage c).state := by
  let u := zeroRetries c (handRecord c .manual .faulted none s)
  have state : (u.cage c).state = (s.cage c).state := zeroRetries_state c _
  unfold retryCage
  rw [← state]
  split
  · exact enterIdentify_reports (s := u) fits few
  · exact .inl state.symm

theorem clearPenaltyOf_reports (fits : s.bus.fits n c) (few : n ≤ 6) :
    (clearPenaltyOf c s).reports (n + 2) c (s.cage c).state := by
  unfold clearPenaltyOf
  dsimp only
  split
  · exact enterRelight_reports (s := zeroPenalty c s) fits few
  · exact .inl rfl

/-- An event about another cage leaves a cage in its state. -/
theorem other_reports (only : OnlyCage d s u) (other : c ≠ d) : u.reports n c (s.cage c).state :=
  .inl (by rw [only.cages c other])

/-- A request served against a cage, whatever the cage it names. -/
theorem answerCage_reports {outcome : Result × State} (only : OnlyCage d s outcome.2) (few : n ≤ 5)
    (own : d = c → outcome.2.reports (n + 2) c (s.cage c).state) :
    (answerCage r d outcome).reports (n + 3) c (s.cage c).state := by
  by_cases same : d = c
  · exact answer_reports (own same) (by omega)
  · exact .inl (congrArg CageRecord.state (only.cages c (Ne.symm same)).symm).symm

theorem presentPassThrough_state (r : Request) (l : LinkRequest) (s : State) (c : Cage) :
    (presentPassThrough r l s).cage c = s.cage c := by
  unfold presentPassThrough
  split <;> rfl

theorem serveHealth_state (r : Request) (s : State) (c : Cage) : (serveHealth r s).cage c = s.cage c := by
  unfold serveHealth
  dsimp only
  split <;> rfl

theorem serveWrite_state (r : Request) (s : State) (c : Cage) : (serveWrite r s).cage c = s.cage c := by
  unfold serveWrite
  dsimp only
  split
  · split <;> rfl
  · exact presentPassThrough_state _ _ _ _

theorem carryOut_reports (fits : s.bus.fits n c) (few : n ≤ 5) :
    (carryOut r s).reports (n + 3) c (s.cage c).state := by
  have room : n ≤ 6 := by omega
  unfold carryOut
  split
  · exact .inl rfl
  · exact .inl rfl
  · exact .inl rfl
  · exact .inl (congrArg CageRecord.state (serveHealth_state r s c))
  · exact answerCage_reports (holdCage_onlyCage _ s) few fun same => same ▸ holdCage_reports (same ▸ fits) room
  · exact answerCage_reports (unholdCage_onlyCage _ s) few fun same => same ▸ unholdCage_reports (same ▸ fits) room
  · exact answerCage_reports (retryCage_onlyCage _ s) few fun same => same ▸ retryCage_reports (same ▸ fits) room
  · exact answerCage_reports (clearPenaltyOf_onlyCage _ s) few fun same => same ▸ clearPenaltyOf_reports (same ▸ fits) room
  · exact .inl rfl
  · exact .inl (congrArg CageRecord.state (presentPassThrough_state ..))
  · exact .inl (congrArg CageRecord.state (serveWrite_state r s c))
  · exact .inl rfl

theorem serveRequest_reports (fits : s.bus.fits n c) (few : n ≤ 5) :
    (serveRequest r s).reports (n + 3) c (s.cage c).state := by
  unfold serveRequest
  split
  · exact .inl rfl
  · exact carryOut_reports fits few

theorem serveNext_reports (fits : s.bus.fits n c) (few : n ≤ 5) : (serveNext s).reports (n + 3) c (s.cage c).state := by
  unfold serveNext
  split
  next r rest _ => exact serveRequest_reports (s := s.updBus (fun b => { b with serviceQueue := rest })) ⟨fits.length, fits.waits⟩ few
  · exact .inl rfl

theorem acceptRequest_reports (fits : s.bus.fits n c) (few : n ≤ 5) :
    (acceptRequest r s).reports (n + 3) c (s.cage c).state := by
  unfold acceptRequest
  split
  · dsimp only
    split
    · exact serveNext_reports (s := s.updBus (fun b => { b with serviceQueue := b.serviceQueue ++ [r] }))
        ⟨fits.length, fits.waits⟩ few
    · exact .inl rfl
  · exact .inl rfl

/-! ### The judgement of an own intent -/

theorem confirmIntent_reports (fits : s.bus.fits n e.cage) (few : n ≤ 5) :
    (confirmIntent e s).reports (n + 3) e.cage (s.cage e.cage).state := by
  have confirms : confirmIntent e s = if (s.cage e.cage).state = .admitWait then
      moveCage e.cage .powerUp .none (confirmedState e s) else confirmedState e s := rfl
  rw [confirms]
  split
  · exact moveCage_reports (s := confirmedState e s) (place_fits fits rfl) (by omega)
  · exact .inl rfl

theorem windowEnds_reports (fits : s.bus.fits n c) (few : n ≤ 5) :
    (windowEnds e s).reports (n + 3) c (s.cage c).state := by
  unfold windowEnds
  split
  · by_cases own : e.cage = c
    · subst own
      unfold judgeIntent
      split
      · exact confirmIntent_reports fits few
      · obtain ⟨g, _, withdraws⟩ := withdrawIntent_eq e s
        rw [withdraws]
        exact .inl rfl
    · exact other_reports (judgeIntent_onlyCage e s) (Ne.symm own)
  · exact .inl rfl

/-! ### The rows that may move a cage -/

theorem eventNext_tells {occurs : Bool} {effect : State → State}
    (h : occurs = true → (effect s).reports 6 c (s.cage c).state) :
    ∃ t, eventNext occurs effect s = .next t ∧ ((t.cage c).state ≠ (s.cage c).state → t.told c) := by
  by_cases happens : s.startup.resetHeld = false ∧ occurs = true
  · obtain ⟨free, now⟩ := happens
    obtain ⟨t, next, ends⟩ := eventNext_occurs (effect := effect) free now
    exact ⟨t, next, reports_ends (h now) ends⟩
  · exact ⟨s, congrArg Host.Outcome.next (if_neg happens), fun moved => absurd rfl moved⟩

theorem conversion_reports {code : BitVec 10} (fits : s.bus.fits n c) (few : n ≤ 6) :
    (takeConversion code s).reports (n + 2) c (s.cage c).state := by
  by_cases own : s.scan.channel = c
  · exact takeConversion_reports own fits few
  · let u := convertChannel s.scan.channel code s
    have kept := (takeVerdicts_leaves s.scan.channel u).1.cages c (Ne.symm own)
    have cages : u.cages = s.cages := (convertChannel_frame s.scan.channel code s).2.2.2.1
    rw [takeConversion_eq]
    exact .inl (by rw [kept, cage_congr cages])

/-- Whatever line, timer, conversion or request moves a cage, its report waits at the end of the event. -/
theorem moved_told {i : Instr} {code : BitVec 10} {tag : Tag}
    (row : i ∈ [Instr.presentHoldExpiry c moment, .linkUpHoldExpiry c, .debounceTimerExpiry c,
      .readyTimerExpiry c, .settleTimerExpiry c, .trainTimerExpiry c, .verifyTimerExpiry c,
      .currentSenseConversion code, .windowDeadline tag, .hold c, .unhold c, .retry c, .clearPenalty c])
    (fits : s.bus.fits 3 c) :
    ∃ t, exec i s = .next t ∧ ((t.cage c).state ≠ (s.cage c).state → t.told c) := by
  have more : s.bus.fits 4 c := ⟨fits.length.trans (Nat.le_succ _), fits.waits⟩
  have four : (4 : Nat) ≤ 6 := by decide
  have three : (3 : Nat) ≤ 5 := by decide
  simp only [List.mem_cons, List.not_mem_nil, or_false] at row
  rcases row with rfl | rfl | rfl | rfl | rfl | rfl | rfl | rfl | rfl | rfl | rfl | rfl | rfl
  · exact eventNext_tells fun _ => takePresent_reports fits three
  · exact eventNext_tells fun _ => takeLink_reports more four
  · exact eventNext_tells (effect := debounceEnds c) fun _ =>
      enterIdentify_reports (s := handRecord c .inserted .debounce none s) more four
  · exact eventNext_tells fun _ => enterFaulted_reports more four
  · exact eventNext_tells fun _ => enterFaulted_reports more four
  · exact eventNext_tells fun _ => trainEnds_reports more four
  · exact eventNext_tells (effect := verifyEnds c) fun _ =>
      moveCage_reports (s := handRecord c .inService .verify none s) more four
  · exact eventNext_tells fun _ => conversion_reports more four
  · refine eventNext_tells fun _ => ?_
    split
    · exact windowEnds_reports fits three
    · exact .inl rfl
  all_goals exact eventNext_tells fun _ => acceptRequest_reports fits three

end Sys2Proof.Machine
end

section
/-! PROOF. O32: the report of a cage's move as the bus interface takes it, and the waiting report that makes room
(R3, R90, R92, R93). -/

namespace Sys2Proof.Machine

variable {c : Cage} {i : Nat} {new : CageState} {cause : FaultCause} {f : TxFrame} {s t u : State}

/-! ### The report that makes room (R92) -/

theorem worstReport_below {post : List TxFrame} {k j level : Nat}
    (below : ∀ e ∈ post, e.mark = .waiting → e.body.isReport = true → e.level < level) :
    worstReport k (some (j, level)) post = some j := by
  induction post generalizing k with
  | nil => rfl
  | cons e rest ih =>
    have later := ih (k := k + 1) fun x mem => below x (List.mem_cons_of_mem _ mem)
    unfold worstReport
    split
    next waits =>
      dsimp only
      rw [if_neg (Nat.not_le_of_lt (below e List.mem_cons_self waits.1 waits.2)), later]
    · exact later

/-- The waiting report of the highest level, the latest of equals, is the one that makes room. -/
theorem worstReport_append {before post : List TxFrame} {k : Nat} {best : Option (Nat × Nat)} (mark : f.mark = .waiting)
    (report : f.body.isReport = true) (bound : ∀ b, best = some b → b.2 ≤ f.level)
    (upto : ∀ e ∈ before, e.mark = .waiting → e.body.isReport = true → e.level ≤ f.level)
    (below : ∀ e ∈ post, e.mark = .waiting → e.body.isReport = true → e.level < f.level) :
    worstReport k best (before ++ f :: post) = some (k + before.length) := by
  induction before generalizing k best with
  | nil =>
    show worstReport k best (f :: post) = some k
    unfold worstReport
    rw [if_pos ⟨mark, report⟩]
    split
    next j level =>
      rw [if_pos (bound _ rfl)]
      exact worstReport_below below
    · exact worstReport_below below
  | cons e rest ih =>
    have later := fun best bound => ih (k := k + 1) (best := best) bound fun x mem => upto x (List.mem_cons_of_mem _ mem)
    have place : k + 1 + rest.length = k + (e :: rest).length := by rw [List.length_cons]; omega
    rw [place] at later
    have first : ∀ j : Nat, e.mark = .waiting ∧ e.body.isReport = true →
        ∀ b : Nat × Nat, some (j, e.level) = some b → b.2 ≤ f.level := fun j waits b is => by
      cases is
      exact upto e List.mem_cons_self waits.1 waits.2
    rw [List.cons_append]
    unfold worstReport
    split
    next waits =>
      split
      · split
        · exact later _ (first _ waits)
        · exact later _ bound
      · exact later _ (first _ waits)
    · exact later _ bound

theorem worstReport_eq {q : List TxFrame} (at_ : q[i]? = some f) (mark : f.mark = .waiting)
    (report : f.body.isReport = true) (worst : ∀ j e, q[j]? = some e → e.mark = .waiting → e.body.isReport = true →
      e.level < f.level ∨ (e.level = f.level ∧ j ≤ i)) : worstReport 0 none q = some i := by
  obtain ⟨lt, is⟩ := List.getElem?_eq_some_iff.1 at_
  have parts : q = q.take i ++ f :: q.drop (i + 1) := by
    rw [← is, ← List.drop_eq_getElem_cons lt, List.take_append_drop]
  have length : (q.take i).length = i := by rw [List.length_take]; omega
  have found := worstReport_append (k := 0) (best := none) (before := q.take i) (post := q.drop (i + 1)) mark report nofun
    (fun e mem waits own => ?_) (fun e mem waits own => ?_)
  · rw [← parts, length, Nat.zero_add] at found
    exact found
  · obtain ⟨j, at_⟩ := List.getElem?_of_mem (List.mem_of_mem_take mem)
    rcases worst j e at_ waits own with less | ⟨same, _⟩
    · exact Nat.le_of_lt less
    · exact Nat.le_of_eq same
  · obtain ⟨j, at_⟩ := List.getElem?_of_mem mem
    rw [List.getElem?_drop] at at_
    rcases worst _ e at_ waits own with less | ⟨_, early⟩
    · exact less
    · omega

/-- A frame that finds the queue full takes a new place after that report has been removed and counted (R92). -/
theorem place_full {b : BusUnit} (full : 8 ≤ b.txQueue.length) (worst : worstReport 0 none b.txQueue = some i)
    (g : TxFrame) : b.place g = { b with
      txQueue := b.txQueue.eraseIdx i ++ [g], reportDrop := min 65535 (b.reportDrop + 1) } := by
  rw [BusUnit.place, if_neg (Nat.not_lt_of_le full), worst]
  rfl

/-! ### The report of a move (R3, R90) -/

theorem moveCage_reportOf (c : Cage) (new : CageState) (cause : FaultCause) (s : State) :
    (moveCage c new cause s).reportOf c =
      ⟨c, new, if new = .faulted then cause else .none, (s.penalty c).value⟩ := by
  have penalty : (moveCage c new cause s).penalty c = s.penalty c :=
    penalty_congr (moveCage_frame c new cause s).2.2.2.1 c
  have kept : ((moveCage c new cause s).cage c).cause = if new = .faulted then cause else .none := by
    rw [moveCage_cage]
    rfl
  rw [State.reportOf, moveCage_state, penalty, kept]
  by_cases faulted : new = .faulted
  · rw [if_pos faulted, if_pos faulted]
  · rw [if_neg faulted, if_neg faulted]

/-- A move that hands the claim unit nothing changes no claim, and hands its report to the bus interface. -/
theorem moveCage_handed (handOff : claimHandOff c (s.cage c).state new s = s) (moves : new ≠ (s.cage c).state) :
    (moveCage c new cause s).claims = s.claims ∧
    (moveCage c new cause s).bus = s.bus.report
      ⟨c, new, if new = .faulted then cause else .none, (s.penalty c).value⟩ (s.claim c).level := by
  have claims : (moveCage c new cause s).claims = s.claims := by rw [moveCage_claimUnit, handOff]
  refine ⟨claims, ?_⟩
  rw [moveCage_bus, if_neg moves, handOff, moveCage_reportOf, claim_congr claims]

/-- What a report handed over does to the bus interface: a new place, a drop, or a place it has already (R90, R92, R93). -/
structure ReportTaken (r : CageReport) (level : Nat) (b b' : BusUnit) : Prop where
  replaces : (∃ f ∈ b.txQueue, f.mark = .waiting ∧ f.body.isReportOf r.cage = true) →
    b' = { b with txQueue := b.txQueue.map (fun f =>
      if f.mark = .waiting ∧ f.body.isReportOf r.cage = true
      then { f with body := .cageReport r, level := level } else f) }
  follows  : (∀ f ∈ b.txQueue, ¬ (f.mark = .waiting ∧ f.body.isReportOf r.cage = true)) →
    (∃ f ∈ b.txQueue, f.mark = .attempting ∧ f.body.isReportOf r.cage = true) →
    b' = { b with txQueue := b.txQueue.map (fun f =>
      if f.mark = .attempting ∧ f.body.isReportOf r.cage = true then { f with followOn := some ⟨r, level⟩ } else f) }
  new      : (∀ f ∈ b.txQueue, ¬ (f.mark = .waiting ∧ f.body.isReportOf r.cage = true) ∧
      ¬ (f.mark = .attempting ∧ f.body.isReportOf r.cage = true)) →
    (b.txQueue.length < 8 → b' = { b with txQueue := b.txQueue ++ [newFrame level (.cageReport r)] }) ∧
    (8 ≤ b.txQueue.length → b' = { b with reportDrop := min 65535 (b.reportDrop + 1) })

theorem not_holds {q : List TxFrame} {mark : TxMark} {test : FrameBody → Bool}
    (none : ∀ f ∈ q, ¬ (f.mark = mark ∧ test f.body = true)) : ¬ holds q mark test = true := fun held => by
  obtain ⟨f, mem, own⟩ := holds_iff.1 held
  exact none f mem own

theorem report_taken (r : CageReport) (level : Nat) (b : BusUnit) : ReportTaken r level b (b.report r level) where
  replaces held := if_pos (holds_iff.2 held)
  follows none held := by
    rw [BusUnit.report, if_neg (not_holds none), if_pos (holds_iff.2 held)]
    rfl
  new none := by
    have unheld : b.report r level = if b.txQueue.length < 8 then
        { b with txQueue := b.txQueue ++ [newFrame level (.cageReport r)] } else b.countDrop := by
      rw [BusUnit.report, if_neg (not_holds fun f mem => (none f mem).1), if_neg (not_holds fun f mem => (none f mem).2)]
    exact ⟨fun room => unheld.trans (if_pos room), fun full => unheld.trans (if_neg (Nat.not_lt_of_le full))⟩

/-- The four rows of the first clause move their cage, with a report of its new state and of the cause in FAULTED. -/
theorem row_moves {i : Instr} {state : CageState} (free : s.startup.resetHeld = false)
    (row : i = .debounceTimerExpiry c ∧ (s.cage c).state = .debounce ∧
        (s.cage c).timers.debounce.isSome ∧ state = .identify ∧ cause = .none ∨
      i = .linkUpHoldExpiry c ∧ (s.cage c).state = .train ∧ (s.line c).linkHold.isSome ∧
        (s.line c).linkRaw = true ∧ (s.line c).link = false ∧ state = .verify ∧ cause = .none ∨
      i = .verifyTimerExpiry c ∧ (s.cage c).state = .verify ∧ (s.cage c).timers.verify.isSome ∧
        state = .inService ∧ cause = .none ∨
      i = .settleTimerExpiry c ∧ (s.cage c).state = .relight ∧ (s.cage c).timers.settle.isSome ∧
        state = .faulted ∧ cause = .noLight) :
    ∃ t u, exec i s = .next t ∧ EndsAs u t ∧ (u.cage c).state = state ∧ u.claims = s.claims ∧
      u.bus = s.bus.report ⟨c, state, cause, (s.penalty c).value⟩ (s.claim c).level := by
  rcases row with ⟨rfl, old, timer, rfl, rfl⟩ | ⟨rfl, old, hold, raw, low, rfl, rfl⟩ | ⟨rfl, old, timer, rfl, rfl⟩ |
    ⟨rfl, old, timer, rfl, rfl⟩
  · obtain ⟨t, next, ends⟩ : ∃ t, exec (.debounceTimerExpiry c) s = .next t ∧ EndsAs (debounceEnds c s) t :=
      eventNext_occurs free (by simp [old, timer])
    obtain ⟨claims, bus⟩ := moveCage_handed (c := c) (new := .identify) (cause := .none)
      (s := handRecord c .inserted .debounce none s) (by rw [handRecord_cage, old]; rfl) (by rw [handRecord_cage, old]; nofun)
    refine ⟨t, _, next, ends, ?_, claims, bus⟩
    rw [debounceEnds, enterIdentify, cage_updCage]
    exact moveCage_state ..
  · obtain ⟨t, next, ends⟩ := eventNext_occurs (effect := takeLink c) free (linkDue_of hold (by simp [raw, low]))
    have train : ((s.updLines c CageLines.linkTaken).cage c).state = .train := old
    have effect : takeLink c s = moveCage c .verify .none (s.updLines c CageLines.linkTaken) := by
      have up : ((s.updLines c CageLines.linkTaken).line c).link = true := by rw [line_updLines]; exact raw
      rw [takeLink, if_pos up, linkAsserted, train]
    rw [effect] at ends
    obtain ⟨claims, bus⟩ := moveCage_handed (c := c) (new := .verify) (cause := .none)
      (s := s.updLines c CageLines.linkTaken) (by rw [train]; rfl) (by rw [train]; nofun)
    exact ⟨t, _, next, ends, moveCage_state .., claims, bus⟩
  · obtain ⟨t, next, ends⟩ : ∃ t, exec (.verifyTimerExpiry c) s = .next t ∧ EndsAs (verifyEnds c s) t :=
      eventNext_occurs free (by simp [old, timer])
    obtain ⟨claims, bus⟩ := moveCage_handed (c := c) (new := .inService) (cause := .none)
      (s := handRecord c .inService .verify none s) (by rw [handRecord_cage, old]; rfl) (by rw [handRecord_cage, old]; nofun)
    exact ⟨t, _, next, ends, moveCage_state .., claims, bus⟩
  · obtain ⟨t, next, ends⟩ : ∃ t, exec (.settleTimerExpiry c) s = .next t ∧ EndsAs (enterFaulted c .noLight s) t :=
      eventNext_occurs free (by simp [old, timer, CageState.settling])
    obtain ⟨claims, bus⟩ := moveCage_handed (c := c) (new := .faulted) (cause := .noLight)
      (s := handRecord c .fault (s.cage c).state (some .noLight) s) (by rw [handRecord_cage, old]; rfl)
      (by rw [handRecord_cage, old]; nofun)
    exact ⟨t, _, next, ends, moveCage_state .., claims, bus⟩

/-- Settles O32: the report as the bus interface takes it, the frame that finds the queue full, and the report of any
move at the end of its event. -/
theorem cageReportHanded : Obligations.CageReportHanded := by
  refine ⟨fun i c state cause s free undue row => ?_, fun i f s free announced idle first full none at_ mark report worst => ?_,
    fun i c moment code tag s row few waits => ?_⟩
  · obtain ⟨t, u, next, ends, moved, claims, bus⟩ := row_moves free row
    obtain ⟨kept, left⟩ := ends.untested (by rw [claims]; exact undue)
    have taken := report_taken ⟨c, state, cause, (s.penalty c).value⟩ (s.claim c).level s.bus
    rw [← bus, ← left] at taken
    exact ⟨t, next, by rw [ends.same.cages c]; exact moved, kept.trans claims, taken.replaces, taken.follows, taken.new⟩
  · obtain ⟨t, next, ends⟩ := eventNext_occurs (effect := announce) free announced
    have ticked : announce s = s.ticked.updStartup (fun k => { k with
        listenTicks := if s.startup.runState = .listening then 1 else k.listenTicks }) :=
      (announce_eq s).trans (listenTick_first (u := s.ticked) first)
    rw [ticked] at ends
    have free_ : ∀ mark, ¬ holds s.bus.txQueue mark FrameBody.isStatus = true := fun mark =>
      not_holds fun f mem own => by rw [none f mem] at own; cases own.2
    refine ⟨t, next, (ends.unpassed (.inr (.inr idle))).2.trans ?_⟩
    show ({ s.bus.tickStatus with announce := some s.conf.announce } : BusUnit) = _
    rw [BusUnit.tickStatus, if_neg (free_ _), if_neg (free_ _), place_full full (worstReport_eq at_ mark report worst)]
  · exact moved_told row ⟨few, waits⟩

end Sys2Proof.Machine
end

section
/-! PROOF. The cages at a Restart: the lines latched, the blocks cleared, and each cage looked at once (R38, R157, R188). -/

namespace Sys2Proof.Machine

variable {clocks : ClockHold} {c d : Cage} {s t u v x : State}

/-! ### The lines latched (R157) -/

/-- The line of an enabled cage as a Restart latches it: at the levels it carries, with no source named. -/
def latchedLine (s : State) (c : Cage) : CageLines :=
  { s.line c with source := .latched, named := none, latched := some (s.outputs c) }

theorem latchAll_line (enabled : (s.cageConf c).enabled = true) :
    (allCages.foldl latchEnabled s).line c = latchedLine s c := by
  refine foldl_reaches_once
    (Q := fun u : State => u.conf = s.conf ∧ u.line c = s.line c ∧ u.cage c = s.cage c)
    (P := fun u : State => u.line c = latchedLine s c) (fun u a other h => ?_) (fun u h => ?_) (fun u a other h => ?_)
    (List.nodup_finRange 16) (mem_allCages c) ⟨rfl, rfl, rfl⟩
  · obtain ⟨conf, line, cage⟩ := h
    exact ⟨(latchEnabled_conf u a).trans conf, (latchEnabled_other (Ne.symm other) u).trans line,
      (cage_congr (latchEnabled_rest u a).2 c).trans cage⟩
  · obtain ⟨conf, line, cage⟩ := h
    have on : (u.cageConf c).enabled = true := by rw [State.cageConf, conf]; exact enabled
    rw [latchEnabled, if_pos on, latchLines, line_updLines, latchedLine, State.outputs, State.outputs, line, cage]
  · rw [latchEnabled_other (Ne.symm other) u, h]

/-! ### The units that a Restart clears -/

/-- No request is with an arbiter, no scan is under way, and no record of one is kept. -/
structure State.blank (s : State) : Prop where
  slots    : ∀ c, s.crsSlot c = none
  scanners : ∀ g, s.scanner g = resetScanner
  scans    : ∀ c, s.cageScan c = resetCageScan

/-- A state that differs from another in the lines, the cages, the bus and the event unit alone. -/
def SameUnits (s u : State) : Prop :=
  u = { s with lines := u.lines, cages := u.cages, bus := u.bus, events := u.events }

theorem SameUnits.trans (h : SameUnits s u) (k : SameUnits u v) : SameUnits s v := by
  unfold SameUnits at *
  rw [k, h]

theorem SameUnits.blank (h : SameUnits s u) (blank : s.blank) : u.blank := by
  have links : u.links = s.links := by rw [h]
  have scan : u.scan = s.scan := by rw [h]
  refine ⟨fun c => ?_, fun g => ?_, fun c => ?_⟩
  · rw [State.crsSlot, State.link, links]; exact blank.slots c
  · rw [State.scanner, scan]; exact blank.scanners g
  · rw [State.cageScan, scan]; exact blank.scans c

theorem blank_clearBlocks (clocks : ClockHold) (s : State) : (clearBlocks clocks s).blank where
  slots c := by
    have emptied : ∀ (held : Bool) (l : Link), (l.atRestart held).crsSlots = Vector.replicate 8 none := fun held l => by
      unfold Link.atRestart
      dsimp only
      split
      · split <;> rfl
      · rfl
      · rfl
      · rfl
    simp [State.crsSlot, State.link, clearBlocks, emptied, Link.inSlot]
  scanners g := by simp [State.scanner, clearBlocks, ScanUnit.atRestart]
  scans c := by simp [State.cageScan, clearBlocks, ScanUnit.atRestart]

/-! ### One cage looked at (R38) -/

theorem vacated_blank (blank : s.blank) (c : Cage) : s.updScan c CageScan.vacated = s := by
  have same : modifyAt s.scan.cages c CageScan.vacated = s.scan.cages :=
    (modifyAt_congr (g := fun k => k) (by rw [show s.scan.cages[c] = resetCageScan from blank.scans c]; rfl)).trans
      (modifyAt_id _ c)
  rw [State.updScan, same]

/-- A cage that leaves ADOPT for VACANT moves its lines, its record and the transmit queue alone. -/
theorem moveCage_vacates (blank : s.blank) (adopt : (s.cage c).state = .adopt) :
    ∃ f, moveCage c .vacant .none s = handReport c ((s.updLines c (CageLines.take .sequencer)).updCage c f) := by
  have calm : dropScanOf c s = s := if_neg (by rw [State.underScan, blank.scanners]; nofun)
  have empties : emptyRequests c s = s.updCage c (fun k => { k with requests := [] }) :=
    withdrawCrs_none (s := s.updCage c (fun k => { k with requests := [] })) (blank.slots c)
  let w := (s.updCage c (fun k => { k with requests := [] })).updLines c (CageLines.take .sequencer)
  let g := CageRecord.move .vacant .none (entryTimers w.conf (w.underSequencer c) w.openChoices .vacant)
  have moves : moveCage c .vacant .none s = handReport c ((w.updCage c g).updScan c CageScan.vacated) := by
    rw [moveCage, adopt]
    show handReport c (((nameSource c .vacant (emptyRequests c (dropScanOf c s))).updCage c _).updScan c _) = _
    rw [calm, empties]
    rfl
  have still : (w.updCage c g).blank := ⟨blank.slots, blank.scanners, blank.scans⟩
  refine ⟨fun k => g { k with requests := [] }, ?_⟩
  rw [moves, vacated_blank still]
  exact congrArg (handReport c) (updCage_updCage (s.updLines c (CageLines.take .sequencer)) c _ g)

/-- A cage that leaves ADOPT for IDENTIFY moves its lines, its record and the transmit queue alone. -/
theorem moveCage_identifies (blank : s.blank) (adopt : (s.cage c).state = .adopt) :
    ∃ f, moveCage c .identify .none s = handReport c ((s.updLines c (CageLines.take .sequencer)).updCage c f) := by
  have calm : dropScanOf c s = s := if_neg (by rw [State.underScan, blank.scanners]; nofun)
  rw [moveCage, adopt]
  show ∃ f, handReport c ((nameSource c .identify (dropScanOf c s)).updCage c _) = _
  rw [calm]
  exact ⟨_, rfl⟩

/-- What a look at one cage leaves of the others. -/
structure Looked (c : Cage) (s u : State) : Prop where
  units     : SameUnits s u
  lines     : ∀ d : Cage, d ≠ c → u.line d = s.line d
  cages     : ∀ d : Cage, d ≠ c → u.cage d = s.cage d
  histories : ∀ d : Cage, d ≠ c → u.events.histories[d] = s.events.histories[d]

theorem looked_left {f : CageRecord → CageRecord}
    (left : u = handReport c (((handAdopted c s).updLines c (CageLines.take .sequencer)).updCage c f)) : Looked c s u where
  units := by rw [left]; rfl
  lines d other := by rw [left]; exact line_updLines_other _ _ _ _ other
  cages d other := by rw [left]; exact cage_updCage_other _ _ _ _ other
  histories d other := by rw [left]; exact modifyAt_other _ _ _ _ other

theorem Looked.updCage {f : CageRecord → CageRecord} (h : Looked c s u) : Looked c s (u.updCage c f) where
  units := h.units.trans rfl
  lines := h.lines
  cages d other := (cage_updCage_other _ _ _ _ other).trans (h.cages d other)
  histories := h.histories

theorem looked_refl (c : Cage) (s : State) : Looked c s s := ⟨rfl, fun _ _ => rfl, fun _ _ => rfl, fun _ _ => rfl⟩

theorem examineCage_looked (blank : s.blank) (c : Cage) : Looked c s (examineCage s c) := by
  unfold examineCage
  split
  next adopt =>
    have handed : (handAdopted c s).blank := ⟨blank.slots, blank.scanners, blank.scans⟩
    unfold examineAdopted
    split
    · obtain ⟨f, left⟩ := moveCage_vacates handed adopt
      exact looked_left left
    · split
      · obtain ⟨f, left⟩ := moveCage_identifies handed adopt
        exact (looked_left left).updCage
      · exact (looked_refl c s).updCage.updCage
  · exact looked_refl c s

end Sys2Proof.Machine
end

section
/-! PROOF. Where the look at a cage after a Restart leaves it (R38, R157). -/

namespace Sys2Proof.Machine

variable {clocks : ClockHold} {c d : Cage} {new : CageState} {s t u v x : State}

/-- A cage has left ADOPT for a state: its lines under SEQUENCER, and an ADOPTED record (R38). -/
structure LeftAdopt (c : Cage) (new : CageState) (s u : State) : Prop where
  state    : (u.cage c).state = new
  requests : (u.cage c).requests = []
  timers   : new = .identify → (u.cage c).timers =
    { noTimers with initWait := some 2000, initStart := s.openChoices }
  line     : (u.line c).source = .sequencer
  history  : ∃ n, u.events.histories[c] =
    (({ sequence := n, time := s.startup.stationTime, kind := .adopted, before := .adopt, cause := none,
        penalty := (s.penalty c).value, snapshot := none } : EventRecord) :: s.events.histories[c]).take 4

theorem handAdopted_history (blank : s.blank) (c : Cage) : (handAdopted c s).events.histories[c] =
    (({ sequence := s.events.nextSequence, time := s.startup.stationTime, kind := .adopted, before := .adopt,
        cause := none, penalty := (s.penalty c).value, snapshot := none } : EventRecord) ::
      s.events.histories[c]).take 4 := by
  have sample : (s.cageScan c).sample = none := by rw [blank.scans c]; rfl
  have unsampled : snapshotFor s c .adopted = none := by rw [snapshotFor, sample]; exact ite_self none
  rw [handAdopted, history_handRecord, madeRecord, unsampled]

theorem leftAdopt_moved (blank : s.blank) (idle : (s.cage c).requests = [])
    (latched : (s.line c).source = .latched) (to_ : new = .vacant ∨ new = .identify) :
    LeftAdopt c new s (moveCage c new .none (handAdopted c s)) := by
  have names : new.names = some .sequencer := by rcases to_ with rfl | rfl <;> rfl
  have source : ((moveCage c new .none (handAdopted c s)).line c).source = .sequencer := by
    rw [moveCage_line, names]
    show ((s.line c).take .sequencer).source = _
    rw [CageLines.take, latched]
    rfl
  have record := moveCage_cage c new .none (handAdopted c s)
  rw [source] at record
  exact {
    state := moveCage_state ..
    requests := by
      rw [record]
      show (if new.emptiesList then [] else (s.cage c).requests) = []
      rw [idle, ite_self]
    timers := fun identify => by rw [record, identify]; rfl
    line := source
    history := ⟨_, (congrArg (fun e : EventUnit => e.histories[c])
      (moveCage_frame c new .none (handAdopted c s)).2.2.2.2.2.1).trans (handAdopted_history blank c)⟩ }

/-- Where the look at a cage in ADOPT takes it (R38). -/
structure Placed (c : Cage) (s u : State) : Prop where
  vacant   : (s.line c).present = false → LeftAdopt c .vacant s u
  identify : (s.line c).present = true → s.latchedLowPower c = true → LeftAdopt c .identify s u
  adopt    : (s.line c).present = true → s.latchedLowPower c = false →
    u.cage c = { s.cage c with identReads := (s.cage c).identReads + 1, requests := [⟨.identityRead, 0, (s.cage c).visit⟩] } ∧
    u.line c = s.line c ∧ u.events.histories[c] = s.events.histories[c]

theorem examineAdopted_cases (c : Cage) (s : State) :
    ((s.line c).present = false → examineAdopted c s = moveCage c .vacant .none (handAdopted c s)) ∧
    ((s.line c).present = true → s.latchedLowPower c = true →
      examineAdopted c s = enterIdentify c (handAdopted c s)) ∧
    ((s.line c).present = true → s.latchedLowPower c = false → examineAdopted c s = readIdentity c s) := by
  refine ⟨fun absent => if_pos (by rw [absent]; rfl), fun present low => ?_, fun present high => ?_⟩
  · rw [examineAdopted, present, low]
    rfl
  · rw [examineAdopted, present, high]
    rfl

theorem examineCage_placed (blank : s.blank) (adopt : (s.cage c).state = .adopt) (idle : (s.cage c).requests = [])
    (latched : (s.line c).source = .latched) : Placed c s (examineCage s c) := by
  obtain ⟨vacates, identifies, stays⟩ := examineAdopted_cases c s
  rw [show examineCage s c = examineAdopted c s from if_pos adopt]
  refine ⟨fun absent => ?_, fun present low => ?_, fun present high => ?_⟩
  · rw [vacates absent]
    exact leftAdopt_moved blank idle latched (.inl rfl)
  · obtain ⟨state, requests, timers, line, history⟩ :=
      leftAdopt_moved (new := .identify) blank idle latched (.inr rfl)
    rw [identifies present low, enterIdentify]
    have record := cage_updCage (moveCage c .identify .none (handAdopted c s)) c
      (fun k => { k with identity := none, identReads := 0 })
    exact ⟨by rw [record]; exact state, by rw [record]; exact requests, fun h => by rw [record]; exact timers h, line,
      history⟩
  · rw [stays present high]
    refine ⟨?_, rfl, rfl⟩
    rw [readIdentity, ask, cage_updCage, cage_updCage]
    dsimp only
    rw [idle]
    rfl

/-! ### Every cage looked at -/

/-- A cage that has not been looked at yet, nor anything but cages, lines, bus and events. -/
structure Unseen (c : Cage) (x s : State) : Prop where
  units   : SameUnits x s
  cage    : s.cage c = x.cage c
  line    : s.line c = x.line c
  history : s.events.histories[c] = x.events.histories[c]

theorem unseen_refl (c : Cage) (x : State) : Unseen c x x := ⟨rfl, rfl, rfl, rfl⟩

theorem Unseen.looked (h : Unseen c x s) (blank : x.blank) (other : d ≠ c) : Unseen c x (examineCage s d) := by
  obtain ⟨units, lines, cages, histories⟩ := examineCage_looked (h.units.blank blank) d
  exact ⟨h.units.trans units, (cages c (Ne.symm other)).trans h.cage, (lines c (Ne.symm other)).trans h.line,
    (histories c (Ne.symm other)).trans h.history⟩

theorem LeftAdopt.since (h : LeftAdopt c new s u) (unseen : Unseen c x s) : LeftAdopt c new x u := by
  obtain ⟨state, requests, timers, line, n, history⟩ := h
  have startup : s.startup = x.startup := by rw [unseen.units]
  have penalties : s.penalties = x.penalties := by rw [unseen.units]
  have choices : s.openChoices = x.openChoices := by rw [unseen.units]
  refine ⟨state, requests, fun identify => ?_, line, n, ?_⟩
  · rw [timers identify, choices]
  · rw [history, startup, State.penalty, penalties, unseen.history]
    rfl

theorem Placed.since (h : Placed c s u) (unseen : Unseen c x s) : Placed c x u := by
  obtain ⟨vacant, identify, adopt⟩ := h
  have low : s.latchedLowPower c = x.latchedLowPower c := by rw [State.latchedLowPower, State.latchedLowPower, unseen.line]
  rw [unseen.line] at vacant identify adopt
  rw [low] at identify adopt
  rw [unseen.cage, unseen.history] at adopt
  exact ⟨fun absent => (vacant absent).since unseen, fun present low => (identify present low).since unseen, adopt⟩

theorem LeftAdopt.kept (h : LeftAdopt c new x u) (cage : v.cage c = u.cage c) (line : v.line c = u.line c)
    (history : v.events.histories[c] = u.events.histories[c]) : LeftAdopt c new x v := by
  obtain ⟨state, requests, timers, source, made⟩ := h
  exact ⟨by rw [cage]; exact state, by rw [cage]; exact requests, by rw [cage]; exact timers, by rw [line]; exact source,
    by rw [history]; exact made⟩

theorem Placed.kept (h : Placed c x u) (cage : v.cage c = u.cage c) (line : v.line c = u.line c)
    (history : v.events.histories[c] = u.events.histories[c]) : Placed c x v := by
  obtain ⟨vacant, identify, adopt⟩ := h
  refine ⟨fun absent => (vacant absent).kept cage line history, fun present low => (identify present low).kept cage line history,
    fun present high => ?_⟩
  rw [cage, line, history]
  exact adopt present high

theorem examineAll_units (blank : x.blank) (l : List Cage) : SameUnits x (l.foldl examineCage x) :=
  foldl_invariant (SameUnits x) examineCage
    (fun _ c units => units.trans (examineCage_looked (units.blank blank) c).units) l x rfl

/-- Every cage in ADOPT is placed by the one look at it. -/
theorem examineAll_placed (blank : x.blank) {l : List Cage} (once : l.Nodup) (mem : c ∈ l)
    (adopt : (x.cage c).state = .adopt) (idle : (x.cage c).requests = []) (latched : (x.line c).source = .latched) :
    Placed c x (l.foldl examineCage x) := by
  refine (foldl_reaches_once (Q := fun s => Unseen c x s) (P := fun s => SameUnits x s ∧ Placed c x s)
    (fun _ a other h => h.looked blank other) (fun s h => ?_) (fun s a other h => ?_) once mem
    (unseen_refl c x)).2
  · have placed := examineCage_placed (h.units.blank blank) (by rw [h.cage]; exact adopt) (by rw [h.cage]; exact idle)
      (by rw [h.line]; exact latched)
    exact ⟨h.units.trans (examineCage_looked (h.units.blank blank) c).units, placed.since h⟩
  · obtain ⟨units, placed⟩ := h
    obtain ⟨looked, lines, cages, histories⟩ := examineCage_looked (units.blank blank) a
    exact ⟨units.trans looked, placed.kept (cages c (Ne.symm other)) (lines c (Ne.symm other)) (histories c (Ne.symm other))⟩

/-- A cage that is not in ADOPT is not looked at. -/
theorem examineAll_unseen (blank : x.blank) (l : List Cage) (not : (x.cage c).state ≠ .adopt) :
    Unseen c x (l.foldl examineCage x) :=
  foldl_invariant (fun s => Unseen c x s) examineCage (fun s d h => by
    by_cases own : d = c
    · subst own
      rw [show examineCage s d = s from if_neg (by rw [h.cage]; exact not)]
      exact h
    · exact h.looked blank own) l x (unseen_refl c x)

end Sys2Proof.Machine
end

section
/-! PROOF. The transmit queue at a Restart: frames left under attempt, and the reports of cages that leave ADOPT
(R74, R92). -/

namespace Sys2Proof.Machine

variable {clocks : ClockHold} {c d : Cage} {new : CageState} {f : TxFrame} {b : BusUnit} {s t u v x : State}

/-- Whether a look at a cage in ADOPT takes it out of it (R38). -/
def State.leavesAdopt (s : State) (c : Cage) : Bool :=
  decide ((s.cage c).state = .adopt) && (!(s.line c).present || s.latchedLowPower c)

theorem handAdopted_move_bus (adopt : (s.cage c).state = .adopt) (to_ : new = .vacant ∨ new = .identify) :
    (moveCage c new .none (handAdopted c s)).bus = s.bus.report ⟨c, new, .none, (s.penalty c).value⟩ (s.claim c).level := by
  obtain ⟨_, bus⟩ := moveCage_handed (c := c) (new := new) (cause := .none) (s := handAdopted c s)
    (by rw [handAdopted, handRecord_cage, adopt]; rcases to_ with rfl | rfl <;> rfl)
    (by rw [handAdopted, handRecord_cage, adopt]; rcases to_ with rfl | rfl <;> nofun)
  rw [bus, ite_self]
  rfl

/-- A cage that leaves ADOPT hands its report over, and no other one. -/
theorem examineCage_bus (c : Cage) (s : State) :
    (s.leavesAdopt c = true → ∃ r level, r.cage = c ∧ (examineCage s c).bus = s.bus.report r level) ∧
    (s.leavesAdopt c = false → (examineCage s c).bus = s.bus) := by
  by_cases adopt : (s.cage c).state = .adopt
  case neg =>
    have stays : examineCage s c = s := if_neg adopt
    rw [State.leavesAdopt, decide_eq_false adopt, stays]
    exact ⟨nofun, fun _ => rfl⟩
  case pos =>
    obtain ⟨vacates, identifies, stays⟩ := examineAdopted_cases c s
    rw [show examineCage s c = examineAdopted c s from if_pos adopt, State.leavesAdopt, decide_eq_true adopt,
      Bool.true_and]
    cases present : (s.line c).present with
    | false =>
      rw [vacates present]
      exact ⟨fun _ => ⟨_, _, rfl, handAdopted_move_bus adopt (.inl rfl)⟩, nofun⟩
    | true =>
      cases low : s.latchedLowPower c with
      | true =>
        rw [identifies present low]
        exact ⟨fun _ => ⟨_, _, rfl, handAdopted_move_bus adopt (.inr rfl)⟩, nofun⟩
      | false =>
        rw [stays present low]
        exact ⟨nofun, fun _ => rfl⟩

/-- The waiting frames of a queue. -/
def waitingOf (q : List TxFrame) : List TxFrame := q.filter (fun f => decide (f.mark = .waiting))

/-- The transmit queue while cages leave ADOPT, given those that have left it: every frame is one left under attempt or a
waiting report of a cage that has left, and what found no room is counted. -/
structure Reported (gone : Cage → Prop) (count : Nat) (b b' : BusUnit) : Prop where
  same    : b' = { b with txQueue := b'.txQueue, reportDrop := b'.reportDrop }
  frames  : ∀ f ∈ b'.txQueue, f ∈ b.txQueue ∨ (f.mark = .waiting ∧ ∃ r, f.body = .cageReport r ∧ gone r.cage)
  kept    : ∀ f ∈ b.txQueue, f ∈ b'.txQueue
  counted : b'.reportDrop + (waitingOf b'.txQueue).length = count

/-- A report of a cage that has none in the queue takes a new place, or is dropped and counted. -/
theorem reported_new {gone : Cage → Prop} {n : Nat} {b' : BusUnit} {r : CageReport} (h : Reported gone n b b')
    (detached : ∀ f ∈ b.txQueue, f.mark = .detached) (few : n < 65535) (fresh : ¬ gone r.cage) (level : Nat) :
    Reported (fun c => gone c ∨ c = r.cage) (n + 1) b (b'.report r level) := by
  obtain ⟨same, frames, kept, counted⟩ := h
  have unreported : ∀ f ∈ b'.txQueue, ¬ (f.mark = .waiting ∧ f.body.isReportOf r.cage = true) ∧
      ¬ (f.mark = .attempting ∧ f.body.isReportOf r.cage = true) := fun f mem => by
    rcases frames f mem with old | ⟨waits, x, body, left⟩
    · rw [detached f old]
      exact ⟨nofun, nofun⟩
    · refine ⟨fun own => ?_, fun own => by rw [waits] at own; cases own.1⟩
      have is : x.cage = r.cage := by
        have := own.2
        rw [body] at this
        exact of_decide_eq_true this
      exact fresh (is ▸ left)
  have later : ∀ f ∈ b'.txQueue, f ∈ b.txQueue ∨
      (f.mark = .waiting ∧ ∃ x, f.body = .cageReport x ∧ (gone x.cage ∨ x.cage = r.cage)) := fun f mem =>
    (frames f mem).imp_right fun ⟨waits, x, body, left⟩ => ⟨waits, x, body, .inl left⟩
  obtain ⟨room, full⟩ := (report_taken r level b').new unreported
  rcases Nat.lt_or_ge b'.txQueue.length 8 with short | long
  · rw [room short]
    refine ⟨by rw [same], fun f mem => ?_, fun f mem => List.mem_append_left _ (kept f mem), ?_⟩
    · rcases List.mem_append.1 mem with old | new
      · exact later f old
      · rw [List.mem_singleton.1 new]
        exact .inr ⟨rfl, r, rfl, .inr rfl⟩
    · rw [waitingOf, List.filter_append, List.length_append]
      exact congrArg Nat.succ counted
  · rw [full long]
    refine ⟨by rw [same], later, kept, ?_⟩
    show min 65535 (b'.reportDrop + 1) + (waitingOf b'.txQueue).length = n + 1
    omega

theorem leavesAdopt_congr (cage : s.cage c = x.cage c) (line : s.line c = x.line c) :
    s.leavesAdopt c = x.leavesAdopt c := by
  rw [State.leavesAdopt, State.leavesAdopt, State.latchedLowPower, State.latchedLowPower, cage, line]

theorem Reported.mono {gone more : Cage → Prop} {n : Nat} {b' : BusUnit} (h : Reported gone n b b')
    (le : ∀ c, gone c → more c) : Reported more n b b' :=
  ⟨h.same, fun f mem => (h.frames f mem).imp_right fun ⟨waits, r, body, left⟩ => ⟨waits, r, body, le _ left⟩, h.kept,
    h.counted⟩

/-- One look after another, each at a cage not looked at before. -/
theorem examineAll_reported (blank : x.blank) (detached : ∀ f ∈ x.bus.txQueue, f.mark = .detached) {l : List Cage}
    {gone : Cage → Prop} {n : Nat} (once : l.Nodup) (units : SameUnits x s)
    (unseen : ∀ c ∈ l, s.cage c = x.cage c ∧ s.line c = x.line c ∧ ¬ gone c) (so_far : Reported gone n x.bus s.bus)
    (few : n + l.length < 65535) : Reported (fun c => gone c ∨ (c ∈ l ∧ x.leavesAdopt c = true))
      (n + (l.filter x.leavesAdopt).length) x.bus (l.foldl examineCage s).bus := by
  induction l generalizing s gone n with
  | nil => exact so_far.mono fun c left => .inl left
  | cons a l ih =>
    obtain ⟨out, once⟩ := List.nodup_cons.1 once
    obtain ⟨cage, line, fresh⟩ := unseen a List.mem_cons_self
    obtain ⟨leaves, stays⟩ := examineCage_bus a s
    obtain ⟨looked, lines, cages, _⟩ := examineCage_looked (units.blank blank) a
    rw [leavesAdopt_congr cage line] at leaves stays
    rw [List.length_cons] at few
    have rest : ∀ c ∈ l, c ≠ a ∧ (examineCage s a).cage c = x.cage c ∧ (examineCage s a).line c = x.line c ∧ ¬ gone c :=
      fun c mem => by
        have other : c ≠ a := fun same => out (same ▸ mem)
        obtain ⟨cage, line, fresh⟩ := unseen c (List.mem_cons_of_mem _ mem)
        exact ⟨other, (cages c other).trans cage, (lines c other).trans line, fresh⟩
    rw [List.foldl_cons]
    by_cases left : x.leavesAdopt a = true
    · obtain ⟨r, level, own, bus⟩ := leaves left
      have taken := reported_new so_far detached (by omega) (own.symm ▸ fresh) level
      rw [← bus] at taken
      have all := ih once (units.trans looked) (fun c mem => ?_) taken (by omega)
      · rw [List.filter_cons_of_pos left, List.length_cons]
        have count : n + 1 + (l.filter x.leavesAdopt).length = n + ((l.filter x.leavesAdopt).length + 1) := by omega
        rw [count] at all
        refine all.mono fun c known => ?_
        rcases known with (old | now) | ⟨mem, later⟩
        · exact .inl old
        · exact .inr ⟨by rw [now, own]; exact List.mem_cons_self, by rw [now, own]; exact left⟩
        · exact .inr ⟨List.mem_cons_of_mem _ mem, later⟩
      · obtain ⟨other, cage, line, fresh⟩ := rest c mem
        exact ⟨cage, line, fun known => known.elim fresh fun now => other (now.trans own)⟩
    · have bus := stays (Bool.eq_false_iff.2 left)
      have all := ih once (units.trans looked) (fun c mem => (rest c mem).2) (bus.symm ▸ so_far) (by omega)
      rw [List.filter_cons_of_neg left]
      exact all.mono fun c known => known.imp_right fun ⟨mem, later⟩ => ⟨List.mem_cons_of_mem _ mem, later⟩

/-- The reports of every cage that leaves ADOPT. -/
theorem examineAll_bus (blank : x.blank) (detached : ∀ f ∈ x.bus.txQueue, f.mark = .detached) (none : x.bus.reportDrop = 0)
    {l : List Cage} (once : l.Nodup) (few : l.length < 65535) :
    Reported (fun c => x.leavesAdopt c = true) (l.filter x.leavesAdopt).length x.bus (l.foldl examineCage x).bus := by
  have begun : Reported (fun _ => False) 0 x.bus x.bus := by
    refine ⟨rfl, fun f mem => .inl mem, fun f mem => mem, ?_⟩
    have unwaiting : waitingOf x.bus.txQueue = [] := List.filter_eq_nil_iff.2 fun f mem => by
      rw [detached f mem]
      nofun
    rw [unwaiting, none]
    rfl
  have all := examineAll_reported blank detached once (s := x) rfl (fun c _ => ⟨rfl, rfl, id⟩) begun (by omega)
  rw [Nat.zero_add] at all
  exact all.mono fun c known => (known.resolve_left id).2

end Sys2Proof.Machine
end

section
/-! PROOF. The state that a Restart leaves, and the arbiters and scanners at the end of its event (R128, R140, R188). -/

namespace Sys2Proof.Machine

variable {clocks : ClockHold} {c d : Cage} {g : Seg} {held : Bool} {l : Link} {p s t u x : State}

/-! ### The blocks cleared (R188) -/

/-- The state of a Restart before the cages are looked at. -/
def State.cleared (p : State) (clocks : ClockHold) : State := clearBlocks clocks (allCages.foldl latchEnabled p)

theorem latchAll_rest_eq (p : State) :
    allCages.foldl latchEnabled p = { p with lines := (allCages.foldl latchEnabled p).lines } :=
  foldl_invariant (fun u : State => u = { p with lines := u.lines }) latchEnabled (fun u c same => by
    unfold latchEnabled
    split
    · rw [latchLines, State.updLines, same]
    · exact same) allCages p rfl

/-- What is cleared at a Restart, and what stays. -/
structure Cleared (clocks : ClockHold) (p x : State) : Prop where
  startup   : x.startup = { p.startup with runState := .adopting, listenTicks := 0 }
  claims    : x.claims = resetClaims x.claims.claims
  claim     : ∀ c, (x.claim c).state = .none
  peers     : ∀ n, x.peer n = unknownPeer
  bus       : x.bus = p.bus.atRestart p.conf.announce
  penalties : x.penalties = p.penalties
  events    : x.events = p.events
  service   : x.service = resetService
  choices   : x.openChoices = p.openChoices
  link      : ∀ g, x.link g = (p.link g).atRestart (clockHeldOn clocks g)
  cage      : ∀ c, x.cage c = (p.cage c).atRestart (p.cageConf c).enabled
  line      : ∀ c, (p.cageConf c).enabled = true → x.line c = latchedLine p c
  blank     : x.blank

theorem cleared (clocks : ClockHold) (p : State) : Cleared clocks p (p.cleared clocks) := by
  have lines : ∀ c, (p.cageConf c).enabled = true → (allCages.foldl latchEnabled p).line c = latchedLine p c :=
    fun c enabled => latchAll_line enabled
  have same := latchAll_rest_eq p
  rw [State.cleared]
  generalize allCages.foldl latchEnabled p = v at *
  have conf : v.conf = p.conf := by rw [same]; rfl
  exact {
    startup := by rw [same]; rfl
    claims := rfl
    claim := fun c => by simp [State.claim, clearBlocks, resetClaims, resetClaim]
    peers := fun n => by simp [State.peer, clearBlocks]
    bus := by rw [same]; rfl
    penalties := by rw [same]; rfl
    events := by rw [same]; rfl
    service := rfl
    choices := by rw [same]; rfl
    link := fun g => by rw [same]; simp [State.link, clearBlocks]
    cage := fun c => by rw [cage_clearBlocks, State.cageConf, conf, same]; rfl
    line := lines
    blank := blank_clearBlocks clocks v }

/-! ### The cages after their looks -/

/-- The cage a look at it leaves, from the state before the Restart (R38, R157, R2). -/
structure Restarted (c : Cage) (p u : State) : Prop where
  off      : (p.cageConf c).enabled = false → (u.cage c).state = .disabled ∧ (u.cage c).requests = [] ∧
    u.events.histories[c] = p.events.histories[c]
  vacant   : (p.cageConf c).enabled = true → (p.line c).present = false → LeftAdopt c .vacant p u
  identify : (p.cageConf c).enabled = true → (p.line c).present = true → (p.outputs c).lowPower = true →
    LeftAdopt c .identify p u
  adopt    : (p.cageConf c).enabled = true → (p.line c).present = true → (p.outputs c).lowPower = false →
    (u.cage c).state = .adopt ∧ (u.cage c).identReads = 1 ∧
    (u.cage c).requests = [⟨.identityRead, 0, (u.cage c).visit⟩] ∧ u.line c = latchedLine p c ∧
    u.events.histories[c] = p.events.histories[c]

theorem LeftAdopt.from_ {new : CageState} (h : LeftAdopt c new x u) (cleared : Cleared clocks p x) :
    LeftAdopt c new p u := by
  obtain ⟨state, requests, timers, line, n, history⟩ := h
  refine ⟨state, requests, fun identify => ?_, line, n, ?_⟩
  · rw [timers identify, cleared.choices]
  · rw [history, cleared.startup, State.penalty, cleared.penalties, cleared.events]
    rfl

theorem takeRestart_eq (clocks : ClockHold) (p : State) :
    takeRestart clocks p = (p.openOrder allCages).foldl examineCage (p.cleared clocks) := rfl

theorem takeRestart_cages (clocks : ClockHold) (p : State) (c : Cage) : Restarted c p (takeRestart clocks p) := by
  have cleared := cleared clocks p
  have once := openOrder_nodup p
  have mem : c ∈ p.openOrder allCages := (openOrder_perm p allCages).mem_iff.2 (mem_allCages c)
  rw [takeRestart_eq]
  generalize p.cleared clocks = x at *
  have cage := cleared.cage c
  cases enabled : (p.cageConf c).enabled with
  | false =>
    rw [enabled] at cage
    have unseen := examineAll_unseen (c := c) cleared.blank (p.openOrder allCages) (by rw [cage]; nofun)
    refine ⟨fun _ => ⟨?_, ?_, ?_⟩, fun on => ?_, fun on => ?_, fun on => ?_⟩
    · rw [unseen.cage, cage]; rfl
    · rw [unseen.cage, cage]; rfl
    · rw [unseen.history, cleared.events]
    all_goals rw [enabled] at on; cases on
  | true =>
    rw [enabled] at cage
    have line := cleared.line c enabled
    obtain ⟨vacant, identify, adopt⟩ := examineAll_placed cleared.blank once mem (by rw [cage]; rfl) (by rw [cage]; rfl)
      (by rw [line]; rfl)
    have low : x.latchedLowPower c = (p.outputs c).lowPower := by rw [State.latchedLowPower, line]; rfl
    rw [low] at identify adopt
    rw [line, cage, cleared.events] at adopt
    rw [line] at vacant identify
    refine ⟨fun off => ?_, fun _ absent => (vacant absent).from_ cleared,
      fun _ present low => (identify present low).from_ cleared, fun _ present high => ?_⟩
    · rw [enabled] at off; cases off
    · obtain ⟨record, own, history⟩ := adopt present high
      rw [record]
      exact ⟨rfl, rfl, rfl, own, history⟩

end Sys2Proof.Machine
end

section
/-! PROOF. The segments, the scanners, the identity reads and the run state after a Restart (R128, R135, R140, R189). -/

namespace Sys2Proof.Machine

variable {clocks : ClockHold} {c d : Cage} {g : Seg} {held : Bool} {l : Link} {p s t u x : State}

/-! ### A segment at a Restart (R128) -/

theorem atRestart_slots (held : Bool) (l : Link) : (l.atRestart held).passThrough = none ∧
    (l.atRestart held).scanner = none := by
  unfold Link.atRestart
  dsimp only
  split
  · split <;> exact ⟨rfl, rfl⟩
  · exact ⟨rfl, rfl⟩
  · exact ⟨rfl, rfl⟩
  · exact ⟨rfl, rfl⟩

theorem atRestart_recovery (state : l.state = .recovery) : (l.atRestart held).state = .recovery := by
  unfold Link.atRestart
  dsimp only
  rw [show l.emptied.state = .recovery from state]
  exact state

theorem atRestart_stretched (state : l.state = .chunk) :
    (l.atRestart true).state = .recovery ∧ (l.atRestart true).chunk = none := by
  unfold Link.atRestart
  dsimp only
  rw [show l.emptied.state = .chunk from state]
  exact ⟨rfl, rfl⟩

theorem atRestart_going (state : l.state = .chunk) : (l.atRestart false).state = .chunk ∧
    (l.atRestart false).stretch = none ∧
    (l.atRestart false).chunk = l.chunk.map (fun k => { k with ending := .restart }) := by
  unfold Link.atRestart
  dsimp only
  rw [show l.emptied.state = .chunk from state]
  exact ⟨rfl, rfl, rfl⟩

theorem atRestart_waiting (state : l.state = .idle ∨ l.state = .retryWait) : (l.atRestart held).state = .idle ∧
    (l.atRestart held).selected = none ∧ (l.atRestart held).chunk = none := by
  unfold Link.atRestart
  dsimp only
  rcases state with state | state
  · rw [show l.emptied.state = .idle from state]
    exact ⟨rfl, rfl, rfl⟩
  · rw [show l.emptied.state = .retryWait from state]
    exact ⟨rfl, rfl, rfl⟩

/-! ### The units after the looks -/

theorem takeRestart_units (clocks : ClockHold) (p : State) : SameUnits (p.cleared clocks) (takeRestart clocks p) :=
  examineAll_units (cleared clocks p).blank _

theorem takeRestart_blank (clocks : ClockHold) (p : State) : (takeRestart clocks p).blank :=
  (takeRestart_units clocks p).blank (cleared clocks p).blank

theorem takeRestart_link (clocks : ClockHold) (p : State) (g : Seg) :
    (takeRestart clocks p).link g = (p.link g).atRestart (clockHeldOn clocks g) := by
  rw [← (cleared clocks p).link g, State.link, State.link, takeRestart_units clocks p]

theorem takeRestart_startup (clocks : ClockHold) (p : State) :
    (takeRestart clocks p).startup = { p.startup with runState := .adopting, listenTicks := 0 } := by
  rw [takeRestart_units clocks p]
  exact (cleared clocks p).startup

theorem cageConf_congr {v : State} (startup : v.startup.settings = s.startup.settings)
    (profile : v.startup.profile = s.startup.profile) (c : Cage) : v.cageConf c = s.cageConf c := by
  rw [State.cageConf, State.cageConf, State.conf, State.conf, startup, profile]

/-- Only an enabled cage whose module is present and not in low power is left in ADOPT (R38). -/
theorem Restarted.adopt_iff (h : Restarted c p u) : (u.cage c).state = .adopt ↔
    (p.cageConf c).enabled = true ∧ (p.line c).present = true ∧ (p.outputs c).lowPower = false := by
  refine ⟨fun state => ?_, fun ⟨enabled, present, high⟩ => (h.adopt enabled present high).1⟩
  cases enabled : (p.cageConf c).enabled with
  | false => rw [(h.off enabled).1] at state; cases state
  | true =>
    cases present : (p.line c).present with
    | false => rw [(h.vacant enabled present).state] at state; cases state
    | true =>
      cases low : (p.outputs c).lowPower with
      | true => rw [(h.identify enabled present low).state] at state; cases state
      | false => exact ⟨rfl, rfl, rfl⟩

theorem Restarted.unpowered (h : Restarted c p u) : (u.cage c).state.powered = false := by
  cases enabled : (p.cageConf c).enabled with
  | false => rw [(h.off enabled).1]; rfl
  | true =>
    cases present : (p.line c).present with
    | false => rw [(h.vacant enabled present).state]; rfl
    | true =>
      cases low : (p.outputs c).lowPower with
      | true => rw [(h.identify enabled present low).state]; rfl
      | false => rw [(h.adopt enabled present low).1]; rfl

theorem Restarted.idle (h : Restarted c p u) (not : (u.cage c).state ≠ .adopt) : (u.cage c).requests = [] := by
  cases enabled : (p.cageConf c).enabled with
  | false => exact (h.off enabled).2.1
  | true =>
    cases present : (p.line c).present with
    | false => exact (h.vacant enabled present).requests
    | true =>
      cases low : (p.outputs c).lowPower with
      | true => exact (h.identify enabled present low).requests
      | false => exact absurd (h.adopt enabled present low).1 not

/-! ### The scanners (R135, R140) -/

/-- Where no cage is powered no slot begins. -/
theorem slotChoice_unpowered (off : ∀ c, (s.cage c).state.powered = false) (g : Seg) : s.slotChoice g = none := by
  have rota : s.rota g = [] := List.filter_eq_nil_iff.2 fun c _ => by rw [off c]; nofun
  have classes : ∀ cls, s.rotaClass g cls = [] := fun cls => by rw [State.rotaClass, rota]; rfl
  have none_ : ∀ last, nextAfter last [] = none := fun last => by cases last <;> rfl
  rw [State.slotChoice, classes, none_]
  dsimp only
  rw [classes, none_]
  rfl

theorem finish_noSlot (off : ∀ c, (u.cage c).state.powered = false) (empty : (u.link g).scanner = none) :
    (finish u).scanner g = u.scanner g ∧ ((finish u).link g).scanner = none := by
  obtain ⟨y, work, scanner, slot, begun, granted⟩ := finish_slot u g
  have still : startSlot g y = y := by
    unfold startSlot
    dsimp only
    split
    · rw [slotChoice_unpowered fun c => by rw [work.cages c]; exact off c]
    · rfl
  rw [still] at begun granted
  rw [slot, empty] at granted
  exact ⟨begun.trans scanner, granted.elim id fun h => h.2⟩

/-! ### The run state (R189) -/

theorem finish_runState (s : State) : (finish s).startup = (endAdopting s).startup := by
  have pumped : ∀ (cs : List Cage) (u : State), (cs.foldl pumpCage u).startup = u.startup := fun cs u =>
    foldl_keeps State.startup pumpCage (fun u c => by
      unfold pumpCage
      split
      · split <;> simp
      · rfl) cs u
  simp only [finish]
  simp [pumped, runDueTest_startup]

theorem anyAdopt_iff (s : State) : s.anyAdopt = true ↔ ∃ c, (s.cage c).state = .adopt := by
  rw [State.anyAdopt, List.any_eq_true]
  exact ⟨fun ⟨c, _, state⟩ => ⟨c, of_decide_eq_true state⟩, fun ⟨c, state⟩ => ⟨c, mem_allCages c, decide_eq_true state⟩⟩

theorem endAdopting_startup (adopting : s.startup.runState = .adopting) (none : s.startup.listenTicks = 0) :
    ((∃ c, (s.cage c).state = .adopt) → (endAdopting s).startup = s.startup) ∧
    ((∀ c, (s.cage c).state ≠ .adopt) → (endAdopting s).startup = { s.startup with runState := .listening }) := by
  refine ⟨fun some => ?_, fun never => ?_⟩
  · rw [endAdopting, if_neg fun h => by rw [(anyAdopt_iff s).2 some] at h; cases h.2]
  · have over_ : s.anyAdopt = false := Bool.eq_false_iff.2 fun any =>
      let ⟨c, state⟩ := (anyAdopt_iff s).1 any
      never c state
    rw [endAdopting, if_pos ⟨adopting, over_⟩, ← none]
    rfl

end Sys2Proof.Machine
end

section
/-! PROOF. O52: a RESTART served, and the Restart taken, block by block (R38, R74, R157, R171, R188, R189). -/

namespace Sys2Proof.Machine

variable {clocks : ClockHold} {c d : Cage} {g : Seg} {p s t u x : State}

/-- Two cages of the two segments share a slot's number; each segment has a cage of each. -/
theorem cage_of_slot (g : Seg) (e : Cage) : ∃ d : Cage, segOf d = g ∧ slotIx d = slotIx e := by
  revert g e
  decide

/-! ### The arbiters at the end of the event (R7, R121, R128) -/

/-- The identity read of a cage left in ADOPT is all that is with the arbiter for any cage. -/
theorem restarted_slot (ends : EndsAs (takeRestart clocks p) t) {r : LinkRequest} (held : t.crsSlot c = some r) :
    (t.cage c).state = .adopt ∧ r.address = 0 ∧ r.length = 32 ∧ r.cage = c := by
  have cages := takeRestart_cages clocks p c
  have free := (takeRestart_blank clocks p).slots c
  have state : (t.cage c).state = ((takeRestart clocks p).cage c).state := by rw [ends.same.cages c]
  by_cases adopt : ((takeRestart clocks p).cage c).state = .adopt
  · obtain ⟨enabled, present, high⟩ := cages.adopt_iff.1 adopt
    obtain ⟨_, _, requests, line, _⟩ := cages.adopt enabled present high
    have there : ((takeRestart clocks p).line c).present = true := by rw [line]; exact present
    obtain ⟨_, slot⟩ := (ends.requests c).handed _ [] free requests there
    refine ⟨state.trans adopt, ?_⟩
    rw [identityRead_transaction] at slot
    rcases slot with slot | slot <;> cases held.symm.trans slot <;> exact ⟨rfl, rfl, rfl⟩
  · have gone := ((ends.requests c).empty free (cages.idle adopt)).2
    cases held.symm.trans gone

/-- A segment after a Restart (R128). -/
structure SegmentRestarted (clocks : ClockHold) (p t : State) (g : Seg) : Prop where
  pass     : (t.link g).passThrough = none
  recovery : (p.link g).state = .recovery → (t.link g).state = .recovery
  held     : (p.link g).state = .chunk → clockHeldOn clocks g = true →
    (t.link g).state = .recovery ∧ (t.link g).chunk = none
  going    : (p.link g).state = .chunk → clockHeldOn clocks g = false →
    (t.link g).state = .chunk ∧ (t.link g).stretch = none ∧
    (t.link g).chunk = (p.link g).chunk.map (fun k => { k with ending := .restart })
  waiting  : (p.link g).state = .idle ∨ (p.link g).state = .retryWait →
    (t.link g).state = .idle ∧ (t.link g).selected = none ∧ (t.link g).chunk = none ∨
    ∃ c, segOf c = g ∧ (t.cage c).state = .adopt ∧ (t.link g).selected = some c

theorem segmentRestarted (ends : EndsAs (takeRestart clocks p) t) (none : (t.link g).scanner = none) :
    SegmentRestarted clocks p t g := by
  obtain ⟨busy, granted, pass, _, _⟩ := ends.segments g
  rw [takeRestart_link] at busy granted pass
  obtain ⟨emptied, _⟩ := atRestart_slots (clockHeldOn clocks g) (p.link g)
  have empty : (t.link g).passThrough = .none := by
    rw [emptied] at pass
    exact pass.elim id fun h => h.2
  refine ⟨empty, fun state => ?_, fun state held => ?_, fun state free => ?_, fun state => ?_⟩
  · have stays := atRestart_recovery (held := clockHeldOn clocks g) state
    rw [busy (.inl (by rw [stays]; nofun))]
    exact stays
  · obtain ⟨stays, over_⟩ := atRestart_stretched state
    rw [held] at busy
    rw [busy (.inl (by rw [stays]; nofun))]
    exact ⟨stays, over_⟩
  · obtain ⟨stays, stretch, chunk⟩ := atRestart_going state
    rw [free] at busy
    rw [busy (.inl (by rw [stays]; nofun))]
    exact ⟨stays, stretch, chunk⟩
  · obtain ⟨idle, unselected, over_⟩ := atRestart_waiting (held := clockHeldOn clocks g) state
    by_cases stays : (t.link g).state = .idle
    · rw [busy (.inr stays)]
      exact .inl ⟨idle, unselected, over_⟩
    · obtain ⟨slot, r, inSlot, _, _, selected, _⟩ := granted idle stays
      cases slot with
      | crs e =>
        obtain ⟨d, segment, same⟩ := cage_of_slot g e
        have slot : t.crsSlot d = some r.grant := by
          rw [State.crsSlot, segment]
          exact (congrArg (fun i : Fin 8 => (t.link g).crsSlots[i]) same).trans inSlot
        obtain ⟨adopt, _, _, own⟩ := restarted_slot ends slot
        exact .inr ⟨d, segment, adopt, selected.trans (congrArg some own)⟩
      | passThrough => cases inSlot.symm.trans empty
      | scanner => cases inSlot.symm.trans none

/-! ### The cages at the end of the event -/

theorem LeftAdopt.ended {new : CageState} (h : LeftAdopt c new p u) (ends : EndsAs u t) :
    (t.cage c).state = new ∧ (new = .identify → (t.cage c).timers =
      { noTimers with initWait := some 2000, initStart := p.openChoices }) ∧ (t.line c).source = .sequencer ∧
    ∃ n, t.events.histories[c] =
      (({ sequence := n, time := p.startup.stationTime, kind := .adopted, before := .adopt,
          cause := none, penalty := (p.penalty c).value, snapshot := none } : EventRecord) ::
        p.events.histories[c]).take 4 := by
  obtain ⟨state, _, timers, line, made⟩ := h
  rw [ends.same.cages c, ends.line c, ends.same.events]
  exact ⟨state, timers, line, made⟩

/-- A cage at the end of a Restart's event. -/
structure CageRestarted (c : Cage) (p t : State) : Prop where
  claim    : (t.claim c).state = .none
  scan     : (t.cageScan c).sample = none ∧ (t.cageScan c).history = []
  off      : (p.cageConf c).enabled = false → (t.cage c).state = .disabled ∧
    t.events.histories[c] = p.events.histories[c]
  vacant   : (p.cageConf c).enabled = true → (p.line c).present = false →
    (t.cage c).state = .vacant ∧ (t.line c).source = .sequencer
  identify : (p.cageConf c).enabled = true → (p.line c).present = true → (p.outputs c).lowPower = true →
    (t.cage c).state = .identify ∧
    (t.cage c).timers = { noTimers with initWait := some 2000, initStart := p.openChoices } ∧
    (t.line c).source = .sequencer
  record   : (p.cageConf c).enabled = true ∧ ((p.line c).present = false ∨ (p.outputs c).lowPower = true) →
    ∃ n, t.events.histories[c] =
      (({ sequence := n, time := p.startup.stationTime, kind := .adopted, before := .adopt,
          cause := none, penalty := (p.penalty c).value, snapshot := none } : EventRecord) ::
        p.events.histories[c]).take 4
  adopt    : (p.cageConf c).enabled = true → (p.line c).present = true → (p.outputs c).lowPower = false →
    (t.cage c).state = .adopt ∧ (t.cage c).identReads = 1 ∧ (t.line c).source = .latched ∧ t.asksIdentity c ∧
    t.outputs c = p.outputs c ∧ t.events.histories[c] = p.events.histories[c]

theorem takeRestart_claims (clocks : ClockHold) (p : State) :
    (takeRestart clocks p).claims = (p.cleared clocks).claims := by
  rw [takeRestart_units clocks p]

theorem takeRestart_undue (clocks : ClockHold) (p : State) : (takeRestart clocks p).claims.testDue = false := by
  rw [takeRestart_claims, (cleared clocks p).claims]
  rfl

theorem cageRestarted (ends : EndsAs (takeRestart clocks p) t) (c : Cage) : CageRestarted c p t := by
  have cages := takeRestart_cages clocks p c
  have scan : t.cageScan c = resetCageScan := (ends.cageScan c).trans ((takeRestart_blank clocks p).scans c)
  have claim : (t.claim c).state = .none := by
    obtain ⟨claims, _⟩ := ends.untested (takeRestart_undue clocks p)
    rw [claim_congr (claims.trans (takeRestart_claims clocks p))]
    exact (cleared clocks p).claim c
  generalize takeRestart clocks p = u at *
  refine ⟨claim, by rw [scan]; exact ⟨rfl, rfl⟩, fun off => ?_, fun enabled absent => ?_, fun enabled present low => ?_,
    fun ⟨enabled, leaves⟩ => ?_, fun enabled present high => ?_⟩
  · obtain ⟨state, _, history⟩ := cages.off off
    rw [ends.same.cages c, ends.same.events]
    exact ⟨state, history⟩
  · obtain ⟨state, _, line, _⟩ := (cages.vacant enabled absent).ended ends
    exact ⟨state, line⟩
  · obtain ⟨state, timers, line, _⟩ := (cages.identify enabled present low).ended ends
    exact ⟨state, timers rfl, line⟩
  · cases present : (p.line c).present with
    | false => exact ((cages.vacant enabled present).ended ends).2.2.2
    | true => exact ((cages.identify enabled present (leaves.resolve_left (by rw [present]; nofun))).ended ends).2.2.2
  · obtain ⟨state, reads, requests, line, history⟩ := cages.adopt enabled present high
    have own : t.line c = latchedLine p c := (ends.line c).trans line
    have visit : (t.cage c).visit = (u.cage c).visit := by rw [ends.same.cages c]
    refine ⟨by rw [ends.same.cages c]; exact state, by rw [ends.same.cages c]; exact reads, by rw [own]; rfl, ?_, ?_,
      by rw [ends.same.events]; exact history⟩
    · rw [State.asksIdentity, visit]
      exact ends.asks (by rw [requests]; exact List.mem_cons_self) (by rw [line]; exact present)
        (identityRead_transaction c 0 _)
    · rw [State.outputs, own]
      rfl

/-! ### The transmit queue (R74, R92) -/

theorem Cleared.leaves (h : Cleared clocks p x) (c : Cage) : x.leavesAdopt c =
    ((p.cageConf c).enabled && (!(p.line c).present || (p.outputs c).lowPower)) := by
  have cage := h.cage c
  cases enabled : (p.cageConf c).enabled with
  | false =>
    rw [enabled] at cage
    rw [State.leavesAdopt, cage]
    rfl
  | true =>
    have line := h.line c enabled
    rw [enabled] at cage
    rw [State.leavesAdopt, cage, State.latchedLowPower, line]
    rfl

theorem restart_bus (ends : EndsAs (takeRestart clocks p) t) :
    Reported (fun c => (p.cageConf c).enabled = true ∧ ((p.line c).present = false ∨ (p.outputs c).lowPower = true))
      (allCages.filter (fun c => (p.cageConf c).enabled && (!(p.line c).present || (p.outputs c).lowPower))).length
      (p.bus.atRestart p.conf.announce) t.bus := by
  have cleared := cleared clocks p
  obtain ⟨_, bus⟩ := ends.untested (takeRestart_undue clocks p)
  rw [takeRestart_eq] at bus
  generalize p.cleared clocks = x at *
  have perm := openOrder_perm p allCages
  have detached : ∀ f ∈ x.bus.txQueue, f.mark = .detached := fun f mem => by
    rw [cleared.bus] at mem
    obtain ⟨g, _, rfl⟩ := List.mem_map.1 mem
    rfl
  have reported := examineAll_bus cleared.blank detached (by rw [cleared.bus]; rfl) (openOrder_nodup p)
    (by rw [perm.length_eq, allCages, List.length_finRange]; omega)
  rw [← bus, cleared.bus, (perm.filter _).length_eq, show x.leavesAdopt = _ from funext cleared.leaves] at reported
  refine reported.mono fun c leaves => ?_
  simp only [Bool.and_eq_true, Bool.or_eq_true, Bool.not_eq_true'] at leaves
  exact leaves

end Sys2Proof.Machine
end

section
/-! PROOF. O52: a RESTART served, and the Restart at its timer or at its REPLY (R38, R74, R157, R171, R188, R189). -/

namespace Sys2Proof.Machine

variable {clocks : ClockHold} {c : Cage} {g : Seg} {p s t : State}

/-! ### The two events of a Restart (R171) -/

/-- The health evaluated moves the bus and the claims alone. -/
theorem judgeHealth_units (s : State) :
    judgeHealth s = { s with bus := (judgeHealth s).bus, claims := (judgeHealth s).claims } := by
  have abandoned : ∀ u : State, abandonAll u = { u with bus := (abandonAll u).bus, claims := (abandonAll u).claims } :=
    fun u => foldl_invariant (fun v : State => v = { u with bus := v.bus, claims := v.claims })
      (fun s e => abandonIntent e s) (fun v e same => by
        unfold abandonIntent
        split
        · rw [updIntent, State.updClaims, same]
        · rw [cancelIntent, same]
          rfl) _ u rfl
  unfold judgeHealth healthReport
  split
  · rfl
  · split
    · exact abandoned (s.updBus BusUnit.judged)
    · rfl
    · rfl
    · rfl

/-- A Restart is taken from a state that differs from the one before the event in the bus and the claims alone, and from
that one itself at the restart timer's expiry. -/
theorem restart_event {i : Instr} (free : s.startup.resetHeld = false) (loaded : s.startup.runState ≠ .loading)
    (phase : s.service.phase = .restartPending)
    (event : i = .restartTimerExpiry clocks ∧ s.service.restartTimer.isSome ∨
      i = .goodReceipt clocks ∧ ∃ n f code result data, s.underAttempt = some (n, f) ∧
        f.mark = .attempting ∧ f.body = .reply code result data) :
    ∃ b k, exec i s = .next (finish (takeRestart clocks { s with bus := b, claims := k })).nextChoice ∧
      (i = .restartTimerExpiry clocks → b = s.bus) := by
  rcases event with ⟨rfl, timer⟩ | ⟨rfl, n, f, code, result, data, attempt, mark, body⟩
  · refine ⟨s.bus, s.claims, eventNext_finish (effect := takeRestart clocks) free ?_, fun _ => rfl⟩
    rw [phase, timer]
    rfl
  · have receipt : exec (.goodReceipt clocks) s = .next (finish (attemptSent clocks s)).nextChoice :=
      eventNext_finish (effect := attemptSent clocks) free (by rw [onBus_of loaded, attempt]; rfl)
    let v := judgeHealth (s.updBus (fun b => (b.sent n f).txGood))
    have leaves := judgeHealth_leaves (s.updBus (fun b => (b.sent n f).txGood))
    have same : v = { s with bus := v.bus, claims := v.claims } :=
      judgeHealth_units (s.updBus (fun b => (b.sent n f).txGood))
    have sent : attemptSent clocks s = takeRestart clocks v := by
      rw [attemptSent_eq attempt (by rw [mark]; nofun), body]
      show replySent clocks v = _
      rw [replySent, show v.service.phase = .restartPending from (congrArg ServiceUnit.phase leaves.service).trans phase]
    refine ⟨v.bus, v.claims, ?_, nofun⟩
    rw [receipt, sent, ← same]

/-- A RESTART is answered DONE, and its timer starts (R171). -/
theorem restart_served (serves : s.serves) (heard : s.startup.runState ≠ .listening) :
    ∃ t, exec .restart s = .next t ∧ EndsAs { s with
      service := { phase := .restartPending, request := some ⟨11, []⟩, restartTimer := some 100 },
      bus := { s.bus with txQueue := s.bus.txQueue ++ [newFrame 16 (.reply 11 0 [])] } } t := by
  obtain ⟨t, next, ends⟩ := carriesOut (i := .restart) (q := ⟨11, []⟩) serves rfl
    (judge_passes (by decide) (by decide) (by decide) heard)
  have effect : carryOut ⟨11, []⟩ s = serveRestart ⟨11, []⟩ s := rfl
  rw [effect, serveRestart, answer_eq serves.room] at ends
  exact ⟨t, next, ends⟩

/-! ### The Restart -/

theorem restart_scanner (clocks : ClockHold) (p : State) (g : Seg) :
    (finish (takeRestart clocks p)).nextChoice.scanner g = resetScanner ∧
    ((finish (takeRestart clocks p)).nextChoice.link g).scanner = none := by
  have off : ∀ c, ((takeRestart clocks p).cage c).state.powered = false := fun c => (takeRestart_cages clocks p c).unpowered
  have empty : ((takeRestart clocks p).link g).scanner = none := by
    rw [takeRestart_link]
    exact (atRestart_slots _ _).2
  have scanner := (takeRestart_blank clocks p).scanners g
  generalize takeRestart clocks p = u at *
  obtain ⟨kept, none_⟩ := finish_noSlot off empty
  generalize finish u = v at *
  exact ⟨kept.trans scanner, none_⟩

/-- The start-up block at the end of a Restart's event (R188, R189). -/
theorem restart_startup (clocks : ClockHold) (p : State) (ends : EndsAs (takeRestart clocks p) t)
    (is : t = (finish (takeRestart clocks p)).nextChoice) :
    t.startup = { p.startup with runState := t.startup.runState, listenTicks := 0 } ∧
    ((∃ c : Cage, (t.cage c).state = .adopt) → t.startup.runState = .adopting) ∧
    ((∀ c : Cage, (t.cage c).state ≠ .adopt) → t.startup.runState = .listening) := by
  have begun := takeRestart_startup clocks p
  generalize takeRestart clocks p = u at *
  have states : ∀ c, (t.cage c).state = (u.cage c).state := fun c => by rw [ends.same.cages c]
  have startup : t.startup = (endAdopting u).startup := by
    have run := finish_runState u
    rw [is]
    generalize finish u = v at *
    exact run
  obtain ⟨stays, over_⟩ := endAdopting_startup (s := u) (by rw [begun]) (by rw [begun])
  rw [startup]
  simp only [states]
  by_cases any : ∃ c, (u.cage c).state = .adopt
  · rw [stays any, begun]
    exact ⟨rfl, fun _ => rfl, fun never => absurd any fun ⟨c, state⟩ => never c state⟩
  · have never : ∀ c, (u.cage c).state ≠ .adopt := fun c state => any ⟨c, state⟩
    rw [over_ never, begun]
    exact ⟨rfl, fun some => absurd some any, fun _ => rfl⟩

/-- The claim unit, the bus and the units that stay, at the end of a Restart's event (R74, R188). -/
structure UnitsRestarted (p t : State) : Prop where
  penalties : t.penalties = p.penalties
  claims    : t.claims = resetClaims t.claims.claims
  service   : t.service = resetService
  bus       : t.bus = { p.bus.atRestart p.conf.announce with txQueue := t.bus.txQueue, reportDrop := t.bus.reportDrop }
  peers     : ∀ n : Station, t.peer n = unknownPeer

theorem unitsRestarted (ends : EndsAs (takeRestart clocks p) t) : UnitsRestarted p t := by
  have cleared := cleared clocks p
  have units := takeRestart_units clocks p
  obtain ⟨claims, _⟩ := ends.untested (takeRestart_undue clocks p)
  have bus := (restart_bus ends).same
  generalize takeRestart clocks p = u at *
  generalize p.cleared clocks = x at *
  have left : u.penalties = x.penalties ∧ u.claims = x.claims ∧ u.service = x.service ∧ u.peers = x.peers := by
    rw [units]
    exact ⟨rfl, rfl, rfl, rfl⟩
  obtain ⟨penalties, same, service, peers⟩ := left
  refine ⟨ends.same.penalties.trans (penalties.trans cleared.penalties), ?_, ends.same.service.trans (service.trans cleared.service),
    bus, fun n => ?_⟩
  · rw [claims, same]
    exact cleared.claims
  · rw [State.peer, ends.same.peers, peers]
    exact cleared.peers n

/-- A frame under attempt stays, detached (R74). -/
theorem detached_kept (ends : EndsAs (takeRestart clocks p) t) {f : TxFrame} (mem : f ∈ p.bus.txQueue)
    (under : f.mark ≠ .waiting) : { f with mark := .detached, followOn := none } ∈ t.bus.txQueue :=
  (restart_bus ends).kept _ (List.mem_map.2 ⟨f, List.mem_filter.2 ⟨mem, decide_eq_true under⟩, rfl⟩)

/-- A frame in the queue after a Restart is a detached one, or the report of a cage that has left ADOPT (R74, R90). -/
theorem restart_frames (ends : EndsAs (takeRestart clocks p) t) {f : TxFrame} (mem : f ∈ t.bus.txQueue) :
    f.mark = .detached ∨ (f.mark = .waiting ∧ ∃ r, f.body = .cageReport r ∧
      ((p.cageConf r.cage).enabled = true ∧ ((p.line r.cage).present = false ∨ (p.outputs r.cage).lowPower = true))) :=
  ((restart_bus ends).frames f mem).imp_left fun old => by
    obtain ⟨g, _, rfl⟩ := List.mem_map.1 old
    rfl

/-- Settles O52: the RESTART served, and the Restart at either of its events, block by block. -/
theorem restartServedAndTaken : Obligations.RestartServedAndTaken := by
  refine ⟨fun s serves heard => restart_served serves heard, fun i clocks s free loaded phase event => ?_⟩
  intro leaves
  obtain ⟨b, k, next, own⟩ := restart_event free loaded phase event
  have ends := (finish_endsAs (takeRestart clocks { s with bus := b, claims := k }))
  have scanners := restart_scanner clocks { s with bus := b, claims := k }
  obtain ⟨t, is⟩ : ∃ t, t = (finish (takeRestart clocks { s with bus := b, claims := k })).nextChoice := ⟨_, rfl⟩
  rw [← is] at next ends scanners
  obtain ⟨startup, adopting, listening⟩ := restart_startup clocks _ ends is
  obtain ⟨penalties, claims, service, bus, peers⟩ := unitsRestarted ends
  have segments := fun g => segmentRestarted ends (scanners g).2
  have cages := cageRestarted ends
  have frames := fun f mem => restart_frames ends (f := f) mem
  have count := (restart_bus ends).counted
  have detached := fun f mem under => detached_kept ends (f := f) mem under
  have slots := fun c r held => restarted_slot ends (c := c) (r := r) held
  clear ends is
  refine ⟨t, next, penalties, by rw [startup], by rw [startup], by rw [startup], by rw [startup], by rw [startup],
    by rw [claims]; rfl, by rw [claims]; rfl, by rw [claims]; rfl, by rw [claims]; rfl, by rw [claims]; rfl,
    service, by rw [bus]; rfl, by rw [bus]; rfl, by rw [bus]; rfl, by rw [bus]; rfl, by rw [bus]; rfl,
    by rw [bus]; rfl, by rw [bus]; rfl, by rw [bus]; rfl, by rw [bus]; rfl, by rw [bus]; rfl, by rw [bus]; rfl,
    by rw [bus]; rfl, by rw [bus]; rfl, frames, fun timer f mem under => detached f (own timer ▸ mem) under, count,
    peers, fun g => ?_, fun c => ?_, adopting, listening⟩
  · obtain ⟨pass, recovery, held, going, waiting⟩ := segments g
    exact ⟨(scanners g).1, pass, (scanners g).2, recovery, held, going, waiting⟩
  · obtain ⟨claim, ⟨sample, history⟩, off, vacant, identify, record, adopt⟩ := cages c
    refine ⟨claim, sample, history, fun r held => ?_, off, vacant, identify, record, adopt⟩
    obtain ⟨state, address, length, _⟩ := slots c r held
    exact ⟨state, address, length⟩

end Sys2Proof.Machine
end
